-- ==== Sys2Proof/Word.lean ====
section
/-!
DEFINITION. The word and byte types of the model and their plainest helpers.
-/

namespace Sys2Proof

/-- A register word (R478: registers are 64 bits wide). -/
abbrev Word := BitVec 64

/-- One byte of a frame, a tile or a stack. -/
abbrev Byte := BitVec 8

/-- A step number; the genesis step is `-1` (R346). -/
abbrev Step := Int

end Sys2Proof
end

