-- ==== Sys2Proof/Syntax.lean ====
section
/-!
DEFINITION. The commands the module takes: one constructor for every row of the opcode table, with the operands that
the outside world, a timer or a piece of hardware supplies.
-/

namespace Sys2Proof

/-- The paths by which registers are written (R484); frames arrive on the last three. -/
inductive Path where
  | firmware
  | cpA
  | cpB
  | mgmt
  deriving DecidableEq, Repr

/-- A control frame (R276): header fields, data, and for a confidential session the frame counter it was sealed under.
`time` is when it arrived, in microseconds of the sender's choosing (only differences matter). -/
structure Frame where
  typ : Nat
  flags : Nat := 0
  rsv : Nat := 0
  tag : Nat := 0
  addr : Nat := 0
  len : Nat := 0
  status : Nat := 0
  aux : Nat := 0
  data : List Byte := []
  counter : Nat := 0
  time : Nat := 0
  deriving DecidableEq, Repr

/-- A message between modules (R244). -/
structure Msg where
  dst : Nat
  src : Nat
  kind : Nat
  hops : Nat := 16
  gen : Nat := 1
  flags : Nat := 0xFC
  step : Step := 0
  xfer : Nat := 0
  seg : Nat := 0
  len : Nat := 0
  addr : Nat := 0
  sync : Nat := 0
  aux : Nat := 0
  data : List Byte := []
  vc : Nat := 0
  deriving DecidableEq, Repr

/-- A flit (R223) as it stands on a port: header fields, payload, CRC word, and whether the FEC could not correct its
codeword. -/
structure Flit where
  typ : Nat
  vc : Nat := 0
  som : Bool := false
  eom : Bool := false
  seq : Nat := 0
  ackseq : Nat := 0
  ackk : Nat := 0
  crvc : Nat := 0
  crcnt : Nat := 0
  len : Nat := 0
  epoch : Nat := 0
  payload : List Byte := []
  crc : Nat := 0
  fecBad : Bool := false
  /-- Codewords that the FEC corrected, and found not correctable, since the flit before (R242). -/
  fecCorr : Nat := 0
  fecUncorr : Nat := 0
  deriving DecidableEq, Repr

/-- Pins and sideband lines the module drives (R17, R27, R292). -/
inductive Pin where
  | fault
  | thermtrip
  | perst (xp : Nat)
  | light (engine : Nat)
  | rail (n : Nat)
  | tdo
  /-- A signal land driven by a boundary cell, numbered in the order of R17. -/
  | land (n : Nat)
  deriving DecidableEq, Repr

/-- What the hardware did to one lane of a chunk, beyond its definition: the amount added to the delivered lane sum,
to the window top, and whether the overflow decision was inverted (R300). All zero for sound hardware. -/
structure LaneUpset where
  lane : Nat
  sum : Int := 0
  top : Int := 0
  ovf : Bool := false
  /-- The amount added to the checker's own predicted residue. -/
  residue : Int := 0
  /-- The promoted value's significand was upset: seen by the checker of the promotion adder (R301). -/
  promo : Nat := 0
  /-- The two computations of the promotion's rounding increment or exponent path differ (R301). -/
  dup : Bool := false
  /-- Bits upset in a word of the operand or accumulator buffer that the lane reads: one is corrected, two are detected
  (R304). -/
  buf : Nat := 0
  deriving DecidableEq, Repr

/-- The conditions an error record carries (R397 word 5): sensor reading and rail voltage. -/
structure Cond where
  temp : Int := 0
  vdd : Nat := 0
  activity : Nat := 0
  deriving DecidableEq, Repr

/-- A wait edge (R402): the waiting unit and what it waits on; units are named by fabric die number and sub-unit. -/
structure Edge where
  die : Nat
  unit : Nat
  toDie : Nat
  toUnit : Nat
  /-- The remote module waited on, when the edge leaves the module. -/
  remote : Option Nat := none
  deriving DecidableEq, Repr

/-- What a start finds on the board and in the dies (R457 to R467): dies answering, stacks training, edges training,
modes read from the fuses and flash. -/
structure StartReport where
  cold : Bool
  /-- Dies (fabric numbers) that failed to start. -/
  deadDies : List Nat := []
  /-- Stacks that failed to train. -/
  deadStacks : List Nat := []
  /-- Arrays (core * 8 + array) that failed the self-test. -/
  failedArrays : List Nat := []
  /-- Residue checkers (core * 8 + array) that missed an injected disagreement; memories that failed their test: die * 8 + core of
  the die, or die * 8 + 4 for its DSM; engines whose fixed item disagreed: die * 64 + engine (R465). -/
  failedChecks : List Nat := []
  failedMemory : List Nat := []
  failedEngines : List Nat := []
  /-- Capacity found on each far port, in bytes (R213). -/
  farBytes : List Nat := []
  /-- Unit-health sections found absent: bit per section (R462). -/
  absent : Nat := 0
  /-- The boot ROM found a verified image in flash slot A, B. -/
  slotOk : List Bool := [true, true]
  /-- The ports searched in full. -/
  search : Nat := 0
  /-- The samples of STRAP[3:0] at the release of POR_N, in order (R294). -/
  strap : List Nat := [0, 0]
  deriving DecidableEq, Repr

/-- One AVSBus or PMBus reading (R420): rail, millivolts, amperes. -/
structure RailSample where
  rail : Nat
  mv : Nat
  amps : Nat
  lost : Bool := false
  /-- How many replies failed their PEC or CRC check: one failing reply is read again (R294). -/
  badReplies : Nat := 0
  deriving DecidableEq, Repr

/-- The reset domain named by a watchdog, limit or completion command (R407). -/
inductive DomainRef where
  | array (core a : Nat)
  | core (core : Nat)
  | stackPhy (die : Nat)
  | die (die : Nat)
  | port (p : Nat)
  | linkDie (die : Nat)
  | hub (die : Nat)
  | module
  deriving DecidableEq, Repr

/-- The commands. `sid` is a slot (0-47 compute, 48-55 link, 56-59 hub), `op` an op index of its plan; `core` counts
cores over the module (4 * die + c); `die` is a fabric number; `port` is 0-47 for Braze ports, 48 and 49 for CP.A and
CP.B. -/
inductive Instr where
  -- control port, plans
  | regRead (p : Path) (f : Frame)
  | regWrite (p : Path) (f : Frame)
  | planData (p : Path) (f : Frame)
  | routeImageApply
  | plnLoadBegin (p : Path) (gen : Nat)
  | plnLoadCommit (p : Path)
  | plnLoadDiscard (p : Path)
  | swapReq (p : Path)
  | swapCancel (p : Path)
  | swapTimeout
  | stepOpen (sid : Nat)
  | binChange (die : Nat)
  -- matrix arrays
  | product (sid op : Nat)
  | kFold (sid op : Nat)
  | accWrite (sid op : Nat)
  | chunk (sid op row colTile : Nat) (upset : List LaneUpset) (c : Cond)
  | assay (core : Nat) (upset : List LaneUpset) (c : Cond)
  | secondAssay (core : Nat) (upset : List LaneUpset) (c : Cond)
  | touchstoneRun (core array index : Nat) (upset : List LaneUpset) (c : Cond)
  | contextSave (core : Nat)
  | contextRestore (core : Nat)
  | idleTaper (core : Nat)
  | grantWindow (quadrant : Nat)
  -- vector unit
  | map (sid op : Nat)
  | rowMax (sid op : Nat)
  | rowMin (sid op : Nat)
  | kFoldVector (sid op : Nat)
  | tileRowComplete (sid op group : Nat) (disagree : Bool)
  -- strand instructions: strand `n` of `core`, destination and source registers
  | add (core n d a b : Nat)
  | sub (core n d a b : Nat)
  | mul (core n d a b : Nat)
  | fma (core n d a b c : Nat)
  | div (core n d a b : Nat)
  | sqrt (core n d a : Nat)
  | rsqrt (core n d a : Nat)
  | neg (core n d a : Nat)
  | abs (core n d a : Nat)
  | max (core n d a b : Nat)
  | min (core n d a b : Nat)
  | cmplt (core n d a b : Nat)
  | cmple (core n d a b : Nat)
  | cmpeq (core n d a b : Nat)
  | select (core n d a b c : Nat)
  | exp (core n d a : Nat)
  | expm1 (core n d a : Nat)
  | log (core n d a : Nat)
  | log1p (core n d a : Nat)
  | tanh (core n d a : Nat)
  | sigmoid (core n d a : Nat)
  | erf (core n d a : Nat)
  | gelu (core n d a : Nat)
  | rand (core n d seq : Nat)
  | mov (core n d a : Nat)
  -- row reduction unit
  | sum (sid op : Nat)
  | sumsq (sid op : Nat)
  | dot (sid op : Nat)
  | meanvar (sid op : Nat)
  | mvCombine (sid op : Nat)
  | smaxBwd (sid op : Nat)
  | normFwd (sid op : Nat)
  | normBwd (sid op : Nat)
  | maxIdx (sid op : Nat)
  | minIdx (sid op : Nat)
  -- engine cluster and link-side engines
  | copy (sid op : Nat)
  | zero (sid op : Nat)
  | gather (sid op : Nat)
  | scatter (sid op : Nat)
  | scatterAdd (sid op : Nat)
  | swage (sid op : Nat)
  | transpose (sid op : Nat)
  | shake (sid op : Nat)
  | crc (sid op : Nat)
  | verify (sid op : Nat)
  | sort (sid op : Nat)
  | merge (sid op : Nat)
  | reduce (sid op : Nat)
  | broadcast (sid op : Nat)
  | nodeAdd (sid op : Nat)
  -- transfers
  | put (sid op : Nat)
  | get (sid op : Nat)
  | reslice (sid op : Nat)
  | farRead (sid op : Nat)
  | farWrite (sid op : Nat)
  | sync (sid op : Nat)
  | waitDeclared (sid op : Nat)
  | pull (sid op : Nat)
  | push (sid op : Nat)
  | stepEndAudit (sid op : Nat)
  | opComplete (sid op : Nat)
  | budgetOverrun (sid op : Nat)
  | engineItemComplete (sid op item engine : Nat) (disagree : Bool)
  | engSvcWrite (p : Path) (die : Nat) (v : Word)
  | hallmarkReread (sid op operand tile : Nat) (second : List Byte)
  -- memory
  | verifyRead (stack page rowSel : Nat) (symbol : Option Nat)
  | pageCopyDone (stack page : Nat)
  | burnishRead (addr : Nat) (symbol : Option Nat) (uncorrectable : Bool)
  | guardCopy (stack block : Nat)
  | selfRefreshEntry (stack : Nat)
  | selfRefreshWake (stack : Nat)
  | cxlRequestTimeout (xp : Nat)
  | cxlLinkDown (xp : Nat)
  | cxlRetrain (p : Path) (xp : Nat)
  -- checkpoints and spares
  | tier0CopyDone (sid : Nat)
  | migrationDone (sid : Nat)
  | spareSubstitution (sid : Nat)
  | restore (p : Path)
  | loadInit (p : Path) (win : Nat)
  | restorePlacementDone
  -- messages, arriving at link die `die`
  | write (die : Nat) (m : Msg)
  | fetch (die : Nat) (m : Msg)
  | fetchData (die : Nat) (m : Msg)
  | complete (die : Nat) (m : Msg)
  | segmentRetryResend (xfer seg : Nat)
  | arrive (die : Nat) (m : Msg)
  | release (die : Nat) (m : Msg)
  | routeWaitTimeout (die : Nat)
  | vc3GapTimeout (src : Nat)
  | downList (port : Nat)
  | resendHoldTimeout (die : Nat)
  | undeclaredWaitLimit (core : Nat)
  | dieRtDataWrite (p : Path) (die : Nat) (v : Word)
  -- step ledger
  | checked (m : Msg)
  | uncheck (m : Msg)
  | seal (m : Msg)
  | replay (m : Msg)
  | reopen (m : Msg)
  | deferReq (m : Msg)
  | defer (m : Msg)
  | elasticWaitExpiry (die obj : Nat)
  | inventory (m : Msg)
  | restorePick (m : Msg)
  | genesis (p : Path)
  | genesisHallmarksDone
  | sealTreeTimeout
  | endJob (p : Path)
  | replayJob (p : Path)
  | replayMaxExceeded (sid : Nat)
  | ldgDeferWrite (p : Path) (v : Word)
  | ledgerHandover
  -- Braze and control port links
  | dataFlit (port : Nat) (f : Flit)
  | ack (port : Nat) (f : Flit)
  | nak (port : Nat) (f : Flit)
  | ackIntervalTimer (port : Nat)
  | flitTransmit (port : Nat)
  | retryLimReached (port : Nat)
  | brzEnableSet (port : Nat)
  | brzEnableClear (port : Nat)
  | lightReady (port : Nat)
  | trainDone (port tx rx : Nat) (search : Bool)
  | alignDone (port : Nat)
  | ident (port : Nat) (f : Flit)
  | echo (port : Nat) (f : Flit)
  | echoTimeout (port : Nat)
  | brzStateTimeout (port : Nat)
  | laneHealthChange (port tx rx : Nat)
  | laserInput (die engine input dbmTenths : Nat)
  | widthChangeDone (port : Nat)
  | codewordLockLost (port : Nat)
  | retrainDone (port : Nat)
  | lossOfSignal (port : Nat)
  | brzPortRestart (port : Nat)
  -- windows, events, sessions
  | dmaReadData (p : Path) (f : Frame)
  | pullBackoffExpiry (sid op : Nat)
  | ctlPullFix (p : Path) (win : Nat)
  | fixSExpiry (win : Nat)
  | dmaWriteAck (p : Path) (f : Frame)
  | dmaTmoExpiry (tag : Nat)
  | eventAck (p : Path) (f : Frame)
  | eventResendTimer
  | keyExchange (p : Path) (f : Frame)
  | keyExchangeTimeout
  | frameCounterLimit
  -- security and firmware
  | attestReq (p : Path) (f : Frame)
  | certReq (p : Path) (f : Frame)
  | fwData (p : Path) (f : Frame)
  | fwBegin (p : Path) (f : Frame)
  | fwStage (p : Path) (f : Frame)
  | fwActivate (p : Path) (f : Frame)
  | fwCommit (p : Path) (f : Frame)
  | fwAbort (p : Path) (f : Frame)
  | revoke (p : Path) (f : Frame)
  | install (p : Path) (f : Frame)
  | apply (p : Path)
  | debugLock (p : Path)
  | scrubDone
  -- register pages
  | shadowLoad (p : Path) (die blk : Nat)
  | arm (p : Path) (die blk : Nat)
  | disarm (p : Path) (die blk : Nat)
  -- power, clocks, thermal
  | sleep (p : Path)
  | sleepEntry
  | wake (p : Path)
  | thermalSample (die : Nat) (sensors : List Int) (stack : Int)
  | railTelemetryPoll (rails : List RailSample)
  | alertN (rail : Nat)
  | avsAckTimeout (die : Nat)
  | pmbusClockLowTimeout
  | refclkLoss (pair : Nat)
  -- start-up and test
  | porNRelease (r : StartReport)
  | powerGoodTimeout (rail : Nat)
  | porNAssert
  | railsOkDeassert
  | tapInstruction (die ir : Nat) (dr : Nat)
  | stuLoopStart (p : Path) (v : Word)
  | loopbackEnd
  -- faults, hangs, resets
  | faultRecord (die : Nat) (limited : Bool)
  | handlingWindowExpiry (seq : Nat)
  | fltClaim (p : Path) (seq : Nat)
  | fltDone (p : Path) (seq : Nat)
  | fltCtlRelease (p : Path)
  | fltAryRel (p : Path) (v : Word)
  | releaseRunLapse (core array : Nat)
  | faultWindowExpiry (core array : Nat) (strike : Bool)
  | waitMsExpiry (sid op : Nat)
  | dieDetectorTick (die : Nat) (edges : List Edge)
  | moduleDetectorTick (edges : List Edge)
  | heartbeatTimeout
  | arrayReset (core a : Nat)
  | coreReset (core : Nat)
  | stackPhyReset (die : Nat)
  | dieReset (die : Nat)
  | brazePortReset (port : Nat)
  | linkDieReset (die : Nat)
  | hubReset (die : Nat)
  | moduleReset
  | resetWatchdog (d : DomainRef)
  | rstLimitReached (d : DomainRef)
  | modLimitReached
  | mgmtHandover
  | resetComplete (d : DomainRef)
  | fabricEdgeDown (die edge : Nat)
  | i3cTransactionTimeout
  | stackScrubTimeout (stack : Nat)
  deriving DecidableEq, Repr

end Sys2Proof
end

