-- ==== Sys2Proof/Machine/Bits.lean ====
section
/-!
DEFINITION. Bit fields of words and little-endian byte strings: the one place where field positions and byte order
are turned into values.
-/

namespace Sys2Proof.Machine

/-- The field [hi:lo] of a word, as a number. -/
def fld (w : Word) (hi lo : Nat) : Nat := (w.toNat / 2 ^ lo) % 2 ^ (hi + 1 - lo)

/-- The word with its field [hi:lo] replaced by `v`. -/
def setFld (w : Word) (hi lo v : Nat) : Word :=
  BitVec.ofNat 64
    (w.toNat - fld w hi lo * 2 ^ lo + (v % 2 ^ (hi + 1 - lo)) * 2 ^ lo)

/-- Bit `i` of a word. -/
def bitAt (w : Word) (i : Nat) : Bool := fld w i i == 1

/-- A field [hi:lo] that holds `v`, in place. -/
def inFld (hi lo v : Nat) : Nat := (v % 2 ^ (hi + 1 - lo)) * 2 ^ lo

/-- The mask of bits [hi:lo]. -/
def maskBits (hi lo : Nat) : Nat := (2 ^ (hi + 1 - lo) - 1) * 2 ^ lo

/-- The number that a little-endian byte string spells. -/
def leNat : List Byte → Nat
  | [] => 0
  | b :: bs => b.toNat + 256 * leNat bs

/-- The little-endian byte string of `n` bytes of a number. -/
def leBytes : Nat → Nat → List Byte
  | 0, _ => []
  | n + 1, v => BitVec.ofNat 8 v :: leBytes n (v / 256)

/-- `n` zero bytes. -/
def zeros (n : Nat) : List Byte := List.replicate n 0

/-- Bytes [off, off + n) of a byte string; missing bytes read as zero. -/
def bytesAt (bs : List Byte) (off n : Nat) : List Byte :=
  let t := (bs.drop off).take n
  t ++ zeros (n - t.length)

/-- The little-endian number in bytes [off, off + n) of a byte string. -/
def natAt (bs : List Byte) (off n : Nat) : Nat := leNat (bytesAt bs off n)

/-- The little-endian 64-bit words of a byte string. -/
def wordAt (bs : List Byte) (i : Nat) : Word := BitVec.ofNat 64 (natAt bs (8 * i) 8)

/-- The bytes of a list of words. -/
def wordBytes (ws : List Word) : List Byte := ws.flatMap (fun w => leBytes 8 w.toNat)

/-- ceil(a / b). -/
def cdiv (a b : Nat) : Nat := (a + b - 1) / b

/-- A list with position `i` replaced; unchanged when there is no such position. -/
def listSet {α : Type} (l : List α) (i : Nat) (v : α) : List α := l.set i v

/-- The 64-bit encoding of a step (R346). -/
def stepWord (s : Step) : Word := BitVec.ofInt 64 s

/-- The step that a 64-bit word names; the all-ones word is the genesis step (R346). -/
def wordStep (w : Word) : Step := if w.toNat = 2 ^ 64 - 1 then -1 else (w.toNat : Int)

/-- ASCII characters as bytes. -/
def ascii (cs : List Nat) : List Byte := cs.map (BitVec.ofNat 8)

end Sys2Proof.Machine
end

