-- ==== Sys2Proof/Machine/Fp.lean ====
section
/-!
DEFINITION. Binary floating point: encodings of R61, exact dyadic values, and the IEEE 754-2019 operations with
roundTiesToEven that the manual names (R81, R90, R137, R157, R158). Every NaN result is canonical (R63).
-/

namespace Sys2Proof.Machine

/-- A decoded value: NaN, an infinity, or `(-1)^neg * m * 2^e` exactly. -/
inductive FV where
  | nan
  | inf (neg : Bool)
  | fin (neg : Bool) (m : Nat) (e : Int)
  deriving DecidableEq, Repr

/-- The parameters of a floating-point encoding (R61). `maxCode` is the magnitude of the largest finite value. -/
structure FloatSpec where
  eBits : Nat
  fBits : Nat
  bias : Nat
  maxCode : Nat
  infCode : Option Nat
  nanCode : Option Nat
  deriving DecidableEq, Repr

def specB16 : FloatSpec := ⟨8, 7, 127, 0x7F7F, some 0x7F80, some 0x7FC0⟩
def specF16 : FloatSpec := ⟨5, 10, 15, 0x7BFF, some 0x7C00, some 0x7E00⟩
def specE4M3 : FloatSpec := ⟨4, 3, 7, 0x7E, none, some 0x7F⟩
def specE5M2 : FloatSpec := ⟨5, 2, 15, 0x7B, some 0x7C, some 0x7E⟩
def specE3M2 : FloatSpec := ⟨3, 2, 3, 0x1F, none, none⟩
def specE2M3 : FloatSpec := ⟨2, 3, 1, 0x1F, none, none⟩
def specE2M1 : FloatSpec := ⟨2, 1, 1, 0x7, none, none⟩
def spec32 : FloatSpec := ⟨8, 23, 127, 0x7F7F_FFFF, some 0x7F80_0000, some 0x7FC0_0000⟩
def spec64 : FloatSpec :=
  ⟨11, 52, 1023, 0x7FEF_FFFF_FFFF_FFFF, some 0x7FF0_0000_0000_0000, some 0x7FF8_0000_0000_0000⟩

/-- The bits of an encoding below its sign. -/
def FloatSpec.magBits (sp : FloatSpec) : Nat := sp.eBits + sp.fBits

/-- The exponent of the least significant bit of the subnormals. -/
def FloatSpec.qMin (sp : FloatSpec) : Int := 1 - (sp.bias : Int) - (sp.fBits : Int)

/-- Whether a magnitude code is a NaN encoding (R61). -/
def FloatSpec.isNanMag (sp : FloatSpec) (mag : Nat) : Bool :=
  match sp.infCode, sp.nanCode with
  | some i, _ => decide (i < mag)
  | none, some n => mag == n
  | none, none => false

/-- Exact decoding of an encoding (R61, R62, R72). -/
def FloatSpec.decode (sp : FloatSpec) (bits : Nat) : FV :=
  let neg := (bits / 2 ^ sp.magBits) % 2 == 1
  let mag := bits % 2 ^ sp.magBits
  if sp.isNanMag mag then .nan
  else if sp.infCode = some mag then .inf neg
  else
    let e := mag / 2 ^ sp.fBits
    let f := mag % 2 ^ sp.fBits
    if e = 0 then .fin neg f sp.qMin else .fin neg (2 ^ sp.fBits + f) (sp.qMin + (e : Int) - 1)

/-- The exponent of the step between target values around `m * 2^e` (m > 0), with an unbounded range above (R72). -/
def FloatSpec.quantum (sp : FloatSpec) (m : Nat) (e : Int) : Int :=
  max ((Nat.log2 m : Int) + e - (sp.fBits : Int)) sp.qMin

/-- `lo` of R72 as a multiple of the quantum, and the discarded remainder over `2 ^ k`. -/
def splitAt (m : Nat) (e q : Int) : Nat × Nat × Nat :=
  if q ≤ e then (m * 2 ^ (e - q).toNat, 0, 0)
  else
    let k := (q - e).toNat
    (m / 2 ^ k, m % 2 ^ k, k)

/-- Whether round to nearest, ties to even, moves `lo` away from zero. -/
def roundsUp (lo rem k : Nat) : Bool :=
  decide (2 ^ k < 2 * rem) || (decide (0 < rem) && decide (2 * rem = 2 ^ k) && lo % 2 == 1)

/-- The magnitude code of `n` quanta; it exceeds `maxCode` exactly when the value lies outside the finite range. -/
def FloatSpec.code (sp : FloatSpec) (n : Nat) (q : Int) : Nat := (q - sp.qMin).toNat * 2 ^ sp.fBits + n

/-- The magnitude code that roundTiesToEven gives for `m * 2^e`, the range unbounded above. -/
def FloatSpec.rneCode (sp : FloatSpec) (m : Nat) (e : Int) : Nat :=
  if m = 0 then 0
  else
    let q := sp.quantum m e
    let (lo, rem, k) := splitAt m e q
    sp.code (if roundsUp lo rem k then lo + 1 else lo) q

/-- The sign bit of an encoding, in place. -/
def FloatSpec.signBit (sp : FloatSpec) (neg : Bool) : Nat := if neg then 2 ^ sp.magBits else 0

/-- A value whose exact magnitude is `m * 2^e` plus something below its last bit when `sticky`, rounded to binary64;
the second component says that a finite value overflowed. -/
def to64 (neg : Bool) (m : Nat) (e : Int) (sticky : Bool := false) : Word × Bool :=
  let c := if sticky then spec64.rneCode (2 * m + 1) (e - 1) else spec64.rneCode m e
  if spec64.maxCode < c then (BitVec.ofNat 64 (spec64.signBit neg + 0x7FF0_0000_0000_0000), true)
  else (BitVec.ofNat 64 (spec64.signBit neg + c), false)

/-- The canonical binary64 NaN (R61, R63). -/
def nan64 : Word := 0x7FF8_0000_0000_0000

/-- The binary64 infinities. -/
def inf64 (neg : Bool) : Word := if neg then 0xFFF0_0000_0000_0000 else 0x7FF0_0000_0000_0000

/-- The binary64 zeros. -/
def zero64 (neg : Bool) : Word := if neg then 0x8000_0000_0000_0000 else 0

/-- Exact decoding of a binary64 word. -/
def val64 (w : Word) : FV := spec64.decode w.toNat

/-- Whether a binary64 word is a NaN encoding. -/
def isNan64 (w : Word) : Bool := val64 w == .nan

/-- Whether a binary64 word is an infinity. -/
def isInf64 (w : Word) : Bool := val64 w == .inf false || val64 w == .inf true

/-- Whether a binary64 word is finite. -/
def isFin64 (w : Word) : Bool := !isNan64 w && !isInf64 w

/-- A signed integer of magnitude as a pair. -/
def signed (neg : Bool) (m : Nat) : Int := if neg then -(m : Int) else (m : Int)

/-- The exact sum of two finite dyadic values, rounded; an exact zero is +0 unless both terms are -0 (R81, clause 6.3). -/
def sumFin (n1 : Bool) (m1 : Nat) (e1 : Int) (n2 : Bool) (m2 : Nat) (e2 : Int) : Bool × Nat × Int :=
  let e := min e1 e2
  let s := signed n1 (m1 * 2 ^ (e1 - e).toNat) + signed n2 (m2 * 2 ^ (e2 - e).toNat)
  if s = 0 then (n1 && n2, 0, e) else (decide (s < 0), s.natAbs, e)

/-- The binary64 addition of R90, with its overflow mark. -/
def add64f (a b : Word) : Word × Bool :=
  match val64 a, val64 b with
  | .nan, _ => (nan64, false)
  | _, .nan => (nan64, false)
  | .inf x, .inf y => (if x = y then inf64 x else nan64, false)
  | .inf x, _ => (inf64 x, false)
  | _, .inf y => (inf64 y, false)
  | .fin n1 m1 e1, .fin n2 m2 e2 =>
    let (n, m, e) := sumFin n1 m1 e1 n2 m2 e2
    if m = 0 then (zero64 n, false) else to64 n m e

/-- The binary64 addition of R90. -/
def add64 (a b : Word) : Word := (add64f a b).1

/-- The sign bit flipped (NEG of R157). -/
def neg64 (a : Word) : Word := a ^^^ 0x8000_0000_0000_0000

/-- binary64 subtraction. -/
def sub64f (a b : Word) : Word × Bool := if isNan64 b then (nan64, false) else add64f a (neg64 b)

/-- binary64 multiplication. -/
def mul64f (a b : Word) : Word × Bool :=
  match val64 a, val64 b with
  | .nan, _ => (nan64, false)
  | _, .nan => (nan64, false)
  | .inf x, .inf y => (inf64 (x != y), false)
  | .inf x, .fin y m _ => (if m = 0 then nan64 else inf64 (x != y), false)
  | .fin x m _, .inf y => (if m = 0 then nan64 else inf64 (x != y), false)
  | .fin n1 m1 e1, .fin n2 m2 e2 =>
    if m1 * m2 = 0 then (zero64 (n1 != n2), false) else to64 (n1 != n2) (m1 * m2) (e1 + e2)

/-- What a fusedMultiplyAdd finds before its one rounding. -/
inductive FmaRes where
  | nan (invalid : Bool)
  | inf (neg : Bool)
  | exact (neg : Bool) (m : Nat) (e : Int)
  deriving DecidableEq, Repr

/-- The exact fusedMultiplyAdd of decoded values; `invalid` as R81 (clause 7.2) raises it. -/
def fmaExact (a b c : FV) : FmaRes :=
  match a, b with
  | .nan, _ => .nan false
  | _, .nan => .nan false
  | .inf x, .inf y => addInf (x != y) c
  | .inf x, .fin y m _ => if m = 0 then .nan true else addInf (x != y) c
  | .fin x m _, .inf y => if m = 0 then .nan true else addInf (x != y) c
  | .fin n1 m1 e1, .fin n2 m2 e2 =>
    match c with
    | .nan => .nan false
    | .inf z => .inf z
    | .fin n3 m3 e3 =>
      let (n, m, e) := sumFin (n1 != n2) (m1 * m2) (e1 + e2) n3 m3 e3
      .exact n m e
where
  addInf (p : Bool) : FV → FmaRes
    | .nan => .nan false
    | .inf z => if p = z then .inf p else .nan true
    | .fin _ _ _ => .inf p

/-- binary64 fusedMultiplyAdd. -/
def fma64f (a b c : Word) : Word × Bool :=
  match fmaExact (val64 a) (val64 b) (val64 c) with
  | .nan _ => (nan64, false)
  | .inf n => (inf64 n, false)
  | .exact n m e => if m = 0 then (zero64 n, false) else to64 n m e

/-- What an operation reports beside its value: an overflow of a finite source, and a division by zero. -/
structure FRes where
  val : Word
  ovf : Bool := false
  divz : Bool := false
  deriving DecidableEq, Repr

/-- binary64 division, correctly rounded; finite nonzero over zero gives an infinity and DIVZERO (R157). -/
def div64 (a b : Word) : FRes :=
  match val64 a, val64 b with
  | .nan, _ => ⟨nan64, false, false⟩
  | _, .nan => ⟨nan64, false, false⟩
  | .inf _, .inf _ => ⟨nan64, false, false⟩
  | .inf x, .fin y _ _ => ⟨inf64 (x != y), false, false⟩
  | .fin x _ _, .inf y => ⟨zero64 (x != y), false, false⟩
  | .fin n1 m1 e1, .fin n2 m2 e2 =>
    if m2 = 0 then
      if m1 = 0 then ⟨nan64, false, false⟩ else ⟨inf64 (n1 != n2), false, true⟩
    else if m1 = 0 then ⟨zero64 (n1 != n2), false, false⟩
    else
      let k := 66 + Nat.log2 m2
      let num := m1 * 2 ^ k
      let r := to64 (n1 != n2) (num / m2) (e1 - e2 - (k : Int)) (decide (num % m2 ≠ 0))
      ⟨r.1, r.2, false⟩

/-- The integer square root of `n`, by bits from position `b` down. -/
def isqrtBits (n : Nat) : Nat → Nat → Nat
  | 0, r => if (r + 1) * (r + 1) ≤ n then r + 1 else r
  | b + 1, r =>
    let t := r + 2 ^ (b + 1)
    isqrtBits n b (if t * t ≤ n then t else r)

/-- floor(sqrt n). -/
def isqrt (n : Nat) : Nat := isqrtBits n (Nat.log2 n / 2 + 1) 0

/-- `m * 2^e` rewritten with an even exponent and at least 130 bits. -/
def evenScale (m : Nat) (e : Int) : Nat × Int :=
  let k := 130 - Nat.log2 m
  let k := if (e - (k : Int)) % 2 = 0 then k else k + 1
  (m * 2 ^ k, e - (k : Int))

/-- binary64 square root, correctly rounded (R157: -0 gives -0; a < 0 gives NaN). -/
def sqrt64 (a : Word) : FRes :=
  match val64 a with
  | .nan => ⟨nan64, false, false⟩
  | .inf n => ⟨if n then nan64 else inf64 false, false, false⟩
  | .fin n m e =>
    if m = 0 then ⟨zero64 n, false, false⟩
    else if n then ⟨nan64, false, false⟩
    else
      let (m', e') := evenScale m e
      let r := isqrt m'
      ⟨(to64 false r (e' / 2) (decide (r * r ≠ m'))).1, false, false⟩

/-- 1 / sqrt a, correctly rounded (R157: zeros give infinities with DIVZERO; +inf gives +0; a < 0 gives NaN). -/
def rsqrt64 (a : Word) : FRes :=
  match val64 a with
  | .nan => ⟨nan64, false, false⟩
  | .inf n => ⟨if n then nan64 else zero64 false, false, false⟩
  | .fin n m e =>
    if m = 0 then ⟨inf64 n, false, true⟩
    else if n then ⟨nan64, false, false⟩
    else
      let (m', e') := evenScale m e
      let t := 80 + Nat.log2 m'
      let r := isqrt (2 ^ (2 * t) / m')
      ⟨(to64 false r (-(e' / 2) - (t : Int)) (decide (r * r * m' ≠ 2 ^ (2 * t)))).1, false, false⟩

/-- An order key of binary64 words that are no NaN, with -0 equal to +0 (CMPLT of R157). -/
def cmpKey (w : Word) : Int := signed (bitAt w 63) (w.toNat % 2 ^ 63)

/-- An order key of binary64 words that are no NaN, with -0 below +0 (R140, MAX of R157). -/
def ordKey (w : Word) : Int := if bitAt w 63 then -((w.toNat % 2 ^ 63 : Nat) : Int) - 1 else ((w.toNat % 2 ^ 63 : Nat) : Int)

/-- A decoded value as a binary64 word; exact for every value of R61 and R64 (R72). -/
def fvTo64 : FV → Word
  | .nan => nan64
  | .inf n => inf64 n
  | .fin n m e => if m = 0 then zero64 n else (to64 n m e).1

/-- The binary64 one. -/
def one64 : Word := 0x3FF0_0000_0000_0000

/-- The exact binary64 word of a natural number below 2^53. -/
def nat64 (n : Nat) : Word := if n = 0 then 0 else (to64 false n 0).1

/-- The sticky flags of strict mode (R81): invalid, overflow, underflow, inexact. -/
structure StrictFlags where
  invalid : Bool := false
  overflow : Bool := false
  underflow : Bool := false
  inexact : Bool := false
  deriving DecidableEq, Repr

/-- One strict-mode fusedMultiplyAdd on binary32 encodings (R80, R81), tininess judged after rounding. -/
def fma32 (a b c : Nat) : Nat × StrictFlags :=
  match fmaExact (spec32.decode a) (spec32.decode b) (spec32.decode c) with
  | .nan inv => (0x7FC0_0000, { invalid := inv })
  | .inf n => (spec32.signBit n + 0x7F80_0000, {})
  | .exact n m e =>
    if m = 0 then (spec32.signBit n, {})
    else
      let q := spec32.quantum m e
      let (_, rem, _) := splitAt m e q
      let inexact := decide (rem ≠ 0)
      let c := spec32.rneCode m e
      if spec32.maxCode < c then (spec32.signBit n + 0x7F80_0000, { overflow := true, inexact := true })
      else
        let q1 := (Nat.log2 m : Int) + e - 23
        let (lo1, rem1, k1) := splitAt m e q1
        let n1 := if roundsUp lo1 rem1 k1 then lo1 + 1 else lo1
        let tiny := decide ((Nat.log2 n1 : Int) + q1 < -126)
        (spec32.signBit n + c, { underflow := tiny && inexact, inexact := inexact })

end Sys2Proof.Machine
end

