-- ==== Sys2Proof/Machine/Formats.lean ====
section
/-!
DEFINITION. Number formats: the format codes of R60, microscaling blocks (R64-R67), the conversion control word (R71),
rounding to a target (R72-R76) and the Philox draw (R77, R78).
-/

namespace Sys2Proof.Machine

/-- A legal format code (R60: codes 0xC to 0xF are reserved). -/
def fmtLegal (f : Nat) : Bool := decide (f ≤ 0xB)

/-- Whether a format carries block scales (R60). -/
def fmtIsMx (f : Nat) : Bool := decide (4 ≤ f) && decide (f ≤ 8)

/-- Element bits of a format (R60). -/
def fmtBits (f : Nat) : Nat :=
  match f with
  | 0 => 16 | 1 => 16 | 2 => 8 | 3 => 8 | 4 => 8 | 5 => 8 | 6 => 6 | 7 => 6 | 8 => 4 | 9 => 8 | 10 => 32 | 11 => 64
  | _ => 8

/-- The element encoding of a floating-point format (R61); none for INT8. -/
def fmtSpec (f : Nat) : Option FloatSpec :=
  match f with
  | 0 => some specB16 | 1 => some specF16 | 2 => some specE4M3 | 3 => some specE5M2 | 4 => some specE4M3
  | 5 => some specE5M2 | 6 => some specE3M2 | 7 => some specE2M3 | 8 => some specE2M1 | 10 => some spec32
  | 11 => some spec64 | _ => none

/-- The exponent of the largest normal of an MX element format (R75). -/
def mxEmax (f : Nat) : Int :=
  match f with
  | 4 => 8 | 5 => 15 | 6 => 4 | 7 => 2 | _ => 2

/-- Bytes of element data in one 32 x 32 tile (R67). -/
def tileDataBytes (f : Nat) : Nat := 128 * fmtBits f

/-- Bytes of one 32 x 32 tile, scale bytes included (R67). -/
def tileBytes (f : Nat) : Nat := tileDataBytes f + (if fmtIsMx f then 32 else 0)

/-- The two's complement value of an INT8 element (R68). -/
def int8Val (b : Nat) : Int := if b % 256 < 128 then ((b % 256 : Nat) : Int) else ((b % 256 : Nat) : Int) - 256

/-- Exact decoding of an element with its block scale byte (R61, R64, R68, R72); the scale is ignored outside MX. -/
def decodeElem (f bits scale : Nat) : FV :=
  match fmtSpec f with
  | none => let v := int8Val bits; .fin (decide (v < 0)) v.natAbs 0
  | some sp =>
    if fmtIsMx f then
      if scale = 0xFF then .nan
      else
        match sp.decode bits with
        | .fin n m e => .fin n m (e + (scale : Int) - 127)
        | v => v
    else sp.decode bits

/-- Flags of a conversion (R73, R74). -/
structure CvtFlags where
  ovf : Bool := false
  nan : Bool := false
  deriving DecidableEq, Repr

/-- The union of two sets of conversion flags. -/
def CvtFlags.or (a b : CvtFlags) : CvtFlags := ⟨a.ovf || b.ovf, a.nan || b.nan⟩

/-- The fields of a conversion control word (R71). -/
structure Cvt where
  fmt : Nat
  blkax : Nat
  rnd : Bool
  sat : Bool
  seq : Nat
  deriving DecidableEq, Repr

/-- Reads a conversion control word from the low 32 bits of a parameter word (R71). -/
def cvtOf (w : Word) : Cvt :=
  ⟨fld w 3 0, fld w 8 8, bitAt w 10, bitAt w 11, fld w 31 16⟩

/-- Whether a conversion control word is acceptable at load (R71). -/
def cvtLegal (w : Word) : Bool := fld w 15 12 == 0 && fld w 9 9 == 0 && fld w 7 4 == 0 && fmtLegal (fld w 3 0)

/-- d of R76: the discarded fraction of a target step, truncated to 32 bits. -/
def discarded (rem k : Nat) : Nat := rem * 2 ^ 32 / 2 ^ k

/-- Chooses between `lo` and the next value away from zero (R72, R76). -/
def chooseStep (rnd : Bool) (r : BitVec 32) (lo rem k : Nat) : Nat :=
  if rnd then (if r.toNat < discarded rem k then lo + 1 else lo)
  else if roundsUp lo rem k then lo + 1 else lo

/-- Resolves an overflow of a floating-point target (R73): the magnitude code written. -/
def overflowMag (sp : FloatSpec) (mx sat : Bool) : Nat :=
  match sp.infCode with
  | none => sp.maxCode
  | some i => if mx || sat then sp.maxCode else i

/-- Rounds a finite value to a floating-point element (R72, R73). -/
def roundFloat (sp : FloatSpec) (mx rnd sat : Bool) (r : BitVec 32) (neg : Bool) (m : Nat) (e : Int) : Nat × CvtFlags :=
  if m = 0 then (sp.signBit neg, {})
  else
    let q := sp.quantum m e
    let (lo, rem, k) := splitAt m e q
    let c := sp.code (chooseStep rnd r lo rem k) q
    if sp.maxCode < c then (sp.signBit neg + overflowMag sp mx sat, { ovf := true })
    else (sp.signBit neg + c, {})

/-- Rounds a finite value to INT8 (R72, R73). -/
def roundInt8 (rnd : Bool) (r : BitVec 32) (neg : Bool) (m : Nat) (e : Int) : Nat × CvtFlags :=
  let (lo, rem, k) := splitAt m e 0
  let n := chooseStep rnd r lo rem k
  if neg then (if 128 < n then (0x80, { ovf := true }) else ((256 - n) % 256, {}))
  else (if 127 < n then (0x7F, { ovf := true }) else (n, {}))

/-- Converts one decoded value to a target without block scales (R72-R74). -/
def cvtElem (c : Cvt) (r : BitVec 32) (x : FV) : Nat × CvtFlags :=
  match fmtSpec c.fmt with
  | none =>
    match x with
    | .nan => (0, { nan := true })
    | .inf n => (if n then 0x80 else 0x7F, { ovf := true })
    | .fin n m e => roundInt8 c.rnd r n m e
  | some sp =>
    match x with
    | .nan => (sp.nanCode.getD 0, { nan := true })
    | .inf n =>
      match sp.infCode with
      | some i => (sp.signBit n + i, {})
      | none => (sp.nanCode.getD 0, { nan := true })
    | .fin n m e => roundFloat sp false c.rnd c.sat r n m e

/-- floor(log2 |x|) of a finite nonzero value; none for zero. -/
def FV.log2? : FV → Option Int
  | .fin _ m e => if m = 0 then none else some ((Nat.log2 m : Int) + e)
  | _ => none

/-- Whether a decoded value is finite. -/
def FV.isFin : FV → Bool
  | .fin _ _ _ => true
  | _ => false

/-- The largest of a list of optional exponents. -/
def maxLog (l : List (Option Int)) : Option Int :=
  l.foldl (fun a b => match a, b with
    | none, y => y
    | x, none => x
    | some x, some y => some (max x y)) none

/-- The scale exponent of a block whose elements are finite (R75). -/
def mxScaleExp (f : Nat) (xs : List FV) : Int :=
  match maxLog (xs.map FV.log2?) with
  | none => -127
  | some l => max (-127) (min 127 (l - mxEmax f))

/-- Converts one block to an MX target: scale byte, element codes and flags (R73-R75). -/
def cvtBlock (c : Cvt) (xs : List (FV × BitVec 32)) : Nat × List Nat × CvtFlags :=
  if (xs.any fun x => !x.1.isFin) then (0xFF, xs.map (fun _ => 0), { nan := true })
  else
    let X := mxScaleExp c.fmt (xs.map (·.1))
    let sp := (fmtSpec c.fmt).getD specE4M3
    let rs := xs.map (fun x => match x.1 with
      | .fin n m e => roundFloat sp true c.rnd c.sat x.2 n m (e - X)
      | _ => (0, {}))
    ((X + 127).toNat, rs.map (·.1), rs.foldl (fun a r => a.or r.2) {})

/-- One round of Philox4x32 (R78). -/
def philoxRound (c : BitVec 32 × BitVec 32 × BitVec 32 × BitVec 32) (k0 k1 : BitVec 32) :
    BitVec 32 × BitVec 32 × BitVec 32 × BitVec 32 :=
  let (c0, c1, c2, c3) := c
  let p0 := 0xD2511F53 * c0.toNat
  let p1 := 0xCD9E8D57 * c2.toNat
  (BitVec.ofNat 32 (p1 / 2 ^ 32) ^^^ c1 ^^^ k0, BitVec.ofNat 32 p1,
   BitVec.ofNat 32 (p0 / 2 ^ 32) ^^^ c3 ^^^ k1, BitVec.ofNat 32 p0)

/-- `n` rounds, the key bumped before every round but the first (R78). -/
def philoxRounds : Nat → BitVec 32 × BitVec 32 × BitVec 32 × BitVec 32 → BitVec 32 → BitVec 32 →
    BitVec 32 × BitVec 32 × BitVec 32 × BitVec 32
  | 0, c, _, _ => c
  | n + 1, c, k0, k1 => philoxRounds n (philoxRound c k0 k1) (k0 + 0x9E3779B9) (k1 + 0xBB67AE85)

/-- Philox4x32-10 (R78). -/
def philox (c : BitVec 32 × BitVec 32 × BitVec 32 × BitVec 32) (k0 k1 : BitVec 32) :
    BitVec 32 × BitVec 32 × BitVec 32 × BitVec 32 := philoxRounds 10 c k0 k1

/-- The key of a draw: JOB_ID xor the step number (R77). -/
structure DrawKey where
  job : Word
  step : Step
  tensor : Nat
  deriving DecidableEq, Repr

/-- The draw of an element, with counter word c3 given (R77, R159). -/
def drawWith (k : DrawKey) (row col c3 : Nat) : BitVec 32 :=
  let key := k.job ^^^ stepWord k.step
  let out := philox (BitVec.ofNat 32 (col / 4), BitVec.ofNat 32 row, BitVec.ofNat 32 k.tensor, BitVec.ofNat 32 c3)
    (key.truncate 32) ((key >>> 32).truncate 32)
  match col % 4 with
  | 0 => out.1
  | 1 => out.2.1
  | 2 => out.2.2.1
  | _ => out.2.2.2

/-- The draw of stochastic rounding (R77): c3 holds ROUND_SEQ. -/
def draw (k : DrawKey) (row col seq : Nat) : BitVec 32 := drawWith k row col (seq % 2 ^ 16)

/-- The value RAND returns (R159): c3 holds SEQ and 0x0001 above it. -/
def randVal (k : DrawKey) (row col seq : Nat) : Word :=
  let w := (drawWith k row col (seq % 2 ^ 16 + 2 ^ 16)).toNat
  if w = 0 then 0 else (to64 false w (-32)).1

end Sys2Proof.Machine
end

