-- ==== Sys2Proof/Machine/SMap.lean ====
section
/-!
DEFINITION. Sparse maps from natural-number keys in one canonical form: keys strictly rising, and no entry equal to
what an unlisted key reads as. Registers, memories and every per-unit record of the machine are held this way.
-/

namespace Sys2Proof.Machine

/-- A sparse map: the listed entries of a map whose other keys read as a default. -/
abbrev SMap (β : Type) := List (Nat × β)

/-- The value at a key; `d` gives what an unlisted key reads as. -/
def SMap.get {β : Type} (d : Nat → β) : SMap β → Nat → β
  | [], k => d k
  | (j, v) :: m, k => if j = k then v else SMap.get d m k

/-- Removes a key. -/
def SMap.drop {β : Type} : SMap β → Nat → SMap β
  | [], _ => []
  | (j, v) :: m, k => if j = k then m else (j, v) :: SMap.drop m k

/-- Places an entry at its sorted position, replacing an entry with the same key. -/
def SMap.put {β : Type} : SMap β → Nat → β → SMap β
  | [], k, v => [(k, v)]
  | (j, w) :: m, k, v =>
    if k < j then (k, v) :: (j, w) :: m
    else if k = j then (k, v) :: m
    else (j, w) :: SMap.put m k v

/-- Writes a value; writing what an unlisted key reads as removes the entry. -/
def SMap.set {β : Type} [DecidableEq β] (d : Nat → β) (m : SMap β) (k : Nat) (v : β) : SMap β :=
  if v = d k then SMap.drop m k else SMap.put m k v

/-- Keys strictly rising, each above `lo`, and no entry equal to its default. -/
def SMap.wfFrom {β : Type} [DecidableEq β] (d : Nat → β) : Option Nat → SMap β → Bool
  | _, [] => true
  | lo, (k, v) :: m =>
    (match lo with
      | none => true
      | some l => decide (l < k)) && decide (v ≠ d k) && SMap.wfFrom d (some k) m

/-- The canonical form. -/
def SMap.wf {β : Type} [DecidableEq β] (d : Nat → β) (m : SMap β) : Bool := SMap.wfFrom d none m

/-- Removes every listed key of the half-open range. -/
def SMap.clear {β : Type} (m : SMap β) (lo hi : Nat) : SMap β :=
  m.filter (fun p => !(decide (lo ≤ p.1) && decide (p.1 < hi)))

/-- The listed entries of the half-open range. -/
def SMap.slice {β : Type} (m : SMap β) (lo hi : Nat) : SMap β :=
  m.filter (fun p => decide (lo ≤ p.1) && decide (p.1 < hi))

/-- Writes a run of values at consecutive keys. -/
def SMap.setRun {β : Type} [DecidableEq β] (d : Nat → β) : SMap β → Nat → List β → SMap β
  | m, _, [] => m
  | m, k, v :: vs => SMap.setRun d (SMap.set d m k v) (k + 1) vs

/-- Reads a run of consecutive keys. -/
def SMap.getRun {β : Type} (d : Nat → β) (m : SMap β) (k n : Nat) : List β :=
  (List.range n).map (fun i => SMap.get d m (k + i))

/-- Merges two sorted lists, the first one's elements ahead of equal ones of the second; `n` is their length together. -/
def mergeBy {α : Type} (le : α → α → Bool) : Nat → List α → List α → List α
  | 0, xs, ys => xs ++ ys
  | _ + 1, [], ys => ys
  | _ + 1, xs, [] => xs
  | n + 1, x :: xs, y :: ys => if le x y then x :: mergeBy le n xs (y :: ys) else y :: mergeBy le n (x :: xs) ys

/-- Merges neighbouring lists in pairs. -/
def mergePairs {α : Type} (le : α → α → Bool) : List (List α) → List (List α)
  | x :: y :: r => mergeBy le (x.length + y.length) x y :: mergePairs le r
  | l => l

/-- `n` rounds of merging. -/
def mergeRounds {α : Type} (le : α → α → Bool) : Nat → List (List α) → List (List α)
  | 0, l => l
  | n + 1, l => mergeRounds le n (mergePairs le l)

/-- A list in the order of `le`; equal elements keep their order. -/
def sortBy {α : Type} (le : α → α → Bool) (l : List α) : List α := (mergeRounds le l.length (l.map (fun x => [x]))).flatten

/-- A sorted set of natural numbers: inserts a member. -/
def NSet.add : List Nat → Nat → List Nat
  | [], k => [k]
  | j :: m, k => if k < j then k :: j :: m else if k = j then j :: m else j :: NSet.add m k

/-- A sorted set of natural numbers: removes a member. -/
def NSet.del (m : List Nat) (k : Nat) : List Nat := m.filter (fun j => decide (j ≠ k))

end Sys2Proof.Machine
end

