-- ==== Sys2Proof/Machine/State.lean ====
section
/-!
DEFINITION. The machine's state: everything the spec gives the module, as plain data, and its value right after reset.
Registers of every page live in one sparse map by address; what no register shows is held in the groups below.
-/

namespace Sys2Proof.Machine

/-! ## Small shared records -/

/-- One lane's result of a chunk: the 24-bit sum, the window top, and whether the g = 5 repeat was taken (R87, R88). -/
structure LaneResult where
  sum : Int
  top : Int
  repeated : Bool
  /-- 0 a finite chunk value, 1 NaN, 2 +inf, 3 -inf (R89), 4 a strict-mode accumulator: `sum` is its binary32 code. -/
  special : Nat := 0
  /-- What an upset added to the promoted value (R301); 0 when sound. -/
  promo : Nat := 0
  deriving DecidableEq, Repr

/-- An accumulator-buffer entry: its binary64 value and whether it is still unwritten (R47). -/
structure AccEntry where
  val : Word := 0
  unwritten : Bool := false
  deriving DecidableEq, Repr

/-! ## Plans and slots (chapters 2, 6, 7) -/

/-- The shadow set's states (R53). -/
inductive ShadowState where
  | empty
  | loading
  | ready
  | pending
  | locked
  | rejected
  deriving DecidableEq, Repr

/-- A swap request (R54 to R56, R345). -/
structure SwapReq where
  /-- Generation asked for. -/
  gen : Nat
  /-- Boundary N. -/
  n : Nat
  /-- REASON of R340 once the module has cancelled it, not yet decided by a seal wave. -/
  cancel : Nat := 0
  /-- The announcement has been carried by a seal wave. -/
  announced : Bool := false
  deriving DecidableEq, Repr

/-- The plan sets beyond their registers. -/
structure PlanState where
  shadow : ShadowState := .empty
  /-- SHADOW_GEN opened by PLN_LOAD.BEGIN. -/
  shadowGen : Nat := 0
  activeGen : Nat := 0
  /-- Bytes held of shadow images: key slot * 2^28 + offset, value 1 when held (R279). -/
  held : SMap Nat := []
  /-- Slots whose shadow image is complete and checked, with the recorded digest (R51). -/
  checked : SMap (List Byte) := []
  /-- Slots of the active set with their digests. -/
  active : SMap (List Byte) := []
  /-- Plan images of link and hub slots: key set * 2^34 + slot * 2^28 + offset (R48). -/
  store : SMap Byte := []
  /-- Frozen list of the load and of the active set: key set * 2^34 + offset, value 1 + byte (R149). -/
  frozen : SMap Nat := []
  /-- Bytes held of a route image: key offset, value 1 + byte (R279). -/
  route : SMap Nat := []
  swap : Option SwapReq := none
  /-- Highest offset held per slot plus one, to see bytes at or beyond IMAGE_LEN. -/
  reach : SMap Nat := []
  /-- A plan set has been committed since module reset (R295). -/
  committed : Bool := false
  /-- Steps from which on the active generation runs: boundary of the last swap. -/
  since : Step := 0
  /-- Generations wanted again through PLAN_RELOAD: slot numbers whose reload is asked for (R52). -/
  reload : List Nat := []
  /-- The generation asked for, and the recorded digests of every generation the job has run (R52, R382). -/
  reloadGen : Nat := 0
  past : List (Nat × SMap (List Byte)) := []
  /-- Armed and pending pages: key die * 2^8 + block, value N + 1 (R487, R488). -/
  armed : SMap Nat := []
  /-- Active translations that wait for their slot to open a new step: slot, first step that takes the entry, entry (R35,
  R57). -/
  xlatDue : List (Nat × Step × Word) := []
  /-- Slots whose images wait to be laid down in a new stack, and those images: key slot * 2^28 + offset (R48). -/
  carrying : List Nat := []
  carried : SMap Byte := []
  deriving DecidableEq, Repr

/-- What an op is doing (R40, R41). -/
inductive OpPhase where
  | idle
  /-- Its waits are registered and not all released. -/
  | waiting
  /-- Started: its body runs piece by piece. -/
  | running
  /-- Its last output is written; completion is due. -/
  | computed
  | done
  deriving DecidableEq, Repr

/-- One item of a work list dealt to an engine (R175). -/
structure WorkItem where
  index : Nat
  /-- The engine in whose sublist the item lies, or which has taken it. -/
  engine : Nat
  /-- Place in the sublist: lower is nearer the head. -/
  ord : Nat := 0
  taken : Bool := false
  finished : Bool := false
  retried : Bool := false
  deriving DecidableEq, Repr

/-- The state of one lane of the row reduction unit at a position boundary (R143): n, mean, M2, the fold accumulator and the
winner pair. -/
structure RowLane where
  n : Word
  mean : Word
  m2 : Word
  acc : Word
  best : Word
  idx : Nat
  deriving DecidableEq, Repr

/-- The run of one op in the open step. -/
structure OpRun where
  phase : OpPhase := .idle
  /-- Flag word gathered so far (R113, R142, R162, R174). -/
  flags : Nat := 0
  /-- Which of its sync references have been released: bit per reference. -/
  released : Nat := 0
  /-- Which WAIT references have been registered: bit per reference. -/
  registered : Nat := 0
  /-- Work items of an engine op, or tile rows of a vector op. -/
  items : List WorkItem := []
  /-- Row-chunks already promoted: key row * 2^20 + column tile * 2^10 + next chunk, value count (R100). -/
  chunks : SMap Nat := []
  /-- Times a unit of work was executed again (R303). -/
  reexec : Nat := 0
  /-- The op outlived its budget (R41). -/
  overrun : Bool := false
  /-- The op's result word, for XREP VERIFY (R310). -/
  result : Nat := 0
  /-- First strand of a vector op's groups (R153). -/
  base : Nat := 0
  /-- Where a context switch found a class-0x02 op: its group of 32 rows, the position, and its lanes (R143). -/
  rowAt : Nat × Nat := (0, 0)
  lanes : List RowLane := []
  deriving DecidableEq, Repr

/-- The accumulator context of a core saved to its save area (R120). -/
structure SavedCtx where
  acc : SMap AccEntry
  sid : Nat
  op : Nat
  /-- COR_FLAGS, COR_RAMP and where the ramp stands. -/
  flags : Word := 0
  rampReg : Word := 0
  ramp : Nat := 0
  /-- The position of every op in progress: its index and run (R120, R143, R164). -/
  runs : List (Nat × OpRun) := []
  deriving DecidableEq, Repr

/-- Where a slot stands (R330, R332). -/
inductive SlotPhase where
  | idle
  | opened
  | computed
  | replaying
  deriving DecidableEq, Repr

structure SlotRun where
  phase : SlotPhase := .idle
  /-- The step opened last. -/
  step : Step := -1
  /-- Newest boundary passed. -/
  passed : Step := -1
  /-- Generation the open step runs with. -/
  gen : Nat := 0
  ops : SMap OpRun := []
  /-- Replays of the open step so far (R350). -/
  replays : Nat := 0
  /-- Newest step that was open before the slot went back: the steps up to it are reopened (R349); -2 for none. -/
  redo : Step := -2
  /-- The partition has stopped issuing (R392). -/
  stopped : Bool := false
  /-- Code and op of the fault that raised the last replay (R47, R273, R311). -/
  lastFault : Option (Nat × Nat) := none
  /-- Slot is refused (R42). -/
  refused : Bool := false
  /-- The slot is to move to a spare at its next step boundary (R42). -/
  moveDue : Bool := false
  /-- Boundaries passed since migration finished, and whether it has (R385). -/
  migrated : Bool := false
  /-- Steps opened since migration began. -/
  sinceMig : Nat := 0
  /-- The partition of a spare substitution is under way. -/
  substituting : Bool := false
  /-- A reset of the slot's die has begun since the slot-step became REPLAYING (R354). -/
  resetBegun : Bool := false
  /-- The slot's FROZEN tensors agreed with the frozen list at the last opening that checked them (R150). -/
  frozenOk : Bool := false
  deriving DecidableEq, Repr

/-! ## Sync objects (chapter 10) -/

inductive SyncPhase where
  | idle
  | armed
  | complete
  | done
  | held
  deriving DecidableEq, Repr

/-- A waiter: the waiting slot, op, and the position of its reference. -/
structure Waiter where
  sid : Nat
  op : Nat
  ref : Nat
  gen : Nat
  step : Step
  deriving DecidableEq, Repr

/-- A child of a tree node: its release reference and SRC_GEN (R268). -/
structure NodeChild where
  module : Nat
  ref : Nat
  /-- Slot whose die holds a local release object; 64 for a node of another module. -/
  sid : Nat
  gen : Nat
  deriving DecidableEq, Repr

structure SyncObj where
  phase : SyncPhase := .idle
  /-- KIND: true for DATA. -/
  data : Bool := false
  gen : Nat := 0
  waiters : Nat := 0
  count : Nat := 0
  arrivals : Nat := 0
  reserved : Nat := 0
  /-- Entry of the sync table (R261), read when the slot opened the step. -/
  target : Nat := 0
  p : Nat := 0
  c : Nat := 0
  gens : Nat := 0
  parentModule : Nat := 0
  parentNode : Nat := 0
  /-- Generations completed in the open step. -/
  finished : Nat := 0
  /-- Slot that armed it. -/
  sid : Nat := 64
  registered : List Waiter := []
  children : List NodeChild := []
  /-- A deferral decision of the open step: 0 none, 1 DROP or ADD_NEXT in force, 2 decision awaited (R356, R358). -/
  deferral : Nat := 0
  deriving DecidableEq, Repr

/-- A parked arrival (R266). -/
structure Parked where
  obj : Nat
  step : Step
  gen : Nat
  amount : Nat
  isData : Bool
  /-- The message whose data waits in the early buffer, if any. -/
  msg : Option Msg
  die : Nat
  child : Option NodeChild
  deriving DecidableEq, Repr

/-- A recorded delivery between dies of the module (R352). -/
structure Delivery where
  src : Nat
  obj : Nat
  step : Step
  gen : Nat
  amount : Nat
  /-- Amount that a replaying source has still to deliver again before more is counted. -/
  credit : Nat := 0
  deriving DecidableEq, Repr

structure SyncState where
  /-- Objects: key die * 2^13 + scope part (core * 48 + n, 256 + n, 512 + n). -/
  objs : SMap SyncObj := []
  parked : List Parked := []
  deliveries : List Delivery := []
  deriving DecidableEq, Repr

/-! ## Messages between modules (chapter 10) -/

/-- The receiving or sending pair state of VC.3 (R252). -/
structure PairState where
  epoch : Nat := 0
  next : Nat := 0
  /-- Early messages with the link die that holds each. -/
  early : List (Nat × Msg) := []
  sendNext : Nat := 0
  deriving DecidableEq, Repr

/-- A segment on its way (R44, R246). -/
structure Segment where
  msg : Msg
  sid : Nat
  op : Nat
  /-- Waiting for a resend after RETRY. -/
  retry : Bool := false
  done : Bool := false
  /-- Stream-tracker tag (R44). -/
  tag : Nat
  /-- The port by which it last left, or 63. -/
  port : Nat := 63
  deriving DecidableEq, Repr

/-- An entry of a die's stream tracker, or of a hub die's request table (R44): issuing die and unit, the op and the segment or
operand of the request, its logical target, the expected bytes, and the tag of the issuing reset domain. -/
structure Track where
  die : Nat
  unit : Nat
  sid : Nat
  op : Nat
  seg : Nat
  target : Nat
  count : Nat
  tag : Nat
  deriving DecidableEq, Repr

structure NetState where
  pairs : SMap PairState := []
  /-- Sending epoch of the module (R252). -/
  epoch : Nat := 1
  /-- Messages with no port UP: the link die and the message (R249, R250). -/
  waiting : List (Nat × Msg) := []
  segments : List Segment := []
  /-- RESEND messages held for a down-list: receiving die and message (R253). -/
  held : List (Nat × Msg) := []
  /-- Down-lists by port: entries (xfer, source module, segment). -/
  downLists : SMap (List (Nat × Nat × Nat)) := []
  /-- Messages each port accepted lately, newest last: ordinal of the last flit, then the entry (R253). -/
  accepted : SMap (List (Nat × Nat × Nat × Nat)) := []
  /-- Segments accepted for replaying receivers: source module, xfer, slot * 2^32 + segment, step (R351). -/
  seen : List (Nat × Nat × Nat × Step) := []
  /-- Entries of the stream trackers and of the hub request tables in use (R44). -/
  tracker : List Track := []
  /-- Requests that wait for an entry, oldest first, with the messages they send (R45). -/
  queued : List (Track × Msg) := []
  /-- GETs and FETCHes outstanding: slot, op, bytes still to come. -/
  fetches : List (Nat × Nat × Nat × Nat) := []
  /-- Newest tag a REPLAY notice has named: key module * 2^8 + slot (R410). -/
  tags : SMap Nat := []
  /-- Route table of the link dies: key die * 2^16 + module (R247). -/
  routes : SMap Word := []
  deriving DecidableEq, Repr

/-! ## Control port (chapter 11) -/

structure Event where
  seq : Nat
  typ : Nat
  subject : Nat
  step : Word
  arg : Word
  body : List Byte
  deriving DecidableEq, Repr

/-- What a DMA request carries out (R285). -/
structure Dma where
  tag : Nat
  port : Path
  write : Bool
  win : Nat
  off : Nat
  bytes : Nat
  data : List Byte
  sid : Nat
  op : Nat
  tries : Nat := 0
  deriving DecidableEq, Repr

/-- Stages of a pull or push (R283, R284). -/
inductive PullStage where
  | header
  | backoff
  | data
  | check
  /-- Faulted, waiting for CTL_PULL_FIX. -/
  | faulted
  | writing
  | finished
  deriving DecidableEq, Repr

structure Pull where
  sid : Nat
  op : Nat
  win : Nat
  q : Nat
  /-- Step of the op; the expected sequence number `q` follows from it. -/
  step : Step := 0
  stage : PullStage := .header
  /-- Header reads made; for a push, bytes acknowledged. -/
  reads : Nat := 0
  /-- The data has been read once and found bad (R283). -/
  second : Bool := false
  header : List Byte := []
  data : List Byte := []
  push : Bool := false
  /-- Code of the fault it ended in. -/
  code : Nat := 0
  /-- LOAD_INIT pull, not an op's (R383). -/
  init : Bool := false
  deriving DecidableEq, Repr

/-- The frame counters one pair of frame keys has seen: one past the highest, and the ranges below it not yet used (R289). -/
structure CounterUse where
  next : Nat := 0
  gaps : List (Nat × Nat) := []
  deriving DecidableEq, Repr

/-- Frame and entry keys of the confidential path (R288, R289). -/
structure Session where
  keys : List Byte
  entryKeys : List Byte
  rx : CounterUse := {}
  txc : Nat := 0
  /-- Keys before the last rekey, still accepted while `oldUntil` has not passed, and their counters. -/
  old : List Byte := []
  oldRx : CounterUse := {}
  oldUntil : Nat := 0
  deriving DecidableEq, Repr

/-- Anything the module has sent on a port or driven on a pin, oldest first. -/
inductive Sent where
  | frame (port : Path) (f : Frame)
  | flit (port : Nat) (f : Flit)
  /-- A pin or sideband signal: its name's number of `Pin` and its level. -/
  | pin (p : Pin) (v : Nat)
  | avs (die mv : Nat)
  deriving DecidableEq, Repr

structure CtlState where
  events : List Event := []
  nextEvt : Nat := 0
  lost : Nat := 0
  session : Option Session := none
  /-- The port of a key exchange begun and not completed (R288). -/
  exchange : Option Path := none
  /-- Times of frames that failed authentication, newest first (R289). -/
  fails : List Nat := []
  dma : List Dma := []
  nextTag : Nat := 0
  pulls : List Pull := []
  deriving DecidableEq, Repr

/-! ## Faults, suspects and resets (chapter 15) -/

structure FaultRec where
  cls : Nat
  escalated : Bool := false
  code : Nat
  merged : Nat := 0
  seq : Nat := 0
  die : Nat
  typ : Nat := 0
  inst : Nat := 0
  sub : Nat := 0
  step : Word := 0
  op : Nat := 0xFFFFFF
  slot : Nat := 0xFF
  eclass : Nat := 0
  tag : Nat := 1
  island : Nat := 0
  count : Nat := 0
  temp : Nat := 0
  vdd : Nat := 0
  bin : Nat := 0
  activity : Nat := 0
  detail : Word := 0
  lastCode : Nat := 0
  lastClass : Nat := 0
  module : Nat := 0xFFFF
  /-- Partition: slot number, 100 + die for an idle spare, or 999 for none (R393). -/
  part : Nat := 999
  isOpen : Bool := true
  claimed : Bool := false
  /-- Touchstone entry captured with the record (R321). -/
  entry : List Byte := []
  deriving DecidableEq, Repr

inductive FaultPair where
  | alive
  | fault
  | off
  deriving DecidableEq, Repr

/-- The reset domains of R407. -/
inductive Domain where
  | array (core a : Nat)
  | core (core : Nat)
  | stackPhy (die : Nat)
  | die (die : Nat)
  | port (p : Nat)
  | linkDie (die : Nat)
  | hub (die : Nat)
  | module
  deriving DecidableEq, Repr

/-- A collected snapshot (R406): its number, the domain, what was collected, and the free value that its bytes, as the fault
page reads them, are drawn from (their layout is not given). -/
structure Snapshot where
  num : Nat
  draw : Nat
  domain : Domain
  /-- Ops in progress: slot, OP_INDEX, where they stand; and the saved contexts of cores. -/
  ops : List (Nat × Nat × OpRun) := []
  saved : List (Nat × SavedCtx) := []
  tracker : List Track := []
  /-- Sync objects by key, and the parked arrivals. -/
  objs : SMap SyncObj := []
  parked : List Parked := []
  /-- ENG_SVC by die; occupancy of the VC queues by port, and of the die collectors by 64 + die. -/
  engines : List (Nat × Word) := []
  queues : List (Nat × List Nat) := []
  /-- The die detectors' last edges, and the suspects among the domain's ops. -/
  graph : List Edge := []
  suspects : List (Nat × Nat) := []
  /-- The open records of the domain. -/
  records : List FaultRec := []
  deriving DecidableEq, Repr

structure FaultState where
  /-- Die collectors: records not yet forwarded, oldest first, at most 32 (R396). -/
  collectors : SMap (List FaultRec) := []
  log : List FaultRec := []
  nextSeq : Nat := 0
  counts : SMap Nat := []
  pair : FaultPair := .off
  suspects : List (Nat × Nat) := []
  snapshots : List Snapshot := []
  /-- The last graph of each die's detector (R404, R406). -/
  graph : SMap (List Edge) := []
  nextSnap : Nat := 0
  hold : Bool := false
  /-- Resets in progress. -/
  resetting : List Domain := []
  /-- Resets counted against a domain (R411), and module resets (R412). -/
  resets : List (Domain × Nat) := []
  outOfService : List Domain := []
  /-- Extensions of hang-detection bounds: replay IDs seen and ms per origin module (R354). -/
  notices : List (Nat × Nat) := []
  extensions : SMap Nat := []
  nextReplay : Nat := 1
  /-- Fenced compute and hub dies (R199, R408). -/
  fenced : List Nat := []
  dross : SMap Nat := []
  /-- Generation tags of the array domains: key core * 8 + array (R409). -/
  arrTags : SMap Nat := []
  deriving DecidableEq, Repr

/-! ## Ledger and checkpoints (chapters 13, 14) -/

structure ChildReport where
  module : Nat
  gen : Nat
  count : Nat
  digest : List Byte
  swapGen : Nat := 0
  swapN : Nat := 0
  swapCode : Nat := 0
  swapReason : Nat := 0
  deriving DecidableEq, Repr

/-- States of a module-step in the order of LDG_STATE (R331). -/
inductive StepPhase where
  | opened
  | computed
  | checked
  | sealed
  | released
  | replaying
  | deferred
  deriving DecidableEq, Repr

structure StepRec where
  step : Step
  gen : Nat
  phase : StepPhase := .opened
  /-- Slots that have opened the step, computed it, or are replaying it. -/
  opened : List Nat := []
  computed : List Nat := []
  replaying : List Nat := []
  sent : Bool := false
  /-- XREP VERIFY ops of the step: slot, op, expected digest, result (R310, R342). -/
  verifies : List (Nat × Nat × List Byte × Nat) := []
  /-- PUTs not yet answered, and deferred transfers not reached. -/
  puts : List (Nat × Nat) := []
  deferred : List (Nat × Nat) := []
  /-- A carry is pending at the boundary of the step (R359). -/
  carry : Bool := false
  deriving DecidableEq, Repr

/-- A retained item (R335): slot, step, op, segment, source address, stack offset in the crucible, length. -/
structure Retained where
  sid : Nat
  step : Step
  op : Nat
  seg : Nat
  off : Nat
  len : Nat
  /-- 0 step input, 1 sender-side segment, 2 received by GET, 3 carry. -/
  kind : Nat
  msg : Option Msg := none
  /-- The hallmarks of a step input's tiles; a copy keeps the tag of its input (R306). -/
  marks : List Nat := []
  deriving DecidableEq, Repr

structure DeferEntry where
  step : Step
  gen : Nat
  sync : Nat
  dstModule : Nat
  dstSlot : Nat
  action : Nat
  seq : Nat
  deriving DecidableEq, Repr

structure LedgerState where
  recs : List StepRec := []
  /-- CHECKED reports of children that have not been withdrawn, by step (R342). -/
  reports : List (Step × ChildReport) := []
  retained : List Retained := []
  defers : List DeferEntry := []
  /-- A genesis is in progress: 0 none, 1 begun, 2 hallmarks written, 3 its seal tree failed. -/
  genesis : Nat := 0
  genesisDigest : List Byte := []
  /-- A job is in the ledger. -/
  job : Bool := false
  /-- Modules that have reported as children in the seal tree. -/
  children : List Nat := []
  /-- Own notices sent: slot, step, replay ID (R354). -/
  ownNotices : List (Nat × Step × Nat) := []
  /-- The initial set failed verification and no good set has been loaded since (R383). -/
  initBad : Bool := false
  /-- Bytes of the initial set pulled so far (R383). -/
  initSet : List Byte := []
  /-- The newest released, sealed and opened steps; -2 before any. -/
  newestReleased : Step := -2
  newestSealed : Step := -2
  newestOpened : Step := -2
  /-- The step from which a restore began, if any (R332). -/
  base : Step := -1
  active : Nat := 0
  standby : Bool := true
  /-- Boundaries at which plan generations took over, oldest first: the generation of each step (R55). -/
  swaps : List (Step × Nat) := []
  deriving DecidableEq, Repr

/-- One copy of an ingot or mirror in a bay (R370, R371). -/
structure Bay where
  tier : Nat
  step : Step
  /-- 0 free, 1 copying, 2 complete, 3 invalid. -/
  st : Nat
  pinned : Bool := false
  busy : Bool := false
  deriving DecidableEq, Repr

structure Inventory where
  module : Nat
  /-- Candidates: step, NMOD, SOURCES, REASON, FLAGS. -/
  cand : List (Step × Nat × Nat × Nat × Nat)
  deriving DecidableEq, Repr

structure CkpState where
  /-- Bays: key stack * 4 + bay. -/
  bays : SMap Bay := []
  /-- Manifests held: tier, step, entries as bytes (R369). -/
  manifests : List (Nat × Step × List Byte) := []
  /-- Copied blocks of the protected generation: key stack * 2^15 + block, value 1 (R372). -/
  copied : SMap Nat := []
  /-- What the blocks copied ahead held: block, its listed bytes by offset, its poisoned granules by offset (R372). -/
  guards : List (Nat × SMap Byte × List Nat) := []
  /-- Blocks whose guard copy waits for a page substitution (R215). -/
  guardDue : List Nat := []
  protectedStep : Option Step := none
  /-- Restore in progress: 0 none, 1 inventory, 2 placement. -/
  restoring : Nat := 0
  /-- Steps whose placement has failed in this restore, with the refusal code (R379, R380). -/
  excluded : List (Step × Nat) := []
  pick : Step := -1
  inventories : List Inventory := []
  /-- Candidates refused in this restore (R378). -/
  refused : Nat := 0
  /-- An ineligible step waits for its replacement (R365). -/
  owed : Bool := false
  /-- The partner's bay that holds the newest complete mirror (R373), and the tinning session: step and manifest. -/
  mirrorBay : Nat := 3
  mirror : Option (Step × List Byte) := none
  narrowUsed : Bool := false
  tiersUsed : Nat := 0
  /-- Ring position of the newest tier-2 set and slots placed. -/
  ring : Nat := 0
  /-- Module and partner have met at the first tier-1 set of the job; on a mismatch tier 1 stays off (R373). -/
  met : Bool := false
  tier1Off : Bool := false
  /-- GETs of a restore's inventory that the partner has not answered: 0x50 + bay for a mirror's manifest, 0x60 or 0x90 plus the
  entry for an ingot header of bay 2 or 3; and the milliseconds they have waited (R377, R378). -/
  asked : List Nat := []
  askMs : Nat := 0
  /-- The step of the manifest that the partner gave for its bay 2 or 3. -/
  askedStep : List (Nat × Step) := []
  /-- The partner's bays cannot be read (R388), and the steps whose mirrored headers disagree with their manifest (R379). -/
  partnerLost : Bool := false
  mirrorBad : List Step := []
  tier2Off : Bool := false
  /-- Verified copies of the tier-0 set under way: slots. -/
  copiedSlots : List Nat := []
  /-- A narrowed restore is in force since this step (R4). -/
  narrowStep : Option Step := none
  deriving DecidableEq, Repr

/-! ## Cores, arrays and engines (chapters 4 to 7, 12) -/

/-- A disputed chunk held for its assay (R312). -/
structure Dispute where
  core : Nat
  array : Nat
  sid : Nat
  op : Nat
  row : Nat
  colTile : Nat
  chunk : Nat
  /-- Original lane results: (sum, top, repeated) per lane. -/
  original : List LaneResult
  /-- First assay's result, when its check failed. -/
  assay : List LaneResult := []
  standby : Nat := 0
  second : Bool := false
  deriving DecidableEq, Repr

/-- One confirmed fault of an array within its window (R315, R323). -/
structure FaultMark where
  temp : Int
  bin : Nat
  activity : Nat
  deriving DecidableEq, Repr

structure ArrayRec where
  marks : List FaultMark := []
  /-- Fault-free matching touchstone runs since SUSPECT (R316). -/
  passes : Nat := 0
  /-- Release run requested by the fault manager: value written; 0 for none (R317). -/
  release : Option Nat := none
  /-- Runs of the release that matched: pattern * 4 + bin. -/
  ran : List Nat := []
  /-- Released or back within its restriction: mapped back at the core's next step boundary. -/
  back : Bool := false
  /-- State before REPLACING. -/
  before : Nat := 0
  deriving DecidableEq, Repr

structure Strand where
  regs : List Word := []
  row : Nat := 0
  col : Nat := 0
  tensor : Nat := 0
  step : Step := 0
  flags : Nat := 0
  deriving DecidableEq, Repr


/-- What an op has staged in its operand-buffer allocation (R103, R114): core, first byte, length, bytes. -/
structure Staged where
  core : Nat
  off : Nat
  len : Nat
  bytes : List Byte
  deriving DecidableEq, Repr

structure CoreState where
  ctx : Option SavedCtx := none
  /-- Ramp: 0 idle, 1 ramping, 2 full, 3 filling, 4 tapering (R118). -/
  ramp : Nat := 0
  /-- COR_RAMP as the core took it at its last op (R122), and the share of cells that fill toggles now, in eighths (R119). -/
  rampCfg : Word := 0x400603
  fill : Nat := 0
  /-- A context switch waits for a disputed chunk, or for the tile rows in progress (R100, R122, R164). -/
  saveDue : Bool := false
  declared : Bool := false
  deriving DecidableEq, Repr

structure Touchstone where
  index : Nat
  bytes : List Byte
  deriving DecidableEq, Repr

structure UnitState where
  /-- Accumulator entries: key core * 2^19 + entry; a listed entry is unwritten state of an op (R109, R47). -/
  acc : SMap AccEntry := []
  /-- DSM bytes: key die * 2^27 + offset. -/
  dsm : SMap Byte := []
  /-- DSM lines written by a PERSIST op and not yet written out: key die * 2^20 + line (R47). -/
  dsmDirty : List Nat := []
  cores : SMap CoreState := []
  arrays : SMap ArrayRec := []
  disputes : List Dispute := []
  /-- The operand buffers (R103). -/
  obuf : List Staged := []
  /-- The fill LFSRs: key core * 8 + array; an unlisted one holds its seed (R119). -/
  lfsr : SMap Nat := []
  strands : SMap Strand := []
  library : List Touchstone := []
  /-- Histogram counts: key array * 2^20 + band (R322). -/
  histogram : SMap Nat := []
  deriving DecidableEq, Repr

/-! ## Memory (chapter 8) -/

inductive RowPhase where
  | clean
  | watched (symbol : Nat)
  | remapped
  | remappedWatched (symbol : Nat)
  /-- Failed for good; whether it holds a remap entry. -/
  | retired (entry : Bool)
  deriving DecidableEq, Repr

/-- A PERSIST write that waits (R192, R372): slot, op, output operand, offset in it, bytes. -/
structure HeldWrite where
  sid : Nat
  op : Nat
  opnd : Nat
  off : Nat
  bytes : List Byte
  deriving DecidableEq, Repr

structure MemState where
  /-- The stacks, by module physical address (R186). -/
  stack : SMap Byte := []
  /-- The far tier: key port * 2^42 + offset. -/
  far : SMap Byte := []
  /-- Poisoned granules, by physical granule number. -/
  poison : List Nat := []
  /-- Rows: key stack * 2^26 + page * 2^11 + bank-and-pseudo-channel. -/
  rows : SMap RowPhase := []
  /-- Substitution: key stack * 2^15 + page, value pool page (R208). -/
  subst : SMap Nat := []
  /-- Pages whose copy to the pool is running: stack * 2^15 + page. -/
  copying : List Nat := []
  /-- Physical pages out of use: stack * 2^15 + page (R207, R208). -/
  retired : List Nat := []
  /-- Pages of the address map whose data is lost, the pool having no free page: stack * 2^15 + page (R208). -/
  lost : List Nat := []
  /-- Stacks that did not answer at the last start (R460). -/
  dead : List Nat := []
  /-- Stacks in self-refresh, and those whose entry waits for a page copy (R211, R215). -/
  asleep : List Nat := []
  sleepDue : List Nat := []
  /-- PERSIST writes that wait, oldest first (R192, R372). -/
  heldWrites : List HeldWrite := []
  /-- Poisoned granules of the far tier: key port * 2^34 + granule (R203, R212). -/
  farPoison : List Nat := []
  /-- Far-tier ports marked unavailable, and ports that have been retrained once (R214). -/
  farLost : List Nat := []
  farRetried : List Nat := []
  /-- CXL requests under way: slot, op, retried. -/
  farOps : List (Nat × Nat × Bool) := []
  deriving DecidableEq, Repr

/-! ## Braze and control-port links (chapter 9, R275) -/

structure PortState where
  /-- Link state of a control port, numbered as BRZ_STATE.STATE; a Braze port's stands in BRZ_STATE. -/
  cpPhase : Nat := 0
  /-- Next SEQ to send. -/
  txSeq : Nat := 0
  /-- Retry buffer: unacknowledged DATA flits, oldest first (R226). -/
  retry : List Flit := []
  /-- Flits to be sent again, ahead of new ones (R227, R230). -/
  resend : List Flit := []
  /-- Ready DATA flits per VC. -/
  ready : List (List Flit) := [[], [], [], [], []]
  /-- Expected SEQ, and whether any DATA flit has been accepted since UP (R237). -/
  rxSeq : Nat := 0
  rxAny : Bool := false
  /-- A flit error or gap is open: following DATA flits are discarded (R227). -/
  discarding : Bool := false
  /-- Accepted flits not yet acknowledged. -/
  unacked : Nat := 0
  /-- The ACK or NAK waiting to ride in the next flit: kind and SEQ. -/
  pendAck : Nat × Nat := (0, 0)
  /-- Flits freed per VC, cumulative, and as last reported by the peer (R229). -/
  freed : List Nat := [0, 0, 0, 0, 0]
  peerFreed : List Nat := [0, 0, 0, 0, 0]
  sent : List Nat := [0, 0, 0, 0, 0]
  /-- DATA-flit slots used in the window of 1,024, and those per VC (R230). -/
  slot : Nat := 0
  slotSent : List Nat := [0, 0, 0, 0, 0]
  /-- The VC whose count the next flit reports. -/
  turn : Nat := 0
  /-- NAKs of one SEQ in succession (R227). -/
  nakSeq : Nat := 0
  nakCount : Nat := 0
  /-- A NAK whose resent flits have not been acknowledged yet. -/
  nakOpen : Bool := false
  /-- DATA flits accepted since UP. -/
  rxTotal : Nat := 0
  /-- Messages handed to this port whose last flit is not acknowledged, oldest first: VC and bytes (R238). -/
  inFlight : List (Nat × List Byte) := []
  /-- Messages being assembled per VC: bytes and flits so far. -/
  rxBytes : List (List Byte) := [[], [], [], [], []]
  rxFlits : List Nat := [0, 0, 0, 0, 0]
  /-- Healthy lanes of a control port, transmit and receive, and those in use; a Braze port's stand in BRZ_LANES. -/
  txLanes : Nat := 0
  rxLanes : Nat := 0
  txUse : Nat := 0
  rxUse : Nat := 0
  /-- Transmit lanes last reported healthy, whatever the light of their laser inputs (R20). -/
  txFound : Nat := 0
  /-- Lanes that a WIDTH_CHANGE in progress brings into use (R233). -/
  newTx : Nat := 0
  newRx : Nat := 0
  /-- Stored margins are valid (R235). -/
  margins : Bool := false
  /-- Echo flits sent and not answered (R240). -/
  echoes : Nat := 0
  /-- Lanes healthy before the last change, for rewidening at a boundary (R233). -/
  rewiden : Bool := false
  deriving DecidableEq, Repr

structure LinkState where
  ports : SMap PortState := []
  /-- Delivered messages not yet taken: port, VC, bytes. -/
  inbox : List (Nat × Nat × List Byte) := []
  /-- Laser inputs below 16 dBm: engine * 4 + input (R20, R21). -/
  dark : List Nat := []
  /-- Optical engines whose light is requested (R292). -/
  light : List Nat := []
  deriving DecidableEq, Repr

/-! ## Power, clocks, thermal (chapter 16) -/

structure PowerState where
  /-- Amperes granted in the present window, by quadrant (R424). -/
  granted : SMap Nat := []
  /-- Cores waiting for a grant. -/
  waiting : List Nat := []
  /-- Loans: borrower core and amperes, in the order lent (R427). -/
  loans : List (Nat × Nat) := []
  /-- Cores that hold a declared wait (R272). -/
  declared : List Nat := []
  /-- Bin and commanded millivolts of each compute die; default bin 2 after a cold start (R431). -/
  bins : SMap Nat := []
  volts : SMap Nat := []
  avsTries : SMap Nat := []
  /-- Bins excluded for a die: die * 4 + bin (R42, R420, R430). -/
  excluded : List Nat := []
  /-- Dies tripped at 105 C, and stacks (100 + n). -/
  tripped : List Nat := []
  /-- Die (or 100 + stack) and step of the last THERMAL_HIGH. -/
  warned : List (Nat × Step) := []
  thermtrip : Bool := false
  lostPairs : List Nat := []
  /-- Peripheral dies on their backup pair. -/
  onBackup : List Nat := []
  railsOn : Bool := false
  /-- PWR_THERM.WARN_C and PWR_GUARD.MV as each die took them at its last step boundary (R435). -/
  warnC : SMap Nat := []
  guardMv : SMap Nat := []
  deriving DecidableEq, Repr

/-! ## Security (chapter 17) -/

/-- The firmware-update state (R443). -/
inductive UpdPhase where
  | idle
  | receiving
  | staged
  | activated
  deriving DecidableEq, Repr

/-- One management die's flash and running image (R438, R441). -/
structure MgmtDie where
  /-- Bytes of the two firmware slots: key slot * 2^27 + offset. -/
  flash : SMap Byte := []
  /-- The slots that still hold the image of delivery: A, B. -/
  delivered : List Bool := [true, true]
  /-- Committed slot of the boot-preference record: 0 A, 1 B. -/
  pref : Nat := 0
  /-- Slot the die runs; none in ROM recovery or when off. -/
  running : Option Nat := none
  inService : Bool := true
  /-- Slot marked for a trial start (R444). -/
  trial : Option Nat := none
  deriving DecidableEq, Repr

structure SecState where
  dies : List MgmtDie := [{}, {}]
  /-- Active management die. -/
  active : Nat := 0
  upd : UpdPhase := .idle
  /-- Management die whose uncommitted slot is being written. -/
  target : Nat := 1
  /-- ARB fuses blown and REVOKE fuses, beyond production (R437). -/
  arb : Nat := 0
  revoked : Nat := 0
  conf : Bool := false
  debugLocked : Bool := false
  scrubPending : Bool := false
  scrubbing : Bool := false
  /-- Images that a boot ROM has found invalid, as the unit-health record keeps them: management die and slot (R441). -/
  bootFails : List (Nat × Nat) := []
  /-- A management-die handover is in progress (R450). -/
  handover : Bool := false
  /-- Stacks whose zeroing is not finished (R453). -/
  toScrub : List Nat := []
  deriving DecidableEq, Repr

/-! ## Start-up and the unit-health record (chapter 18) -/

/-- The installation section (R468). -/
structure Installation where
  present : Bool := false
  module : Nat := 0xFFFF
  spares : List Nat := [11, 12, 35, 36]
  /-- Per Braze port: peer module, peer port, cabled. -/
  cables : List (Nat × Nat × Bool) := []
  deriving DecidableEq, Repr

structure StartState where
  install : Installation := {}
  /-- Designated spares in force (R466). -/
  spares : List Nat := [11, 12, 35, 36]
  /-- Compute dies out of service, and suspect dies (R315). -/
  outDies : List Nat := []
  suspectDies : List Nat := []
  /-- Bins other than B2 are excluded until a first step is sealed (R464). -/
  b2Only : Bool := false
  /-- VERSION of the firmware under which the last self-test ran (R465). -/
  testedVersion : Option Nat := none
  /-- Interfaces in a loopback, oldest first: IF, INST, DEPTH. -/
  loops : List (Nat × Nat × Nat) := []
  /-- Rails that missed power good once (R459). -/
  missedRails : List Nat := []
  /-- Instruction registers of the 64 die TAPs that are not BYPASS: key die. -/
  tap : SMap Nat := []
  /-- The board position straps (R17, R292, R294). -/
  strap : Nat := 0
  /-- Update latches of the boundary registers: key die (R472). -/
  boundary : SMap Nat := []
  deriving DecidableEq, Repr

/-! ## The machine -/

/-- Why the machine stops. -/
inductive Fault where
  /-- Raised by a command whose operand names a unit that the module does not have (a die above 63, a core above 191, a
  port above 49, a stack above 47, a quadrant above 3). Safe: nothing happens on hardware that lacks the unit. -/
  | noUnit
  deriving DecidableEq, Repr

/-- Why the machine refuses a command. -/
inductive Refusal where
  /-- Raised by `exec` for a command whose meaning is not written. Safe. -/
  | notModelled (mnemonic : String)
  deriving DecidableEq, Repr

structure State where
  /-- Registers of every page by canonical address (R478 to R486). -/
  regs : SMap Word := []
  plan : PlanState := {}
  /-- Slots: 0-47 compute, 48-55 link, 56-59 hub (R32). -/
  slots : SMap SlotRun := []
  syn : SyncState := {}
  net : NetState := {}
  ctl : CtlState := {}
  flt : FaultState := {}
  ldg : LedgerState := {}
  ckp : CkpState := {}
  units : UnitState := {}
  mem : MemState := {}
  link : LinkState := {}
  pwr : PowerState := {}
  sec : SecState := {}
  stu : StartState := {}
  /-- Everything sent or driven, oldest first. -/
  sent : List Sent := []
  /-- Free values drawn so far: the argument of the opaque constants of `Config`. -/
  free : Nat := 0
  /-- Commands waiting, first in first out. -/
  pending : List Instr := []
  deriving DecidableEq, Repr

/-- The module right after reset: every register at its reset value, no plan, no job, the memory listing nothing, the
rails off and POR_N not yet released. -/
def State.reset : State := {}

end Sys2Proof.Machine
end

