-- ==== Sys2Proof/Machine/Dot.lean ====
section
/-!
DEFINITION. The dot product (chapter 4): operand exponents, chunk sums, the overflow repeat, the flag lane, promotion,
k-partitions and their fold, strict mode (R80), and the residue checks of chapter 12 (R298 to R301).
-/

namespace Sys2Proof.Machine

/-! ## Chunks (R84 to R89) -/

/-- One position of a chunk: code and scale byte of a_k and of b_k. -/
structure DotPos where
  a : Nat
  xa : Nat
  b : Nat
  xb : Nat
  deriving DecidableEq, Repr

/-- The operand exponent (R85). -/
def opExp (f bits scale : Nat) : Int :=
  match fmtSpec f with
  | none => 7
  | some sp =>
    let x : Int := if fmtIsMx f then (scale : Int) - 127 else 0
    let e : Nat := bits / 2 ^ sp.fBits % 2 ^ sp.eBits
    if e = 0 then 1 - (sp.bias : Int) + x else (e : Int) - (sp.bias : Int) + x

/-- The flag that one operand pair sets (R89): 0 none, 1 NAN, 2 PINF, 3 NINF. -/
def pairFlag (a b : FV) : Nat :=
  match a, b with
  | .nan, _ => 1
  | _, .nan => 1
  | .inf x, .inf y => if x = y then 2 else 3
  | .inf x, .fin y m _ => if m = 0 then 1 else if x = y then 2 else 3
  | .fin x m _, .inf y => if m = 0 then 1 else if x = y then 2 else 3
  | .fin _ _ _, .fin _ _ _ => 0

/-- The special chunk value of a set of flags (R89): 0 none, 1 NaN, 2 +inf, 3 -inf. -/
def chunkSpecial (flags : List Nat) : Nat :=
  if flags.contains 1 || (flags.contains 2 && flags.contains 3) then 1
  else if flags.contains 2 then 2
  else if flags.contains 3 then 3
  else 0

/-- The largest of a nonempty list. -/
def maxInt : List Int → Int
  | [] => 0
  | [x] => x
  | x :: xs => max x (maxInt xs)

/-- q_k: the exact product divided by 2^(T - 21), truncated toward zero (R87). -/
def alignProduct (a b : FV) (top : Int) : Int :=
  match a, b with
  | .fin n1 m1 e1, .fin n2 m2 e2 =>
    let x := e1 + e2 + 21 - top
    let q := if 0 ≤ x then m1 * m2 * 2 ^ x.toNat else m1 * m2 / 2 ^ (-x).toNat
    signed (n1 != n2) q
  | _, _ => 0

/-- The lane sum at a window top. -/
def chunkSum (ps : List (FV × FV)) (top : Int) : Int := ps.foldl (fun s p => s + alignProduct p.1 p.2 top) 0

/-- The sum lies outside the 22-bit lane accumulator (R87). -/
def laneOverflows (s : Int) : Bool := decide (s < -(2 ^ 21)) || decide (2 ^ 21 - 1 < s)

def DotPos.vals (f : Nat) (p : DotPos) : FV × FV := (decodeElem f p.a p.xa, decodeElem f p.b p.xb)

/-- ea_max + eb_max + 2 over the chunk's positions (R86). -/
def chunkBase (f : Nat) (ps : List DotPos) : Int :=
  maxInt (ps.map (fun p => opExp f p.a p.xa)) + maxInt (ps.map (fun p => opExp f p.b p.xb)) + 2

/-- One lane of one chunk, with its repeat (R86 to R89). -/
def laneChunk (f : Nat) (ps : List DotPos) : LaneResult :=
  let vs := ps.map (DotPos.vals f)
  let sp := chunkSpecial (vs.map (fun v => pairFlag v.1 v.2))
  if sp ≠ 0 then { sum := 0, top := 0, repeated := false, special := sp }
  else
    let t := chunkBase f ps
    let s := chunkSum vs (t + 3)
    if laneOverflows s then { sum := chunkSum vs (t + 5), top := t + 5, repeated := true }
    else { sum := s, top := t + 3, repeated := false }

/-- The chunk value in binary64 (R90, R91). -/
def laneValue (r : LaneResult) : Word :=
  if r.special = 1 then nan64
  else if r.special = 2 then inf64 false
  else if r.special = 3 then inf64 true
  else if r.sum = 0 then 0
  else (to64 (decide (r.sum < 0)) r.sum.natAbs (r.top - 21)).1

/-- Promotion of one chunk value into an entry, with PROMO_OVF (R90); a strict accumulator replaces it (R80). -/
def promote (entry : Word) (r : LaneResult) : Word × Bool :=
  let p := if r.special = 4 then (fvTo64 (spec32.decode r.sum.toNat), false) else add64f entry (laneValue r)
  (p.1 + BitVec.ofNat 64 r.promo, p.2)

/-- Promotions in increasing c (R92). -/
def promoteAll (entry : Word) (rs : List LaneResult) : Word × Bool :=
  rs.foldl (fun e r => let p := promote e.1 r; (p.1, e.2 || p.2)) (entry, false)

/-- The left fold of partials (R95). -/
def foldPartials (r : Word) (ps : List Word) : Word × Bool :=
  ps.foldl (fun e p => let q := add64f e.1 p; (q.1, e.2 || q.2)) (r, false)

/-! ## Strict mode (R80, R81) -/

def StrictFlags.or (a b : StrictFlags) : StrictFlags :=
  { invalid := a.invalid || b.invalid, overflow := a.overflow || b.overflow, underflow := a.underflow || b.underflow,
    inexact := a.inexact || b.inexact }

/-- One fusedMultiplyAdd after another over binary32 codes. -/
def strictDot (acc : Nat) (ps : List (Nat × Nat)) : Nat × StrictFlags :=
  ps.foldl (fun e p => let r := fma32 p.1 p.2 e.1; (r.1, e.2.or r.2)) (acc, {})

/-- Flag bits of a strict op in COR_FLAGS (R126). -/
def StrictFlags.bits (f : StrictFlags) : Nat :=
  (if f.invalid then 16 else 0) + (if f.overflow then 4 else 0) + (if f.underflow then 2 else 0) + (if f.inexact then 1 else 0)

/-! ## Residues (R298 to R301) -/

/-- res(x) (R298). -/
def res31 (x : Int) : Nat := (x % 31).toNat

/-- The signed integer significand of an element (R298), with its weight. -/
def significand (v : FV) : Int :=
  match v with
  | .fin n m _ => signed n m
  | _ => 0

/-- The predicted res(q_k) from the operand residues, the shift and the dropped bits (R299). -/
def predictRes (a b : FV) (top : Int) : Nat :=
  match a, b with
  | .fin _ _ e1, .fin _ _ e2 =>
    let sh := top - 21 - (e1 + e2)
    let p := significand a * significand b
    let ra := res31 (significand a)
    let rb := res31 (significand b)
    if sh ≤ 0 then ra * rb * 2 ^ ((-sh) % 5).toNat % 31
    else
      let d := p - alignProduct a b top * 2 ^ sh.toNat
      (ra * rb + 31 - res31 d) % 31 * 2 ^ ((5 - sh % 5) % 5).toNat % 31
  | _, _ => 0

/-- The sum of the predicted residues over a chunk (R300). -/
def predictSum (ps : List (FV × FV)) (top : Int) : Nat := ps.foldl (fun r p => (r + predictRes p.1 p.2 top) % 31) 0

/-- What the hardware delivers for a lane: its definition with the upsets of R300 put in. -/
structure LaneOut where
  res : LaneResult
  /-- The checker disagrees with the sum, the overflow decision or the window top (R300). -/
  bad : Bool
  /-- The checker of the promotion adder disagrees (R301). -/
  promoBad : Bool := false
  deriving DecidableEq, Repr

/-- The first upset of a lane. -/
def upsetOf (us : List LaneUpset) (lane : Nat) : Option LaneUpset := us.find? (fun u => u.lane == lane)

/-- A lane of one chunk as an array with upsets delivers it, and what its checker finds (R299 to R301). An inverted overflow
decision keeps a sum that overflows at g = 3, or repeats one that does not. -/
def laneRun (f : Nat) (ps : List DotPos) (u : Option LaneUpset) : LaneOut :=
  let r := laneChunk f ps
  match u with
  | none => { res := r, bad := false }
  | some u =>
    let promoBad := decide (u.promo % 31 ≠ 0) || u.dup
    if r.special ≠ 0 then { res := { r with promo := u.promo }, bad := false, promoBad := promoBad }
    else
      let vs := ps.map (DotPos.vals f)
      let t := chunkBase f ps
      let rep := r.repeated != u.ovf
      let top := t + (if rep then 5 else 3)
      let s := chunkSum vs top + u.sum
      let bad := u.ovf || decide (u.top ≠ 0) || decide (res31 s ≠ res31 ((predictSum vs top : Int) + u.residue))
      { res := { sum := s, top := top + u.top, repeated := rep, promo := u.promo }, bad := bad, promoBad := promoBad }

end Sys2Proof.Machine
end

