-- ==== Sys2Proof/Config.lean ====
section
/-!
DEFINITION. What the spec leaves open: uninterpreted constants. None has a body, so no proof can see a value.
The counter they are applied to is the field `free` of the machine's state; a step that draws a value advances it.
-/

namespace Sys2Proof.Config

/-- The COUNT of an island at the moment of a record (R399: never synchronised; its value is not fixed). -/
opaque islandCount : Nat → BitVec 52

/-- The ACTIVITY of a core over the 16 microseconds before an event (R322), a time average the model does not hold. -/
opaque activity : Nat → BitVec 4

/-- Where a part of a tensor lies in the whole tensor: ROW_LO, COL_LO, TOT_ROWS and TOT_COLS in 32 bits each (R77, R367: the
logical view that the plan declares; no field of a plan image states it). It is a function of the job, of the coordinate box
(base and extent, R37) whose work the slot's plan states, of the tensor ID and of the tile of the stored part at which the
part named begins: never of a slot, die or module (R5), so it follows work that moves. -/
opaque tensorView : Nat → Nat → Nat → Nat → Nat → BitVec 128

/-- The logical tensor ID of an output that lies in a DSM, which no hallmark tag names (job, coordinate base and extent, op;
R77, R166). -/
opaque dsmTensor : Nat → Nat → Nat → Nat → BitVec 32

/-- The time, in ms, that a slot has spent in its step when a fault strikes (R354); the model holds no clock. -/
opaque elapsedMs : Nat → BitVec 31

/-- The time, in microseconds, from the module's first slot boundary of a step to its last (R363). -/
opaque spanUs : Nat → BitVec 40

/-- Whether the extension of a REPLAY brings the elapsed time of a suspect (slot, op) back under its bound (R403). -/
opaque underBound : Nat → Nat → Nat → Bool

/-- Whether a module and its partner agree at the first tier-1 set of a job: each names the other, with equal numbers of compute
slots in use and equal BAY (R373; no message carries what they exchange). -/
opaque partnerAgrees : Nat → Bool

/-- Whether fuses programmed now read back as blown within the four attempts of R437. -/
opaque fuseHolds : Nat → Bool

/-- A word of a base-set touchstone pattern of the running image (R465: the image carries it; its bytes are not given): which
pattern, place. -/
opaque testPattern : Nat → Nat → BitVec 32

/-- An ephemeral X448 private key of the module (R288: the module's own ephemeral key). -/
opaque ephemeralKey : Nat → List Byte

/-- The value of an elementary function whose rounding the bounded evaluation leaves undecided (R158). -/
opaque undecided : Nat → BitVec 64 → BitVec 64

/-- The serial number fused at production (R437). -/
opaque serial : BitVec 64

/-- The secret seed fused at production (R437). -/
opaque idSeed : List Byte

/-- The digests of the three firmware-signing keys fused at production (R437). -/
opaque rootKey : Nat → List Byte

/-- The boot ROM version fuse (R437). -/
opaque romVersion : BitVec 32

/-- ROOT_KEY revocations already blown when the module is delivered (R437). -/
opaque revokedFuses : BitVec 3

/-- Anti-rollback fuses already blown when the module is delivered (R437, R449: 0 to 64). -/
opaque arbFuses : Fin 65

/-- VF_FUSE[b] of a compute die, in mV (R430: fused at production for each die). -/
opaque vfFuse : Nat → Nat → Nat

/-- The vendor's manufacturer identity code and the revision of a die (R471, R482). -/
opaque vendorCode : BitVec 11

/-- The revision of a die (R471, R482). -/
opaque dieRevision : Nat → BitVec 4

/-- A byte of the firmware image that a management die's flash slot holds at delivery: die, slot, offset (R438: written at
production). -/
opaque deliveredByte : Nat → Nat → Nat → BitVec 8

/-- The certificate chain stored in flash (R438, R448: its contents are installation data). -/
opaque certChain : List Byte

/-- The Ed448 public key that the stored device certificate carries (R448). -/
opaque certPublicKey : List Byte

/-- Pattern `i` of the base set of touchstone patterns, as an entry's bytes (R465: carried by each firmware image, its contents
are not given). -/
opaque basePattern : Nat → List Byte

/-- The group of rows and the position at which a context switch finds a class-0x02 op in progress (R143). -/
opaque rowPosition : Nat → Nat × Nat

/-- The value to which the fill LFSR of a physical array is seeded from the array's number (R119). -/
opaque fillSeed : Nat → BitVec 32

/-- The next value of a fill LFSR (R119: its taps are not given). -/
opaque fillNext : BitVec 32 → BitVec 32

/-- Hours of fault-free operation of an array within the window outside a band (R323); the model holds no clock. -/
opaque coolHours : Nat → Nat

/-- The bytes that a snapshot holds (R406: at most 4 MiB; its layout is not given). -/
opaque snapBytes : Nat → BitVec 22

/-- A word of a snapshot (R406). -/
opaque snapWord : Nat → Nat → BitVec 64

/-- A byte of the copy of a frozen tensor that the far tier supplies (R150: fetched once more after a mismatch; where that
copy lies is not given): draw, tensor ID, offset. -/
opaque farFrozen : Nat → Nat → Nat → BitVec 8

/-- A chain of wait edges ends at a unit that has completed no op or item for 1 ms (R404); the model holds no clock. -/
opaque silent : Nat → Bool

/-- A suspect's wait exceeds four times its bound (R404); the model holds no clock. -/
opaque overFour : Nat → Bool

/-- What a hub finds on its CXL port when it enumerates it (R213, R499): draw, port; read as the fields of CXL_STAT that
describe the link and the devices. -/
opaque cxlFound : Nat → Nat → BitVec 64

/-- How many of the bits of one PRBS31Q slot of a loopback test differ, by free value and port (R239, R240). -/
opaque prbsErrors : Nat → Nat → Nat

/-- The level of a signal land that the state does not fix, by free value and land (R472). -/
opaque landLevel : Nat → Nat → Bool

/-- What an instrument of a die answers to an access, by free value, die and access word (R472). -/
opaque instrumentWord : Nat → Nat → Nat → Nat

/-- What the fuse read-out of a die and the repair arrays of its stack answer to an access word (R472). -/
opaque fuseWord : Nat → Nat → Nat

/-- The bits that a loopback has compared (0) and those that differed (1), by draw (R469, R470). -/
opaque loopCount : Nat → Nat → BitVec 64

/-- How much a counter of work that the model holds no measure of grows at an event: fill rows and cycles, bubble rows,
turnarounds of a memory channel and cycles lost to refresh (R124, R127, R218); by free value and counter. -/
opaque counter : Nat → Nat → BitVec 64

end Sys2Proof.Config
end

