-- ==== Sys2Proof/Machine/Crypto.lean ====
section
/-!
DEFINITION. The digests and ciphers the manual names: CRC-32C (R224), SHAKE256 (R49 and others), AES-256-GCM (R289,
R290), X448 (R288) and Ed448 (R288, R368, R440, R445, R449), each as its public standard defines it.
-/

namespace Sys2Proof.Machine

/-! CRC-32C -/

/-- One bit step of the reflected CRC-32C register. -/
def crcStep (c : BitVec 32) : BitVec 32 := if c.getLsbD 0 then (c >>> 1) ^^^ 0x82F63B78 else c >>> 1

/-- One byte step of the reflected CRC-32C register. -/
def crcByte (c : BitVec 32) (b : Byte) : BitVec 32 :=
  let c := c ^^^ b.zeroExtend 32
  crcStep (crcStep (crcStep (crcStep (crcStep (crcStep (crcStep (crcStep c)))))))

/-- CRC-32C, reflected, initial value and final XOR all ones (R224). -/
def crc32c (bs : List Byte) : BitVec 32 := bs.foldl crcByte 0xFFFFFFFF ^^^ 0xFFFFFFFF

/-! SHAKE256 -/

/-- Round constants of the permutation. -/
def keccakRC : List Word :=
  [0x0000000000000001, 0x0000000000008082, 0x800000000000808A, 0x8000000080008000, 0x000000000000808B,
   0x0000000080000001, 0x8000000080008081, 0x8000000000008009, 0x000000000000008A, 0x0000000000000088,
   0x0000000080008009, 0x000000008000000A] ++
  [0x000000008000808B, 0x800000000000008B, 0x8000000000008089, 0x8000000000008003, 0x8000000000008002,
   0x8000000000000080, 0x000000000000800A, 0x800000008000000A, 0x8000000080008081, 0x8000000000008080,
   0x0000000080000001, 0x8000000080008008]

/-- Rotation offsets, lane x + 5y. -/
def keccakRot : List Nat :=
  [0, 1, 62, 28, 27, 36, 44, 6, 55, 20, 3, 10, 43, 25, 39, 41, 45, 15, 21, 8, 18, 2, 61, 56, 14]

/-- A lane of the state. -/
def lane (a : List Word) (x y : Nat) : Word := a.getD (x % 5 + 5 * (y % 5)) 0

/-- One round of the permutation. -/
def keccakRound (a : List Word) (rc : Word) : List Word :=
  let c := (List.range 5).map fun x => lane a x 0 ^^^ lane a x 1 ^^^ lane a x 2 ^^^ lane a x 3 ^^^ lane a x 4
  let d := (List.range 5).map fun x => c.getD ((x + 4) % 5) 0 ^^^ (c.getD ((x + 1) % 5) 0).rotateLeft 1
  let a := (List.range 25).map fun i => a.getD i 0 ^^^ d.getD (i % 5) 0
  let b := (List.range 25).map fun i =>
    -- lane (x, y) of the permuted state comes from lane (x + 3y, x)
    let x := i % 5
    let y := i / 5
    let j := (x + 3 * y) % 5 + 5 * x
    (a.getD j 0).rotateLeft (keccakRot.getD j 0)
  let a := (List.range 25).map fun i =>
    let x := i % 5
    let y := i / 5
    lane b x y ^^^ (~~~(lane b (x + 1) y) &&& lane b (x + 2) y)
  match a with
  | [] => []
  | z :: zs => (z ^^^ rc) :: zs

/-- The 24-round permutation. -/
def keccakF (a : List Word) : List Word := keccakRC.foldl keccakRound a

/-- Absorbs one 136-byte block. -/
def keccakAbsorb (a : List Word) (blk : List Byte) : List Word :=
  keccakF ((List.range 25).map fun i => if i < 17 then a.getD i 0 ^^^ wordAt blk i else a.getD i 0)

/-- The list cut into runs of `n`. -/
def chunksOf {α : Type} (n : Nat) (l : List α) : List (List α) :=
  (List.range (cdiv l.length n)).map fun i => (l.drop (i * n)).take n

/-- SHAKE256 padding to whole blocks of 136 bytes. -/
def shakePad (bs : List Byte) : List Byte :=
  let r := bs.length % 136
  if r = 135 then bs ++ [0x9F] else bs ++ [0x1F] ++ zeros (134 - r) ++ [0x80]

/-- Squeezes `n` blocks. -/
def shakeSqueeze : Nat → List Word → List Byte
  | 0, _ => []
  | n + 1, a => wordBytes (a.take 17) ++ shakeSqueeze n (keccakF a)

/-- SHAKE256 with `n` bytes of output. -/
def shake256 (n : Nat) (bs : List Byte) : List Byte :=
  let a := (chunksOf 136 (shakePad bs)).foldl keccakAbsorb (List.replicate 25 0)
  (shakeSqueeze (cdiv n 136) a).take n

/-- SHAKE256 with 512-bit output. -/
def digest64 (bs : List Byte) : List Byte := shake256 64 bs

/-- SHAKE256 with 32-byte output. -/
def digest32 (bs : List Byte) : List Byte := shake256 32 bs

/-! AES-256 and GCM -/

/-- Multiplication by x in GF(2^8). -/
def xtime (b : Byte) : Byte := if b.getLsbD 7 then (b <<< 1) ^^^ 0x1B else b <<< 1

/-- Multiplication in GF(2^8). -/
def gmul (a b : Byte) : Byte :=
  ((List.range 8).foldl (fun (acc : Byte × Byte) i => (if b.getLsbD i then acc.1 ^^^ acc.2 else acc.1, xtime acc.2)) (0, a)).1

/-- a^254, the inverse in GF(2^8). -/
def ginv (a : Byte) : Byte :=
  let a2 := gmul a a
  let a4 := gmul a2 a2
  let a8 := gmul a4 a4
  let a16 := gmul a8 a8
  let a32 := gmul a16 a16
  let a64 := gmul a32 a32
  let a128 := gmul a64 a64
  gmul a128 (gmul a64 (gmul a32 (gmul a16 (gmul a8 (gmul a4 a2)))))

/-- The AES S-box. -/
def sbox (b : Byte) : Byte :=
  let i := ginv b
  i ^^^ i.rotateLeft 1 ^^^ i.rotateLeft 2 ^^^ i.rotateLeft 3 ^^^ i.rotateLeft 4 ^^^ 0x63

/-- Bytewise exclusive or. -/
def xorBytes (a b : List Byte) : List Byte := List.zipWith (· ^^^ ·) a b

/-- The key words after the first eight, newest first in `acc`; `i` counts words made. -/
def aesExpand : Nat → Nat → Byte → List (List Byte) → List (List Byte)
  | 0, _, _, acc => acc
  | n + 1, i, rc, acc =>
    let prev := acc.getD 0 []
    let old := acc.getD 7 []
    let t :=
      if i % 8 = 0 then
        match (prev.drop 1 ++ prev.take 1).map sbox with
        | x :: xs => (x ^^^ rc) :: xs
        | [] => []
      else if i % 8 = 4 then prev.map sbox else prev
    aesExpand n (i + 1) (if i % 8 = 0 then xtime rc else rc) (xorBytes old t :: acc)

/-- The fifteen round keys of AES-256. -/
def aesKeys (key : List Byte) : List (List Byte) :=
  let ws := (aesExpand 52 8 1 ((chunksOf 4 key).reverse)).reverse
  (chunksOf 4 ws).map List.flatten

/-- SubBytes and ShiftRows. -/
def aesSubShift (s : List Byte) : List Byte :=
  (List.range 16).map fun i => sbox (s.getD ((i + 4 * (i % 4)) % 16) 0)

/-- MixColumns. -/
def aesMix (s : List Byte) : List Byte :=
  (List.range 16).map fun i =>
    let c := 4 * (i / 4)
    let b := fun j => s.getD (c + (i + j) % 4) 0
    gmul (b 0) 2 ^^^ gmul (b 1) 3 ^^^ b 2 ^^^ b 3

/-- One AES-256 block. -/
def aesBlock (keys : List (List Byte)) (blk : List Byte) : List Byte :=
  let s0 := xorBytes blk (keys.getD 0 [])
  let s := (List.range 13).foldl (fun s r => xorBytes (aesMix (aesSubShift s)) (keys.getD (r + 1) [])) s0
  xorBytes (aesSubShift s) (keys.getD 14 [])

/-- The number a big-endian byte string spells. -/
def beNat (bs : List Byte) : Nat := leNat bs.reverse

/-- `n` big-endian bytes of a number. -/
def beBytes (n v : Nat) : List Byte := (leBytes n v).reverse

/-- One bit of a GHASH product: the bit of x at position i from the top, and v halved in the field. -/
def ghBit (x : BitVec 128) (acc : BitVec 128 × BitVec 128) (i : Nat) : BitVec 128 × BitVec 128 :=
  (if x.getMsbD i then acc.1 ^^^ acc.2 else acc.1,
   if acc.2.getLsbD 0 then (acc.2 >>> 1) ^^^ 0xE1000000000000000000000000000000 else acc.2 >>> 1)

/-- Multiplication in the GHASH field. -/
def ghMul (x h : BitVec 128) : BitVec 128 := ((List.range 128).foldl (ghBit x) (0, h)).1

/-- GHASH over whole 16-byte blocks. -/
def ghash (h : BitVec 128) (bs : List Byte) : BitVec 128 :=
  (chunksOf 16 bs).foldl (fun y b => ghMul (y ^^^ BitVec.ofNat 128 (beNat b)) h) 0

/-- Zero bytes up to the next multiple of 16. -/
def pad16 (bs : List Byte) : List Byte := bs ++ zeros ((16 - bs.length % 16) % 16)

/-- The counter-mode key stream applied to a byte string, from counter 2. -/
def gcmCtr (keys : List (List Byte)) (iv bs : List Byte) : List Byte :=
  let blocks := chunksOf 16 bs
  ((List.range blocks.length).map fun i =>
    xorBytes (blocks.getD i []) (aesBlock keys (iv ++ beBytes 4 (i + 2)))).flatten

/-- The GCM tag of a ciphertext. -/
def gcmTag (keys : List (List Byte)) (iv aad ct : List Byte) : List Byte :=
  let h := BitVec.ofNat 128 (beNat (aesBlock keys (zeros 16)))
  let s := ghash h (pad16 aad ++ pad16 ct ++ beBytes 8 (8 * aad.length) ++ beBytes 8 (8 * ct.length))
  xorBytes (beBytes 16 s.toNat) (aesBlock keys (iv ++ beBytes 4 1))

/-- AES-256-GCM encryption: ciphertext followed by the 16-byte tag. -/
def gcmSeal (key iv aad pt : List Byte) : List Byte :=
  let keys := aesKeys key
  let ct := gcmCtr keys iv pt
  ct ++ gcmTag keys iv aad ct

/-- AES-256-GCM decryption: none when the tag does not authenticate. -/
def gcmOpen (key iv aad ctTag : List Byte) : Option (List Byte) :=
  if ctTag.length < 16 then none
  else
    let keys := aesKeys key
    let ct := ctTag.take (ctTag.length - 16)
    if gcmTag keys iv aad ct = ctTag.drop (ctTag.length - 16) then some (gcmCtr keys iv ct) else none

/-! The field of order 2^448 - 2^224 - 1 -/

/-- The field's prime. -/
def p448 : Nat := 2 ^ 448 - 2 ^ 224 - 1

/-- Difference modulo a number. -/
def subMod (m a b : Nat) : Nat := (a + (m - b % m)) % m

/-- Power modulo a number, over the `n` low bits of the exponent from the top. -/
def powMod (m b e : Nat) : Nat → Nat
  | 0 => 1 % m
  | n + 1 =>
    -- square what the higher bits gave, then take in bit 0 of this position
    let r := powMod m b (e / 2) n
    let r2 := r * r % m
    if e % 2 = 1 then r2 * b % m else r2

/-- The inverse in the field. -/
def inv448 (a : Nat) : Nat := powMod p448 a (p448 - 2) 448

/-- The state of the X448 ladder. -/
structure Ladder where
  x2 : Nat
  z2 : Nat
  x3 : Nat
  z3 : Nat

/-- One step of the X448 ladder for a scalar bit. -/
def ladderStep (x1 : Nat) (l : Ladder) (bit : Bool) : Ladder :=
  let (x2, x3) := if bit then (l.x3, l.x2) else (l.x2, l.x3)
  let (z2, z3) := if bit then (l.z3, l.z2) else (l.z2, l.z3)
  let a := (x2 + z2) % p448
  let aa := a * a % p448
  let b := subMod p448 x2 z2
  let bb := b * b % p448
  let e := subMod p448 aa bb
  let c := (x3 + z3) % p448
  let d := subMod p448 x3 z3
  let da := d * a % p448
  let cb := c * b % p448
  let x3' := (da + cb) % p448
  let x3' := x3' * x3' % p448
  let t := subMod p448 da cb
  let z3' := x1 * (t * t % p448) % p448
  let x2' := aa * bb % p448
  let z2' := e * ((aa + 39081 * e) % p448) % p448
  if bit then ⟨x3', z3', x2', z2'⟩ else ⟨x2', z2', x3', z3'⟩

/-- The clamped scalar of a 56-byte X448 private key. -/
def x448Scalar (k : List Byte) : Nat :=
  let n := natAt k 0 56
  (n / 4 * 4) % 2 ^ 447 + 2 ^ 447

/-- X448 of a private key and a coordinate (both 56 bytes). -/
def x448 (k u : List Byte) : List Byte :=
  let n := x448Scalar k
  let x1 := natAt u 0 56 % p448
  let l := (List.range 448).foldl
    (fun l i => ladderStep x1 l (n.testBit (447 - i))) ⟨1, 0, x1, 1⟩
  leBytes 56 (l.x2 * inv448 l.z2 % p448)

/-- The X448 public key of a private key. -/
def x448Public (k : List Byte) : List Byte := x448 k (leBytes 56 5)

/-! Ed448 -/

/-- A point in projective coordinates. -/
structure EdPoint where
  x : Nat
  y : Nat
  z : Nat
  deriving DecidableEq, Repr

/-- The group order. -/
def edOrder : Nat := 2 ^ 446 - 13818066809895115352007386748515426880336692474882178609894547503885

/-- The base point. -/
def edBase : EdPoint :=
  ⟨224580040295924300187604334099896036246789641632564134246125461686950415467406032909029192869357953282578032075146446173674602635247710,
   298819210078481492676017930443930673437544040154080242095928241372331506189835876003536878655418784733982303233503462500531545062832660, 1⟩

/-- Addition on the untwisted Edwards curve with d = -39081. -/
def edAdd (p q : EdPoint) : EdPoint :=
  let a := p.z * q.z % p448
  let b := a * a % p448
  let c := p.x * q.x % p448
  let d := p.y * q.y % p448
  let e := subMod p448 0 (39081 * (c * d % p448) % p448)
  let f := subMod p448 b e
  let g := (b + e) % p448
  let h := (p.x + p.y) * (q.x + q.y) % p448
  ⟨a * f % p448 * subMod p448 (subMod p448 h c) d % p448, a * g % p448 * subMod p448 d c % p448, f * g % p448⟩

/-- Scalar multiplication over the `n` low bits of the scalar. -/
def edMul (p : EdPoint) (k : Nat) : Nat → EdPoint
  | 0 => ⟨0, 1, 1⟩
  | n + 1 =>
    let r := edMul p (k / 2) n
    let r2 := edAdd r r
    if k % 2 = 1 then edAdd r2 p else r2

/-- The 57-byte encoding of a point. -/
def edEncode (p : EdPoint) : List Byte :=
  let zi := inv448 p.z
  let x := p.x * zi % p448
  let y := p.y * zi % p448
  leBytes 56 y ++ [if x % 2 = 1 then 0x80 else 0]

/-- The point a 57-byte string encodes. -/
def edDecode (bs : List Byte) : Option EdPoint :=
  let sgn := natAt bs 56 1 / 128
  let y := natAt bs 0 56
  if bs.length ≠ 57 ∨ natAt bs 56 1 % 128 ≠ 0 ∨ p448 ≤ y then none
  else
    let y2 := y * y % p448
    let u := subMod p448 y2 1
    let v := subMod p448 (subMod p448 0 (39081 * y2 % p448)) 1
    -- x = u^3 v (u^5 v^3)^((p-3)/4)
    let u2 := u * u % p448
    let u3 := u2 * u % p448
    let v3 := v * v % p448 * v % p448
    let w := powMod p448 (u3 * u2 % p448 * v3 % p448) ((p448 - 3) / 4) 448
    let x := u3 * v % p448 * w % p448
    if v * (x * x % p448) % p448 ≠ u then none
    else if x = 0 ∧ sgn = 1 then none
    else some ⟨if x % 2 = sgn then x else p448 - x, y, 1⟩

/-- The text "SigEd448", the flag byte and the context that every hash of a signature begins with. -/
def edDom (ctx : List Byte) : List Byte :=
  ascii [0x53, 0x69, 0x67, 0x45, 0x64, 0x34, 0x34, 0x38] ++ [0, BitVec.ofNat 8 ctx.length] ++ ctx

/-- The secret scalar of a 57-byte private key, and the second half of its hash. -/
def edSecret (sk : List Byte) : Nat × List Byte :=
  let h := shake256 114 sk
  ((natAt h 0 56 / 4 * 4) % 2 ^ 447 + 2 ^ 447, h.drop 57)

/-- The Ed448 public key of a private key. -/
def edPublic (sk : List Byte) : List Byte := edEncode (edMul edBase (edSecret sk).1 448)

/-- The Ed448 signature of a message under a context. -/
def edSign (sk ctx msg : List Byte) : List Byte :=
  let (a, pre) := edSecret sk
  let pk := edEncode (edMul edBase a 448)
  let r := leNat (shake256 114 (edDom ctx ++ pre ++ msg)) % edOrder
  let rEnc := edEncode (edMul edBase r 448)
  let k := leNat (shake256 114 (edDom ctx ++ rEnc ++ pk ++ msg)) % edOrder
  rEnc ++ leBytes 57 ((r + k * a) % edOrder)

/-- Whether an Ed448 signature verifies. -/
def edVerify (pk ctx msg sig : List Byte) : Bool :=
  if sig.length ≠ 114 then false
  else
    match edDecode pk, edDecode (sig.take 57) with
    | some a, some r =>
      let s := leNat (sig.drop 57)
      if edOrder ≤ s then false
      else
        let k := leNat (shake256 114 (edDom ctx ++ sig.take 57 ++ pk ++ msg)) % edOrder
        edEncode (edMul edBase s 448) == edEncode (edAdd r (edMul a k 448))
    | _, _ => false

end Sys2Proof.Machine
end

