-- ==== Sys2Proof/Machine/RegMap.lean ====
section
/-!
DEFINITION. The register maps: which page each die carries (R479), the registers of each page with their fields, types,
reset values and ranges (R481, R482 and the chapters that own the pages), and the default fabric routes (R196).
-/

namespace Sys2Proof.Machine

/-- The field types of R483. -/
inductive FieldKind where
  | ro
  | rw
  | rw1c
  | wo
  deriving DecidableEq, Repr

/-- One field of a register: bits [hi:lo], type, reset value and the range of legal written values. -/
structure RegField where
  hi : Nat
  lo : Nat
  kind : FieldKind
  reset : Nat := 0
  min : Nat := 0
  max : Nat := 2 ^ 64 - 1
  deriving DecidableEq, Repr

/-- Who may write a register (R484, R291 and the owning chapters). -/
inductive RegWriter where
  /-- Every path. -/
  | any
  /-- Management firmware only, in the active and in the shadow copy. -/
  | firmware
  /-- The management port only (FLT_CTL). -/
  | mgmtPort
  /-- Firmware writes the active copy and the control software the shadow copy (PLN_XLAT). -/
  | split
  deriving DecidableEq, Repr

/-- One register, or an array of `count` registers `stride` bytes apart. -/
structure RegRow where
  off : Nat
  count : Nat := 1
  stride : Nat := 8
  writer : RegWriter := .any
  /-- Swapped registers take effect at a step boundary through the shadow (R486). -/
  swapped : Bool := false
  fields : List RegField
  deriving DecidableEq, Repr

def fRo (hi lo : Nat) (r : Nat := 0) : RegField := { hi := hi, lo := lo, kind := .ro, reset := r }
def fRw (hi lo : Nat) (r : Nat := 0) (mn : Nat := 0) (mx : Nat := 2 ^ 64 - 1) : RegField :=
  { hi := hi, lo := lo, kind := .rw, reset := r, min := mn, max := mx }
def fW1 (hi lo : Nat) : RegField := { hi := hi, lo := lo, kind := .rw1c }
def fWo (hi lo : Nat) : RegField := { hi := hi, lo := lo, kind := .wo }

/-- A whole read-only word. -/
def rowRo (off : Nat) (count : Nat := 1) : RegRow := { off := off, count := count, fields := [fRo 63 0] }

/-- The common registers of every page (R481, R482). -/
def commonRows : List RegRow := [
  rowRo 0x000, rowRo 0x008,
  { off := 0x010, fields := [fW1 48 48, fRo 47 16, fRo 5 4, fRo 3 0 2] },
  { off := 0x018, fields := [fWo 2 2, fWo 1 1, fWo 0 0] },
  rowRo 0x020,
  { off := 0x028, fields := [fRw 0 0] },
  { off := 0x030, fields := [fRo 63 32, fRo 7 0 1] },
  { off := 0x038, fields := [fRw 63 0] }]

/-- Registers of the die control page that every die has, and those of link dies (R491). -/
def dieRows : List RegRow := [
  { off := 0x040, fields := [fRo 13 8 0x3F, fRo 3 0 1] },
  { off := 0x048, fields := [fRo 51 32, fRo 19 0 1] },
  { off := 0x050, fields := [fRo 23 0] }]

def linkDieRows : List RegRow := dieRows ++ [
  { off := 0x100, fields := [fRw 15 0] },
  { off := 0x108, writer := .firmware, fields := [fRw 63 58 63, fRw 57 52 63, fRw 51 49 7, fRw 47 0 (2 ^ 48 - 1)] }]

/-- The plan and start-up registers of the management dies (R33, R58, R59, R475, R476). -/
def mgmtDieRows : List RegRow := dieRows ++ [
  rowRo 0x100, rowRo 0x108,
  { off := 0x110, fields := [fRw 63 0] },
  { off := 0x118, fields := [fWo 63 0] },
  { off := 0x120, fields := [fRw 31 0 0x7D0 100 60000] },
  rowRo 0x128, rowRo 0x130,
  { off := 0x138, fields := [fWo 63 0] },
  rowRo 0x140 8, rowRo 0x180 8,
  { off := 0x200, count := 48, writer := .split, swapped := true,
    fields := [fRo 47 40, fRw 37 32 0 0 47, fRw 29 24 0 0 47, fRw 21 20 0 0 2, fRw 16 16] },
  { off := 0x380, fields := [fRo 63 48 0xFFFF, fRo 47 0] },
  { off := 0x388, fields := [fRw 1 1, fRw 0 0] },
  { off := 0x390, fields := [fRw 63 63, fRo 62 62, fRw 47 32, fRw 23 16, fRw 11 8, fRw 1 0] },
  rowRo 0xC80, rowRo 0xC88]

/-- Core page (R124 to R126). -/
def coreRows : List RegRow := [
  { off := 0x040, swapped := true, fields := [fRw 24 16 0x40 16 256, fRw 11 8 6 1 8, fRw 1 0 3] },
  { off := 0x048, fields := [fW1 9 9, fW1 8 8, fW1 7 7, fW1 6 6, fW1 5 5, fW1 4 4, fW1 3 3, fW1 2 2, fW1 1 1, fW1 0 0] },
  rowRo 0x050, rowRo 0x058, rowRo 0xC00, rowRo 0xC08, rowRo 0xC10]

/-- Array-group page (R127, R128, R326, R327). -/
def arrayRows : List RegRow := [
  rowRo 0x040 7,
  { off := 0x078, writer := .firmware,
    fields := [fRw 17 15 5 0 6, fRw 14 12 4 0 6, fRw 11 9 3 0 6, fRw 8 6 2 0 6, fRw 5 3 1 0 6, fRw 2 0 0 0 6] },
  { off := 0x080, writer := .firmware,
    fields := [fRw 47 32 0x18 1 720, fRw 16 16, fRw 11 8 3 1 15, fRw 7 4 3 2 15] },
  rowRo 0x088, rowRo 0x090,
  { off := 0x0C0, count := 7, writer := .firmware,
    fields := [fRw 55 52 0xF, fRw 47 40 0x69 60 105, fRw 35 32 8 1 8] },
  rowRo 0xC00 7, rowRo 0xC40 7, rowRo 0xC80 7,
  rowRo 0xCC0, rowRo 0xCC8, rowRo 0xCD0, rowRo 0xCD8, rowRo 0xCE0, rowRo 0xCE8, rowRo 0xCF0]

/-- Vector-unit page (R180, R181). -/
def vectorRows : List RegRow := [
  { off := 0x040, fields := [fW1 5 5, fW1 4 4, fW1 3 3, fW1 2 2, fW1 1 1, fW1 0 0] },
  rowRo 0x048, rowRo 0x050, rowRo 0xC00, rowRo 0xC08]

/-- Engine-cluster page (R182, R183). -/
def engineRows : List RegRow := [
  { off := 0x040, writer := .firmware,
    fields := [fRw 43 42 3 1, fRw 41 40 3 1, fRw 39 36 0xF 1, fRw 35 32 0xF 1, fRw 31 24 0xFF 1, fRw 23 16 0xFF 1,
      fRw 15 0 0xFFFF 1] },
  { off := 0x048, fields := [fW1 7 7, fW1 6 6, fW1 5 5, fW1 4 4, fW1 3 3, fW1 2 2, fW1 1 1, fW1 0 0] },
  rowRo 0x050, rowRo 0xC00 7, rowRo 0xC40]

/-- Memory channel page (R218). -/
def channelRows : List RegRow := [
  { off := 0x040, swapped := true, fields := [fRw 0 0 1] },
  rowRo 0x048, rowRo 0xC00, rowRo 0xC08, rowRo 0xC10, rowRo 0xC18, rowRo 0xC20]

/-- Stack base page (R216, R217). -/
def stackRows : List RegRow := [
  { off := 0x040, swapped := true, fields := [fRw 47 36, fRw 28 24 0xC 4 24, fRw 19 16 3 1 8, fRo 5 0 0x21] },
  { off := 0x048, swapped := true, fields := [fRw 39 32 0x18 1 168, fRw 23 16 1 1 255, fRw 7 0 0x10] },
  rowRo 0x050,
  { off := 0x058, writer := .firmware, fields := [fRw 8 8 1, fRo 1 0] },
  rowRo 0xC00, rowRo 0xC08, rowRo 0xC10, rowRo 0xC18, rowRo 0xC20, rowRo 0xC28]

/-- Fabric page (R219). -/
def fabricRows : List RegRow := [
  { off := 0x040, count := 4, writer := .firmware, fields := [fRw 63 0] },
  rowRo 0x060,
  { off := 0x068, fields := [fRo 6 0 0x7F] },
  rowRo 0xC00 4, rowRo 0xC20]

/-- Braze port page (R242, R243). -/
def brazeRows : List RegRow := [
  { off := 0x040, writer := .firmware,
    fields := [fRw 17 17 1, fRw 16 16, fRw 15 15, fRw 14 12 0 0 4, fRw 9 8 0 0 2, fRw 7 0 0xFF] },
  { off := 0x048, writer := .firmware, fields := [fRw 23 8 0xFFFF, fRw 5 0 0 0 47] },
  { off := 0x050, swapped := true,
    fields := [fRw 54 44 0x40 16, fRw 43 33 0x100, fRw 32 22 0x80, fRw 21 11 0x80, fRw 10 0 0x80 16] },
  { off := 0x058, swapped := true, fields := [fRw 31 28 8 1, fRw 27 20 0x40 8, fRw 19 0 0x10000 1] },
  { off := 0x060, fields := [fRo 63 8, fRo 7 0 1] },
  rowRo 0x068,
  { off := 0x070, fields := [fRo 23 8 0xFFFF, fRo 5 0] },
  rowRo 0xC00, rowRo 0xC08, rowRo 0xC10, rowRo 0xC18, rowRo 0xC20, rowRo 0xC28, rowRo 0xC30, rowRo 0xC38 5,
  rowRo 0xC60, rowRo 0xC68]

/-- Control port page (R295, R296). -/
def ctlRows : List RegRow := [
  rowRo 0x040,
  { off := 0x048, swapped := true, fields := [fRw 27 20 0x1E 1 255, fRw 19 16 3, fRw 15 0 0x3E8 100 60000] },
  rowRo 0x050, rowRo 0x058,
  { off := 0x060, fields := [fWo 4 0] },
  { off := 0x100, count := 32, stride := 24, swapped := true, fields := [fRw 63 12] },
  { off := 0x108, count := 32, stride := 24, swapped := true,
    fields := [fRw 63 62 0 0 2, fRw 61 61, fRw 55 32, fRw 27 0] },
  { off := 0x110, count := 32, stride := 24, fields := [fRo 63 0] },
  rowRo 0xC00, rowRo 0xC08, rowRo 0xC10, rowRo 0xC18, rowRo 0xC20]

/-- CXL port page (R499). -/
def cxlRows : List RegRow := [
  rowRo 0x040, rowRo 0x048,
  { off := 0x050, writer := .firmware, fields := [fWo 0 0] },
  rowRo 0xC00, rowRo 0xC08, rowRo 0xC10, rowRo 0xC18, rowRo 0xC20]

/-- Ledger page with its checkpoint part (R389, R390, R496, R497). -/
def ledgerRows : List RegRow := [
  { off := 0x040, swapped := true,
    fields := [fRw 51 32 0x4E20 100 1000000, fRw 14 12 3 1, fRw 11 8 2 1, fRw 6 5 1 1 2, fRw 4 4, fRw 3 0 3 2 8] },
  { off := 0x048, fields := [fRw 31 16 0xFFFF, fRw 6 0 0 0 64] },
  { off := 0x050, fields := [fWo 2 2, fWo 1 1, fWo 0 0] },
  { off := 0x058, fields := [fRw 63 0] },
  rowRo 0x060, rowRo 0x068, rowRo 0x070,
  { off := 0x078, fields := [fRo 63 0 (2 ^ 64 - 1)] },
  { off := 0x080, fields := [fRw 13 0] },
  { off := 0x088, count := 4, fields := [fRw 63 0] },
  rowRo 0x0A8, rowRo 0x0B0, rowRo 0xC00, rowRo 0xC08, rowRo 0xC10,
  { off := 0x200, swapped := true,
    fields := [fRw 55 48 9 1 23, fRw 39 32 10, fRw 31 24 4, fRw 23 16 5 1, fRw 7 6 0 0 2, fRw 5 5, fRw 4 4] },
  { off := 0x208, swapped := true, fields := [fRw 15 0 0xFFFF] },
  { off := 0x210, swapped := true, fields := [fRw 51 48 2 1 8, fRw 47 44 0xF 1, fRw 41 21] },
  { off := 0x218, fields := [fRw 16 16, fRw 15 0 0xFFFF] },
  { off := 0x220, fields := [fWo 63 0] },
  { off := 0x228, count := 3, fields := [fRo 63 0 (2 ^ 64 - 1)] },
  { off := 0x240, fields := [fRo 63 0 (2 ^ 64 - 1)] },
  rowRo 0x248,
  { off := 0x300, count := 32, swapped := true,
    fields := [fRw 63 63, fRw 39 36 0 0 8, fRw 32 32, fRw 31 0] },
  rowRo 0xD00 3, rowRo 0xD18, rowRo 0xD20, rowRo 0xD28]

/-- Fault page (R492, R493). -/
def faultRows : List RegRow := [
  { off := 0x040, fields := [fRw 32 32, fRw 31 16 0x1F4 1 60000, fRw 9 0 0x32 1 1000] },
  { off := 0x048,
    fields := [fRw 59 56 5 1 15, fRw 48 32 0xE10 60 86400, fRw 27 24 3 1 15, fRw 16 0 0x258 10 86400] },
  { off := 0x050, writer := .firmware, fields := [fWo 23 0] },
  { off := 0x058, writer := .firmware, fields := [fWo 23 0] },
  { off := 0x060, writer := .mgmtPort, fields := [fWo 0 0] },
  rowRo 0x068,
  { off := 0x070, fields := [fRw 23 0] },
  rowRo 0x078 8,
  { off := 0x0B8, fields := [fRw 15 0] },
  rowRo 0x0C0,
  { off := 0x0C8, fields := [fRw 26 8, fRw 7 0] },
  rowRo 0x0D0,
  { off := 0x0D8, fields := [fWo 2 2, fWo 1 1, fWo 0 0] },
  { off := 0x0E0, fields := [fRw 63 0] },
  { off := 0x0E8, fields := [fWo 15 10, fWo 9 8, fWo 2 0] },
  rowRo 0x100 32, rowRo 0xC00 64]

/-- Power page (R494, R435). -/
def powerRows : List RegRow := [
  { off := 0x040, swapped := true, fields := [fRw 12 0 0x4B0 105 5520] },
  { off := 0x048, count := 4, swapped := true, fields := [fRw 12 0 0x1590 2820 5520] },
  { off := 0x068, count := 4, fields := [fRo 3 0 8] },
  { off := 0x088, fields := [fRw 5 0 0xF 0 50] },
  { off := 0x090, fields := [fRw 6 0 0x5F 70 95] },
  { off := 0x098, fields := [fWo 1 1, fWo 0 0] },
  rowRo 0x0A0, rowRo 0xC00 48, rowRo 0xD80 4, rowRo 0xDA0 4]

/-- Security page (R495, R455). -/
def securityRows : List RegRow := [
  { off := 0x040, fields := [fWo 8 8, fWo 4 4, fRw 0 0] },
  { off := 0x048, fields := [fRw 0 0] },
  rowRo 0x050]

/-- Sync page (R498). -/
def syncRows : List RegRow := [
  { off := 0x040, fields := [fRw 18 16 2 1 3, fRw 13 12, fRw 11 0] },
  rowRo 0x048 2, rowRo 0x058, rowRo 0xC00, rowRo 0xC08, rowRo 0xC10]

/-- The type code of a block on a die, or none when the die does not carry it (R479). -/
def blockType (die blk : Nat) : Option Nat :=
  let cd := die < 48
  let ld := 48 ≤ die ∧ die < 56
  let hd := 56 ≤ die ∧ die < 60
  let md := die = 60 ∨ die = 61
  let sl := die = 62 ∨ die = 63
  if blk = 0 then (if die < 64 then some 0x01 else none)
  else if 0x01 ≤ blk ∧ blk ≤ 0x04 then (if cd then some 0x02 else none)
  else if 0x05 ≤ blk ∧ blk ≤ 0x08 then (if cd then some 0x03 else none)
  else if 0x09 ≤ blk ∧ blk ≤ 0x0C then (if cd then some 0x04 else none)
  else if blk = 0x0D then (if cd then some 0x05 else none)
  else if blk = 0x0E then (if cd then some 0x06 else none)
  else if blk = 0x0F then (if cd then some 0x07 else none)
  else if blk = 0x10 then (if cd then some 0x08 else none)
  else if blk = 0x11 then (if cd ∧ 1 ≤ die % 8 then some 0x07 else none)
  else if blk = 0x12 then (if cd ∧ die % 8 = 6 then some 0x07 else none)
  else if 0x18 ≤ blk ∧ blk ≤ 0x1D then (if ld then some 0x10 else none)
  else if blk = 0x1E then (if die = 54 ∨ die = 55 then some 0x11 else none)
  else if blk = 0x1F then (if hd then some 0x12 else none)
  else if blk = 0x20 then (if sl then some 0x20 else none)
  else if blk = 0x21 then (if md then some 0x21 else none)
  else if blk = 0x22 then (if md then some 0x22 else none)
  else if blk = 0x23 then (if md then some 0x23 else none)
  else if blk = 0x24 then (if die < 60 then some 0x24 else none)
  else none

/-- The registers of a page beyond the common ones. -/
def pageRows (die ty : Nat) : List RegRow :=
  if ty = 0x01 then
    (if die = 60 ∨ die = 61 then mgmtDieRows else if 48 ≤ die ∧ die < 56 then linkDieRows else dieRows)
  else if ty = 0x02 then coreRows
  else if ty = 0x03 then arrayRows
  else if ty = 0x04 then vectorRows
  else if ty = 0x05 then engineRows
  else if ty = 0x06 then channelRows
  else if ty = 0x07 then stackRows
  else if ty = 0x08 then fabricRows
  else if ty = 0x10 then brazeRows
  else if ty = 0x11 then ctlRows
  else if ty = 0x12 then cxlRows
  else if ty = 0x20 then ledgerRows
  else if ty = 0x21 then faultRows
  else if ty = 0x22 then powerRows
  else if ty = 0x23 then securityRows
  else if ty = 0x24 then syncRows
  else []

/-- The row that holds an offset, if any. -/
def findRow (rows : List RegRow) (off : Nat) : Option RegRow :=
  rows.find? (fun r => decide (r.off ≤ off) && decide (off < r.off + r.count * r.stride) && decide ((off - r.off) % r.stride = 0))

/-- The row of an active offset on a page: the common registers first. -/
def rowAt (die ty off : Nat) : Option RegRow :=
  if off < 0x040 then findRow commonRows off else findRow (pageRows die ty) off

/-- The instance number that BLK_ID shows (R482). -/
def blockInst (die blk : Nat) : Nat :=
  if 0x01 ≤ blk ∧ blk ≤ 0x0C then (blk - 1) % 4
  else if blk = 0x0F then die
  else if blk = 0x11 then die - 1
  else if blk = 0x12 then die + 1
  else if 0x18 ≤ blk ∧ blk ≤ 0x1D then 6 * (die - 48) + (blk - 0x18)
  else if blk = 0x1E then die - 54
  else if blk = 0x1F then die - 56
  else if blk = 0x20 then die - 62
  else if 0x21 ≤ blk ∧ blk ≤ 0x23 then die - 60
  else if blk = 0 ∧ 60 ≤ die then die % 2
  else 0

/-- The value a row's fields reset to. -/
def rowReset (r : RegRow) : Nat := r.fields.foldl (fun a f => a + f.reset * 2 ^ f.lo) 0

/-! ## Default fabric routes (R14, R195, R196) -/

/-- The attached compute dies of a peripheral die, lower number first, and the edge they leave by. -/
def attached (d : Nat) : List Nat × Nat :=
  if d < 52 then ([2 * (d - 48), 2 * (d - 48) + 1], 1)
  else if d < 56 then ([40 + 2 * (d - 52), 41 + 2 * (d - 52)], 3)
  else if d = 56 then ([0], 4)
  else if d = 57 then ([7], 2)
  else if d = 58 then ([40], 4)
  else if d = 59 then ([47], 2)
  else if d = 60 then ([8, 32], 4)
  else if d = 61 then ([15, 39], 2)
  else if d = 62 then ([16, 24], 4)
  else ([23, 31], 2)

/-- The number of fabric hops between two compute dies. -/
def hops (a b : Nat) : Nat :=
  (a % 8 - b % 8) + (b % 8 - a % 8) + (a / 8 - b / 8) + (b / 8 - a / 8)

/-- The compute die through which traffic between compute die `s` and destination `d` passes last. -/
def gateway (s d : Nat) : Nat :=
  if d < 48 then d
  else match (attached d).1 with
    | [a, b] => if hops s b < hops s a then b else a
    | [a] => a
    | _ => 0

/-- The default port code from compute die `s` towards destination `d`: row first, then column (R196). -/
def defaultPort (s d : Nat) : Nat :=
  let g := gateway s d
  if s % 8 < g % 8 then 2
  else if g % 8 < s % 8 then 4
  else if s / 8 < g / 8 then 3
  else if g / 8 < s / 8 then 1
  else if d < 48 then 0
  else (attached d).2

/-- FAB_ROUTE[i] of a die under default routing. -/
def defaultRouteWord (die i : Nat) : Nat :=
  (List.range 16).foldl (fun a j => a + defaultPort die (16 * i + j) * 2 ^ (4 * j)) 0

/-! ## Canonical register addresses (R478 to R480, R484) -/

/-- The 26-bit register address. -/
def regAddr (die blk off : Nat) : Nat := die * 2 ^ 20 + blk * 2 ^ 12 + off

def addrDie (a : Nat) : Nat := a / 2 ^ 20 % 64
def addrBlk (a : Nat) : Nat := a / 2 ^ 12 % 256
def addrOff (a : Nat) : Nat := a % 2 ^ 12

/-- Offsets of a management die's die control page that are global (R480). -/
def globalOffset (off : Nat) : Bool :=
  off < 0x040 || (0x100 ≤ off && off < 0x400) || (0x900 ≤ off && off < 0xC00) || 0xC80 ≤ off

/-- Offsets at which the window table of the control port page lies, active or shadow, and CTL_PULL_FIX (R295). -/
def sharedCtlOffset (off : Nat) : Bool :=
  off == 0x060 || (0x100 ≤ off && off < 0x400) || (0x900 ≤ off && off < 0xC00)

/-- The canonical home of a register address: stack base views go to the stack's own die, global pages to the first
die of the pair, the window table to LD.6, and the ledger aliases of the fault page to the ledger page (R479, R480,
R295, R492). -/
def canonAddr (die blk off : Nat) : Nat :=
  if blk = 0x11 then regAddr (die - 1) 0x0F off
  else if blk = 0x12 then regAddr (die + 1) 0x0F off
  else if blk = 0x1E ∧ sharedCtlOffset off then regAddr 54 0x1E off
  else if blk = 0x21 ∧ off = 0x0D8 then regAddr 62 0x20 0x050
  else if blk = 0x21 ∧ off = 0x0E0 then regAddr 62 0x20 0x058
  else if 0x21 ≤ blk ∧ blk ≤ 0x23 then regAddr 60 blk off
  else if blk = 0x20 then regAddr 62 blk off
  else if blk = 0 ∧ (die = 60 ∨ die = 61) ∧ globalOffset off then regAddr 60 0 off
  else regAddr die blk off

/-- The registers whose names end in _SEL, held once for each path (R484). -/
def isSel (die blk off : Nat) : Bool :=
  (blk == 0 && 48 ≤ die && die < 56 && off == 0x100) || (blk == 0x21 && (off == 0x070 || off == 0x0B8 || off == 0x0C8 || off == 0x0E0))
    || (blk == 0x20 && (off == 0x058 || off == 0x080)) || (blk == 0x24 && off == 0x040)

/-- The reset value of a register by its canonical address. -/
def resetReg (a : Nat) : Word :=
  let die := addrDie a
  let blk := addrBlk a
  let off0 := addrOff a
  let off := if 0x800 ≤ off0 ∧ off0 < 0xC00 then off0 - 0x800 else off0
  match blockType die blk with
  | none => 0
  | some ty =>
    if blk = 0x10 ∧ 0x040 ≤ off ∧ off < 0x060 then BitVec.ofNat 64 (defaultRouteWord die ((off - 0x040) / 8))
    else if blk = 0 ∧ die = 60 ∧ 0x200 ≤ off ∧ off < 0x380 then
      let n := (off - 0x200) / 8
      BitVec.ofNat 64 (inFld 37 32 n + inFld 29 24 n + inFld 16 16 (if n < 44 then 1 else 0))
    else match rowAt die ty off with
      | none => 0
      | some r => BitVec.ofNat 64 (rowReset r)

end Sys2Proof.Machine
end

