-- ==== Sys2Proof/Machine/Ops.lean ====
section
/-!
DEFINITION. The named operations over the machine's state: registers, slots and dies, memory, events, frames, and the
forming of fault records. Every meaning is written over these.
-/

namespace Sys2Proof.Machine

/-- The outcome of a meaning. -/
abbrev Out := Host.Outcome State Fault Refusal

/-- The command runs: a next state. -/
def ok (s : State) : Out := .next s

/-- The command names a unit the module has, or the machine stops. -/
def onUnit (b : Bool) (s : State) : Out := if b then .next s else .fault .noUnit

/-- An event whose conditions hold takes place; one whose conditions do not hold changes nothing. -/
def when' (b : Bool) (t s : State) : State := if b then t else s

/-! ## Registers -/

/-- A register by its canonical address. -/
def State.reg (s : State) (a : Nat) : Word := SMap.get resetReg s.regs a

/-- Writes a register by its canonical address. -/
def State.setReg (s : State) (a : Nat) (v : Word) : State := { s with regs := SMap.set resetReg s.regs a v }

/-- Returns every register whose address satisfies `f` to its reset value. -/
def State.dropRegs (s : State) (f : Nat → Bool) : State := { s with regs := s.regs.filter (fun e => !f e.1) }

/-- A register of a page. -/
def State.rd (s : State) (die blk off : Nat) : Word := s.reg (canonAddr die blk off)

/-- Writes a register of a page. -/
def State.wr (s : State) (die blk off : Nat) (v : Word) : State := s.setReg (canonAddr die blk off) v

/-- A field [hi:lo] of a register. -/
def State.field (s : State) (die blk off hi lo : Nat) : Nat := fld (s.rd die blk off) hi lo

/-- Writes a field [hi:lo] of a register. -/
def State.setField (s : State) (die blk off hi lo v : Nat) : State :=
  s.wr die blk off (setFld (s.rd die blk off) hi lo v)

/-- Adds to a counter register. -/
def State.bump (s : State) (die blk off : Nat) (n : Nat := 1) : State :=
  s.wr die blk off (s.rd die blk off + BitVec.ofNat 64 n)

/-- Applies a state function over a list. -/
def forEach {α : Type} (l : List α) (f : α → State → State) (s : State) : State := l.foldl (fun t a => f a t) s

/-- The numbers 0 to n - 1 applied in order. -/
def forN (n : Nat) (f : Nat → State → State) (s : State) : State := forEach (List.range n) f s

/-- Applies a state function to a value, if there is one. -/
def onSome {α : Type} (o : Option α) (f : α → State → State) (s : State) : State :=
  match o with
  | some a => f a s
  | none => s

/-- Path numbers: management firmware, CP.A, CP.B, management port (R484). -/
def pathNum : Path → Nat
  | .firmware => 0
  | .cpA => 1
  | .cpB => 2
  | .mgmt => 3

/-- The die of a control port's page. -/
def pathDie : Path → Nat
  | .cpB => 55
  | _ => 54

/-- A _SEL register of a path (R484). -/
def State.sel (s : State) (p : Path) (die blk off : Nat) : Word := s.reg (canonAddr die blk off + pathNum p * 2 ^ 26)

/-! ## Slots, dies, partitions -/

def State.slot (s : State) (sid : Nat) : SlotRun := SMap.get (fun _ => {}) s.slots sid
def State.setSlot (s : State) (sid : Nat) (r : SlotRun) : State := { s with slots := SMap.set (fun _ => {}) s.slots sid r }

def SlotRun.opRun (r : SlotRun) (op : Nat) : OpRun := SMap.get (fun _ => {}) r.ops op
def State.opRun (s : State) (sid op : Nat) : OpRun := (s.slot sid).opRun op
def State.setOp (s : State) (sid op : Nat) (o : OpRun) : State :=
  let r := s.slot sid
  s.setSlot sid { r with ops := SMap.set (fun _ => {}) r.ops op o }

/-- The active translation of a compute slot (R33). -/
def State.xlat (s : State) (n : Nat) : Word := s.rd 60 0 (0x200 + 8 * n)

def xCd (x : Word) : Nat := fld x 37 32
def xMs (x : Word) : Nat := fld x 29 24
def xPath (x : Word) : Nat := fld x 21 20
def xValid (x : Word) : Bool := bitAt x 16

/-- A slot is in use (R32, R33). -/
def State.slotUsed (s : State) (sid : Nat) : Bool :=
  if sid < 48 then xValid (s.xlat sid) else decide (sid < 60)

/-- The die that runs a slot, by fabric number (R32, R33). -/
def State.slotDie (s : State) (sid : Nat) : Nat := if sid < 48 then xCd (s.xlat sid) else sid

/-- The stack that holds a compute slot's memory. -/
def State.slotStack (s : State) (n : Nat) : Nat := xMs (s.xlat n)

/-- The alternate die of a stack (R12, R479). -/
def altDie (st : Nat) : Nat := if st % 8 = 7 then st - 1 else st + 1

/-- A compute die's fabric periphery and near PHY serve its stack: PD.1 and PD.3 are powered, the die is not fenced, and the
PHY is in service (R34, R193). -/
def State.ownPhy (s : State) (die : Nat) : Bool :=
  s.field die 0 0x048 1 1 == 1 && s.field die 0 0x048 3 3 == 1 && !s.flt.fenced.contains die
    && !s.flt.outOfService.contains (.stackPhy die)

/-- The fabric port of a stack is UP, and its alternate die carries traffic (R12, R13, R205). -/
def State.portReach (s : State) (st : Nat) : Bool :=
  s.field st 0x0F 0x058 1 0 == 2 && s.field (altDie st) 0 0x048 1 1 == 1 && !s.flt.fenced.contains (altDie st)

/-- A stack can be reached through its own die or its alternate die (R13). -/
def State.stackReach (s : State) (st : Nat) : Bool := s.ownPhy st || s.portReach st

/-- The memory of a compute slot answers by the way its translation names (R193). -/
def State.slotReach (s : State) (n : Nat) : Bool :=
  let x := s.xlat n
  if xPath x = 1 then s.portReach (xMs x) else s.ownPhy (xMs x)

/-- The slots in use: compute slots, then link, then hub slots (R50). -/
def State.usedSlots (s : State) : List Nat := (List.range 60).filter s.slotUsed

/-- The slot a die serves, if any. -/
def State.dieSlot (s : State) (die : Nat) : Option Nat :=
  if die < 48 then (List.range 48).find? (fun n => xValid (s.xlat n) && xCd (s.xlat n) == die)
  else if die < 60 then some die else none

def slotKind (sid : Nat) : Nat := if sid < 48 then 0 else if sid < 56 then 1 else 2
def slotNum (sid : Nat) : Nat := if sid < 48 then sid else if sid < 56 then sid - 48 else sid - 56
def sidOf (kind n : Nat) : Nat := if kind = 0 then n else if kind = 1 then 48 + n else 56 + n

/-- The partition of a die's units (R387, R393): its slot, a partition of its own for an idle spare, or none. -/
def State.partition (s : State) (die : Nat) : Nat :=
  match s.dieSlot die with
  | some sid => sid
  | none => if die < 48 then 100 + die else 999

/-- The module's ID (R476). -/
def State.moduleId (s : State) : Nat := s.field 60 0 0x380 63 48

/-- The die tag: the generation tag of the die's reset domain (R409, R410). -/
def State.dieTag (s : State) (die : Nat) : Nat := s.field die 0 0x030 7 0

/-- A die is fenced, unpowered or in reset (R485). The pages of management and ledger dies are served by the active die of
the pair (R480), so only a module reset or a loss of power takes them away. -/
def State.dieGone (s : State) (die : Nat) : Bool :=
  let svc := s.field die 0 0x040 3 0
  let module := s.flt.resetting.any (fun d => d == .module)
  if 60 ≤ die then module
  else
    s.flt.fenced.contains die || svc == 0 || svc == 4 || (module && die != 54 && die != 55)
      || s.flt.resetting.any (fun d => match d with
        | .die x => x == die
        | .linkDie x => x == die
        | .hub x => x == die
        | _ => false)

/-- DIE_STAT.SVC. -/
def State.setSvc (s : State) (die v : Nat) : State := s.setField die 0 0x040 3 0 v

/-- DIE_PD: powered domains and domains in retention. -/
def State.setPd (s : State) (die powered retention : Nat) : State :=
  s.wr die 0 0x048 (BitVec.ofNat 64 (retention * 2 ^ 32 + powered))

/-- The domains that a running die powers: all but test and debug, and on an idle spare PD.0 to PD.3. -/
def pdRun (die : Nat) : Nat :=
  if die < 48 then 0x7FFFF
  else if die < 54 then 0xFF
  else if die < 56 then 0x1FF
  else if die < 60 then 0x1F
  else if die < 62 then 0x3F
  else 0xF

/-- PD.2 and PD.17. -/
def pdRetention : Nat := 2 ^ 2 + 2 ^ 17

/-- The domains of a compute die in service, or of an idle spare (R421). -/
def State.pdService (s : State) (die : Nat) : State :=
  if die < 48 ∧ (s.dieSlot die).isNone then s.setPd die 0xF pdRetention else s.setPd die (pdRun die) 0

/-- A job is in the ledger (R348). -/
def State.jobIn (s : State) : Bool := s.ldg.job

/-- The newest step opened by any slot, as a step. -/
def State.openStep (s : State) : Step := s.ldg.newestOpened

/-! ## Memory (R186 to R189, R203, R208) -/

def stackBytes : Nat := 0xC_0000_0000
def pageBytes : Nat := 2 ^ 21

/-- What an unlisted memory byte reads as. -/
def memDflt (_ : Nat) : Byte := 0

/-- The address that serves a module physical address: a retired page is served from its pool page (R208). -/
def State.served (s : State) (pa : Nat) : Nat :=
  let st := pa / stackBytes
  let off := pa % stackBytes
  match s.mem.subst.find? (fun e => e.1 == st * 2 ^ 15 + off / pageBytes) with
  | some (_, pool) => st * stackBytes + pool * pageBytes + off % pageBytes
  | none => pa

/-- One byte of the near tier. -/
def State.ld (s : State) (pa : Nat) : Byte := SMap.get memDflt s.mem.stack (s.served pa)

/-- Replaces the bytes of the near tier. -/
def State.setStack (s : State) (m : SMap Byte) : State := { s with mem := { s.mem with stack := m } }

/-- Stores one byte of the near tier. -/
def State.st (s : State) (pa : Nat) (b : Byte) : State := s.setStack (SMap.set memDflt s.mem.stack (s.served pa) b)

/-- The page of the address map that a physical page serves (R208). -/
def State.servedPage (s : State) (stack page : Nat) : Nat :=
  match s.mem.subst.find? (fun e => e.1 / 2 ^ 15 == stack && e.2 == page) with
  | some e => e.1 % 2 ^ 15
  | none => page

/-- The offset of the address map at which a physical byte of a stack stands (R208). -/
def State.mapOff (s : State) (pa : Nat) : Nat :=
  s.servedPage (pa / stackBytes) (pa % stackBytes / pageBytes) * pageBytes + pa % pageBytes

/-- Writes listed bytes, each where `f` sends its address. -/
def layBytes (m l : SMap Byte) (f : Nat → Nat) : SMap Byte := l.foldl (fun m e => SMap.set memDflt m (f e.1) e.2) m

/-- Writes listed bytes, moved from address `a` to address `b`. -/
def moveBytes (m l : SMap Byte) (a b : Nat) : SMap Byte := l.foldl (fun m e => SMap.set memDflt m (e.1 - a + b) e.2) m

/-- The page of the address map that holds a module physical address: stack * 2^15 + page. -/
def pageOf (pa : Nat) : Nat := pa / stackBytes * 2 ^ 15 + pa % stackBytes / pageBytes

/-- A granule of the near tier is poisoned, or lies in a page whose data is lost (R203, R208). -/
def State.poisoned (s : State) (pa : Nat) : Bool := s.mem.poison.contains (s.served pa / 256) || s.mem.lost.contains (pageOf pa)

/-- Bytes of the near tier. -/
def State.ldN (s : State) (pa n : Nat) : List Byte := (List.range n).map (fun i => s.ld (pa + i))

/-- Stores a run of bytes, byte by byte. -/
def State.stRun (s : State) (pa : Nat) : List Byte → State
  | [] => s
  | b :: bs => (s.st pa b).stRun (pa + 1) bs

/-- Granules that a run of `n` bytes from `pa` covers in full. -/
def fullGranules (pa n : Nat) : List Nat :=
  ((List.range (n / 256 + 2)).map (fun i => pa / 256 + i)).filter
    (fun g => decide (pa ≤ 256 * g) && decide (256 * g + 256 ≤ pa + n))

/-- Stores a run of bytes; a granule written in full loses its poison (R203). -/
def State.stN (s : State) (pa : Nat) (bs : List Byte) : State :=
  let t := s.stRun pa bs
  let gs := (fullGranules pa bs.length).map (fun g => s.served (256 * g) / 256)
  { t with mem := { t.mem with poison := t.mem.poison.filter (fun g => !gs.contains g) } }

/-- Some granule of a run of bytes is poisoned. -/
def State.poisonIn (s : State) (pa n : Nat) : Bool :=
  (List.range (n / 256 + 2)).any (fun i =>
    decide (256 * (pa / 256 + i) < pa + n) && s.poisoned (256 * (pa / 256 + i)))

/-- The region sizes of a stack, in GiB: live, crucible, spare (R188, R217). -/
def State.crucGib (s : State) (st : Nat) : Nat := s.field st 0x0F 0x040 19 16
def State.spareGib (s : State) (st : Nat) : Nat := s.field st 0x0F 0x040 28 24
def State.liveBytes (s : State) (st : Nat) : Nat := (48 - s.crucGib st - s.spareGib st) * 2 ^ 30
def State.pstride (s : State) (st : Nat) : Nat := s.field st 0x0F 0x040 47 36 * pageBytes

/-- Where a stack's plan area starts: the active half (R48, R189). -/
def State.planArea (s : State) (st : Nat) : Nat := st * stackBytes + s.liveBytes st - 2 ^ 28

/-- A slot still runs the generation before the last swap: its open step precedes the boundary, and its images are those
of the LOCKED set (R53, R55). -/
def State.onLocked (s : State) (sid : Nat) : Bool :=
  let r := s.slot sid
  s.plan.shadow == .locked && r.phase != .idle && r.gen == s.plan.shadowGen && r.gen != s.plan.activeGen

/-- One byte of a slot's image: of the set the slot runs, or of the shadow set (R48, R55). -/
def State.imgByte (s : State) (sid : Nat) (shadow : Bool) (off : Nat) : Byte :=
  let shadow := shadow || s.onLocked sid
  if s.plan.carrying.contains sid then SMap.get memDflt s.plan.carried (sid * 2 ^ 28 + (if shadow then 2 ^ 27 else 0) + off)
  else if sid < 48 then s.ld (s.planArea (s.slotStack sid) + (if shadow then 2 ^ 27 else 0) + off)
  else SMap.get (fun _ => 0) s.plan.store ((if shadow then 2 ^ 34 else 0) + sid * 2 ^ 28 + off)

/-- Bytes of a slot's image. -/
def State.img (s : State) (sid : Nat) (shadow : Bool) (off n : Nat) : List Byte :=
  (List.range n).map (fun i => s.imgByte sid shadow (off + i))

/-- A little-endian number of a slot's image. -/
def State.imgNat (s : State) (sid : Nat) (shadow : Bool) (off n : Nat) : Nat := leNat (s.img sid shadow off n)

/-- A 64-bit word of a slot's image. -/
def State.imgWord (s : State) (sid : Nat) (shadow : Bool) (off : Nat) : Word :=
  BitVec.ofNat 64 (s.imgNat sid shadow off 8)

/-- Stores bytes of a slot's shadow image (or active image, when reloaded). -/
def State.setImg (s : State) (sid : Nat) (shadow : Bool) (off : Nat) (bs : List Byte) : State :=
  if s.plan.carrying.contains sid then
    { s with plan := { s.plan with
      carried := SMap.setRun memDflt s.plan.carried (sid * 2 ^ 28 + (if shadow then 2 ^ 27 else 0) + off) bs } }
  else if sid < 48 then s.stN (s.planArea (s.slotStack sid) + (if shadow then 2 ^ 27 else 0) + off) bs
  else
    let m := SMap.setRun (fun _ => 0) s.plan.store ((if shadow then 2 ^ 34 else 0) + sid * 2 ^ 28 + off) bs
    { s with plan := { s.plan with store := m } }

/-! ## What the module sends -/

def State.send (s : State) (x : Sent) : State := { s with sent := s.sent ++ [x] }

/-- A port record and its update. -/
def State.port (s : State) (p : Nat) : PortState := SMap.get (fun _ => {}) s.link.ports p
def State.setPort (s : State) (p : Nat) (x : PortState) : State :=
  { s with link := { s.link with ports := SMap.set (fun _ => {}) s.link.ports p x } }

/-- The link state of a port, numbered as BRZ_STATE.STATE (R234, R243). -/
def State.portPhase (s : State) (p : Nat) : Nat :=
  if p < 48 then s.field (48 + p / 6) (0x18 + p % 6) 0x060 15 12 else (s.port p).cpPhase

/-- A port is UP. -/
def State.portUp (s : State) (p : Nat) : Bool := s.portPhase p == 5

/-- The port number of a control port's link. -/
def pathPort : Path → Nat
  | .cpB => 49
  | _ => 48

/-- The STATUS of a control port (R275, R296): 0 NOT_READY, 1 READY, 2 KEY_PENDING. -/
def State.cpStatus (s : State) (p : Path) : Nat := s.field (pathDie p) 0x1E 0x040 1 0

/-- The port on which the module sends events and its own requests: CP.A, or CP.B while CP.A is not UP (R286). -/
def State.evtPort (s : State) : Path := if s.portUp 48 then .cpA else .cpB

/-- A frame's 32-byte header (R276). -/
def frameHeader (f : Frame) : List Byte :=
  leBytes 1 f.typ ++ leBytes 1 f.flags ++ leBytes 2 f.rsv ++ leBytes 4 f.tag ++ leBytes 8 f.addr ++ leBytes 4 f.len
    ++ leBytes 4 f.status ++ leBytes 8 f.aux

/-- Sends a frame on a path. In confidential mode a control port's frame other than KEY_EXCHANGE is sealed under the
session's keys, and none is sent while no session stands (R289). -/
def State.sendFrame (s : State) (p : Path) (f : Frame) : State :=
  match p with
  | .mgmt => s.send (.frame p f)
  | .firmware => s
  | _ =>
    if s.sec.conf && f.typ != 0x0B then
      match s.ctl.session with
      | none => s
      | some k =>
        let g := { f with flags := 1, counter := k.txc }
        let iv := bytesAt k.keys 68 4 ++ leBytes 8 k.txc
        let g := { g with data := gcmSeal (bytesAt k.keys 32 32) iv (frameHeader g) f.data }
        ({ s with ctl := { s.ctl with session := some { k with txc := k.txc + 1 } } }.send (.frame p g)).bump (pathDie p) 0x1E 0xC08
    else (s.send (.frame p f)).bump (pathDie p) 0x1E 0xC08

/-! ## Events (R286, R502) -/

def Event.bytes (e : Event) : List Byte :=
  leBytes 8 e.seq ++ leBytes 2 e.typ ++ zeros 2 ++ leBytes 4 e.subject ++ leBytes 8 e.step.toNat ++ leBytes 8 e.arg.toNat
    ++ e.body

def Event.frame (e : Event) : Frame :=
  { typ := 0x09, addr := e.seq, len := e.bytes.length, data := e.bytes, tag := 2 ^ 31 + e.seq % 2 ^ 31 }

/-- The active management die runs firmware. -/
def State.firmwareUp (s : State) : Bool :=
  ((s.sec.dies[s.sec.active]?).bind (fun d => d.running)).isSome

/-- A control port can send a frame of the module's own: it is UP and READY (R275, R286). -/
def State.portOpen (s : State) (p : Path) : Bool := s.portUp (pathPort p) && s.cpStatus p == 1

/-- Sends one queued event on the control port in use and on the management port (R286, R291). -/
def State.sendEvent (s : State) (e : Event) : State :=
  let t := if s.portOpen s.evtPort then s.sendFrame s.evtPort e.frame else s
  if t.firmwareUp && !t.sec.handover then t.sendFrame .mgmt e.frame else t

/-- An event of a type that may be replaced when the queue is full. -/
def Event.replaceable (e : Event) : Bool := e.typ == 0x10 || e.typ == 0x11

/-- Drops the oldest queued event that satisfies `f`. -/
def dropFirst (f : Event → Bool) : List Event → List Event
  | [] => []
  | e :: es => if f e then es else e :: dropFirst f es

/-- Queues and sends an event. With 256 events unacknowledged, a STEP event takes the place of the oldest of its own
type and any other event that of the oldest STEP event; the replaced one is counted for EVENTS_LOST (R286, R297). -/
def State.event (s : State) (typ subject : Nat) (step : Word) (arg : Word) (body : List Byte := []) : State :=
  let e : Event := { seq := s.ctl.nextEvt, typ := typ, subject := subject, step := step, arg := arg, body := body }
  let q := s.ctl.events
  let full := decide (256 ≤ q.length)
  let hit (x : Event) : Bool := if e.replaceable then x.typ == typ else x.replaceable
  let repl := full && q.any hit
  let q' := if repl then dropFirst hit q else q
  let c := { s.ctl with events := q' ++ [e], nextEvt := s.ctl.nextEvt + 1, lost := s.ctl.lost + (if repl then 1 else 0) }
  let t := { s with ctl := c }
  ((t.wr 54 0x1E 0x050 (BitVec.ofNat 64 c.nextEvt)).wr 55 0x1E 0x050 (BitVec.ofNat 64 c.nextEvt)).sendEvent e

/-! ## Steps of slots -/

/-- The step word a record or event shows for a slot: its open step, or 0 with no job (R397). -/
def State.stepOf (s : State) (sid : Nat) : Word := if s.jobIn then stepWord (s.slot sid).step else 0

/-- The ledger's record of a step. -/
def State.stepRec (s : State) (n : Step) : Option StepRec := s.ldg.recs.find? (fun r => r.step == n)

/-- Replaces the ledger's record of a step. -/
def State.setRec (s : State) (r : StepRec) : State :=
  { s with ldg := { s.ldg with recs := s.ldg.recs.map (fun x => if x.step == r.step then r else x) } }

/-! ## Records (R397, R398) -/

/-- The class of a code where the code alone fixes it (R398). -/
def codeClass (c : Nat) : Nat :=
  if 0x0100 ≤ c ∧ c ≤ 0x0106 then 3
  else if 0x0110 ≤ c ∧ c ≤ 0x0112 then 2
  else if c = 0x0200 then 3
  else if 0x0201 ≤ c ∧ c ≤ 0x0214 then 2
  else if c = 0x0300 then 0
  else if c = 0x0301 ∨ c = 0x0302 then 3
  else if c = 0x0303 then 2
  else if c = 0x0304 then 4
  else if c = 0x0310 then 3
  else if c = 0x0311 ∨ c = 0x0312 then 1
  else if c = 0x0313 then 4
  else if c = 0x0400 then 0
  else if c = 0x0401 ∨ c = 0x0402 then 1
  else if 0x0403 ≤ c ∧ c ≤ 0x0405 then 3
  else if c = 0x0406 ∨ c = 0x0407 then 1
  else if c = 0x0410 then 0
  else if c = 0x0411 then 3
  else if c = 0x0500 then 0
  else if c = 0x0501 then 2
  else if c = 0x0502 ∨ c = 0x0503 then 1
  else if c = 0x0504 then 2
  else if c = 0x0505 then 0
  else if c = 0x0506 ∨ c = 0x0507 then 3
  else if c = 0x0508 ∨ c = 0x0509 then 2
  else if c = 0x0600 then 0
  else if c = 0x0601 then 1
  else if c = 0x0602 then 2
  else if c = 0x0603 then 1
  else if c = 0x0604 then 2
  else if c = 0x0700 then 3
  else if c = 0x0701 ∨ c = 0x0702 then 2
  else if c = 0x0703 then 3
  else if c = 0x0704 ∨ c = 0x0706 then 1
  else if c = 0x0705 ∨ c = 0x0707 then 4
  else 2

/-- The record of R397 with words 0 to 7, CHECK included. -/
def FaultRec.bytes (r : FaultRec) : List Byte :=
  let w0 := inFld 63 56 1 + inFld 55 53 r.cls + inFld 52 52 (if r.escalated then 1 else 0) + inFld 47 32 r.code
    + inFld 31 24 r.merged + inFld 23 0 r.seq
  let w1 := inFld 63 58 r.die + inFld 57 50 r.typ + inFld 49 42 r.inst + inFld 41 32 r.sub + inFld 31 16 r.module
  let w3 := inFld 63 40 r.op + inFld 39 32 r.slot + inFld 31 26 r.eclass + inFld 23 16 r.tag
  let w4 := inFld 63 58 r.die + inFld 57 52 r.island + inFld 51 0 r.count
  let w5 := inFld 63 48 r.temp + inFld 47 32 r.vdd + inFld 31 30 r.bin + inFld 29 26 r.activity
  let low := inFld 31 16 r.lastCode + inFld 15 13 r.lastClass
  let b60 := leBytes 8 w0 ++ leBytes 8 w1 ++ leBytes 8 r.step.toNat ++ leBytes 8 w3 ++ leBytes 8 w4 ++ leBytes 8 w5
    ++ leBytes 8 r.detail.toNat ++ leBytes 4 low
  b60 ++ leBytes 4 (crc32c b60).toNat

/-- Where a fault lies: block type, instance and sub-unit (R397). -/
structure Site where
  typ : Nat := 0x01
  inst : Nat := 0
  sub : Nat := 0
  op : Nat := 0xFFFFFF
  eclass : Nat := 0
  detail : Word := 0
  cond : Cond := {}
  entry : List Byte := []
  /-- The step concerned, where it is not the open step of the unit's slot. -/
  step : Option Word := none
  deriving DecidableEq, Repr

/-- The record that a die forms for a fault: step, slot, tag and bin of its slot, island count and activity as free
values where the spec gives the module no value for them (R397, R399). -/
def State.mkRec (s : State) (die code cls : Nat) (x : Site) : FaultRec :=
  let part := s.partition die
  let sid := if part < 60 then part else 60
  { cls := cls, code := code, die := die, typ := x.typ, inst := x.inst, sub := x.sub, detail := x.detail,
    step := x.step.getD (if sid < 60 then s.stepOf sid else if s.jobIn then stepWord s.ldg.newestOpened else 0),
    op := x.op, slot := if sid < 60 then slotKind sid * 64 + slotNum sid else 0xFF, eclass := x.eclass,
    tag := s.dieTag die, count := (Config.islandCount s.free).toNat,
    temp := (BitVec.ofInt 16 x.cond.temp).toNat, vdd := x.cond.vdd,
    bin := SMap.get (fun _ => 2) s.pwr.bins die, activity := x.cond.activity, module := s.moduleId, part := part,
    entry := x.entry }

/-- Puts a record into its die's collector (R396): every occurrence of the code is counted; with 32 records waiting a
CORRECTED one is counted only, and a higher class is held until a place is free. -/
def State.collect (s : State) (r : FaultRec) : State :=
  let q := SMap.get (fun _ => []) s.flt.collectors r.die
  let n := SMap.get (fun _ => 0) s.flt.counts r.code
  let f := { s.flt with counts := SMap.set (fun _ => 0) s.flt.counts r.code (n + 1) }
  let f := if r.cls = 0 ∧ 32 ≤ q.length then f
    else { f with collectors := SMap.set (fun _ => []) f.collectors r.die (q ++ [r]) }
  { s with flt := f, free := s.free + 1 }

/-- The reset counted value and newest snapshot's number are kept with the faults; a part leaves service. -/
def State.outOfService (s : State) (d : Domain) : State :=
  if s.flt.outOfService.contains d then s
  else { s with flt := { s.flt with outOfService := s.flt.outOfService ++ [d] } }

end Sys2Proof.Machine
end

