-- ==== Sys2Proof/Machine/Net.lean ====
section
/-!
DEFINITION. Sending messages between modules (R244 to R252), ledger notices over the seal tree (R340, R341, R354), the
change of a slot-step to REPLAYING (R331), and the raising of faults (R392 to R396).
-/

namespace Sys2Proof.Machine

/-! ## Messages and flits -/

/-- The 48-byte message header (R244). -/
def msgHeader (m : Msg) : List Byte :=
  leBytes 2 m.dst ++ leBytes 2 m.src ++ leBytes 1 m.kind ++ leBytes 1 m.hops ++ leBytes 1 m.gen ++ leBytes 1 m.flags
    ++ leBytes 8 (stepWord m.step).toNat ++ leBytes 8 m.xfer ++ leBytes 4 m.seg ++ leBytes 4 m.len ++ leBytes 8 m.addr
    ++ leBytes 4 m.sync ++ leBytes 4 m.aux

def msgBytes (m : Msg) : List Byte := msgHeader m ++ m.data

/-- The message that a byte string spells, as it came on a VC (R244). -/
def msgOf (vc : Nat) (bs : List Byte) : Msg :=
  { dst := natAt bs 0 2, src := natAt bs 2 2, kind := natAt bs 4 1, hops := natAt bs 5 1, gen := natAt bs 6 1,
    flags := natAt bs 7 1, step := wordStep (BitVec.ofNat 64 (natAt bs 8 8)), xfer := natAt bs 0x10 8,
    seg := natAt bs 0x18 4, len := natAt bs 0x1C 4, addr := natAt bs 0x20 8, sync := natAt bs 0x28 4,
    aux := natAt bs 0x2C 4, data := bs.drop 48, vc := vc }

/-- The 64-bit flit header (R223). -/
def flitHeader (f : Flit) : Nat :=
  inFld 63 60 f.typ + inFld 59 57 f.vc + inFld 56 56 (if f.som then 1 else 0) + inFld 55 55 (if f.eom then 1 else 0)
    + inFld 54 43 f.seq + inFld 42 31 f.ackseq + inFld 30 29 f.ackk + inFld 28 26 f.crvc + inFld 25 14 f.crcnt
    + inFld 13 6 f.len + inFld 5 0 f.epoch

/-- Bytes 0 to 251 of a flit: header, payload, zeros. -/
def flitBody (f : Flit) : List Byte := leBytes 8 (flitHeader f) ++ bytesAt f.payload 0 244

/-- The CRC word a sender puts into bytes 252 to 255 (R224). -/
def flitCrc (f : Flit) : Nat := (crc32c (flitBody f)).toNat

/-- Payload pieces of 244 bytes; fuel is the byte count. -/
def pieces244 : Nat → List Byte → List (List Byte)
  | 0, _ => []
  | _ + 1, [] => []
  | n + 1, bs => bs.take 244 :: pieces244 n (bs.drop 244)

/-- Marks the first and last of a run of payloads as SOM and EOM flits of a VC. -/
def markFlits (vc : Nat) (first : Bool) : List (List Byte) → List Flit
  | [] => []
  | [b] => [{ typ := 1, vc := vc, som := first, eom := true, len := b.length, payload := b }]
  | b :: c :: bs => { typ := 1, vc := vc, som := first, eom := false, len := b.length, payload := b }
      :: markFlits vc false (c :: bs)

/-- The DATA flits of a byte string on a VC: 244 payload bytes each (R223, R244). -/
def dataFlits (vc : Nat) (bs : List Byte) : List Flit := markFlits vc true (pieces244 bs.length bs)

/-- Puts the flits of a message on a port's ready queue. -/
def State.enqueue (s : State) (p vc : Nat) (bs : List Byte) : State :=
  let x := s.port p
  s.setPort p { x with
    ready := listSet x.ready vc ((x.ready.getD vc []) ++ dataFlits vc bs), inFlight := x.inFlight ++ [(vc, bs)] }

/-! ## Routes (R247 to R250) -/

/-- A route entry of a link die; at reset all ones. -/
def State.route (s : State) (die dst : Nat) : Word :=
  SMap.get (fun _ => BitVec.ofNat 64 (2 ^ 64 - 1)) s.net.routes (die * 2 ^ 16 + dst)

/-- The ports an entry lists for striping, in list order. -/
def stripePorts (e : Word) : List Nat :=
  ((List.range (fld e 51 49 + 1)).map (fun i => fld e (6 * i + 5) (6 * i))).filter (fun p => decide (p < 48))

/-- The port by which a message leaves a link die now, if any (R249, R250). -/
def State.portFor (s : State) (die : Nat) (m : Msg) : Option Nat :=
  let e := s.route die m.dst
  if m.vc = 3 then
    let a := fld e 63 58
    let b := fld e 57 52
    if a < 48 && s.portUp a then some a
    else if b < 48 && s.portUp b then some b
    else none
  else
    let up := (stripePorts e).filter s.portUp
    up[m.seg % (if up.length = 0 then 1 else up.length)]?

/-- A segment of a PUT has been handed to a port. -/
def State.segmentLeaves (s : State) (m : Msg) (p : Nat) : State :=
  if m.kind ≠ 1 ∨ m.src ≠ s.moduleId then s
  else
    let hit (g : Segment) : Bool := g.msg.xfer == m.xfer && g.msg.seg == m.seg && g.msg.dst == m.dst && decide (g.msg.step = m.step)
    { s with net := { s.net with segments := s.net.segments.map (fun g => if hit g then { g with port := p } else g) } }

/-- Sends a message from a link die, or lets it wait for a port (R249, R250). -/
def State.sendMsg (s : State) (die : Nat) (m : Msg) : State :=
  match s.portFor die m with
  | some p => (s.segmentLeaves m p).enqueue p m.vc (msgBytes m)
  | none => { s with net := { s.net with waiting := s.net.waiting ++ [(die, m)] } }

/-! ## Stream trackers (R44, R45) -/

/-- The entries of a die: a hub die's are those of its request table (R44). -/
def trackLimit (die : Nat) : Nat := if die < 48 then 32768 else if die < 56 then 65536 else 8192

/-- The entries of a die in use. -/
def State.tracked (s : State) (die : Nat) : Nat := (s.net.tracker.filter (fun x => x.die == die)).length

/-- A die has `n` entries free. -/
def State.trackRoom (s : State) (die n : Nat) : Bool := decide (s.tracked die + n ≤ trackLimit die)

/-- Requests take their entries. -/
def State.track (s : State) (l : List Track) : State := { s with net := { s.net with tracker := s.net.tracker ++ l } }

/-- A request that a message carries: it is sent when its die has an entry free, and waits otherwise (R45). -/
def State.request (s : State) (x : Track) (m : Msg) : State :=
  if s.trackRoom x.die 1 && s.net.queued.all (fun q => q.1.die != x.die) then (s.track [x]).sendMsg x.die m
  else { s with net := { s.net with queued := s.net.queued ++ [(x, m)] } }

/-- Entries end, and requests that waited for one are sent in their order. -/
def State.untrack (s : State) (f : Track → Bool) : State :=
  let t := { s with net := { s.net with tracker := s.net.tracker.filter (fun x => !f x), queued := [] } }
  forEach s.net.queued (fun q u => u.request q.1 q.2) t

/-- Messages that wait for a port leave as soon as one is UP (R249, R250). -/
def State.flushWaiting (s : State) : State :=
  forEach s.net.waiting (fun e t => t.sendMsg e.1 e.2) { s with net := { s.net with waiting := [] } }

def pairDflt (_ : Nat) : PairState := {}

/-- Sends a message on VC.3 with the sending epoch and the next pair sequence number (R252). -/
def State.sendVc3 (s : State) (die : Nat) (m : Msg) : State :=
  let pr := SMap.get pairDflt s.net.pairs m.dst
  let seg := s.net.epoch * 2 ^ 24 + pr.sendNext % 2 ^ 24
  let pr' := { pr with sendNext := (pr.sendNext + 1) % 2 ^ 24 }
  let t := { s with net := { s.net with pairs := SMap.set pairDflt s.net.pairs m.dst pr' } }
  t.sendMsg die { m with vc := 3, seg := seg }

/-- The link die through which the ledger's own messages leave. -/
def ledgerDie : Nat := 48

/-- A LEDGER message of this module (R340). -/
def State.ledgerMsg (s : State) (dst typ : Nat) (st : Step) (body : List Byte) : State :=
  s.sendVc3 ledgerDie
    { dst := dst, src := s.moduleId, kind := 7, gen := s.dieTag ledgerDie, step := st, aux := typ,
      len := body.length, data := body }

/-- The parent in the seal tree; 0xFFFF at the root (R339). -/
def State.sealParent (s : State) : Nat := s.field 62 0x20 0x048 31 16
def State.isRoot (s : State) : Bool := s.sealParent == 0xFFFF
def State.sealChildren (s : State) : Nat := s.field 62 0x20 0x048 6 0

/-- Sends a notice over the tree, to the parent and to the children, except to the module it came from (R341). -/
def State.treeSend (s : State) (typ : Nat) (step : Step) (body : List Byte) (except : Nat := 0xFFFF) : State :=
  let tgt := (if s.isRoot then [] else [s.sealParent]) ++ s.ldg.children
  forEach (tgt.filter (fun m => m != except)) (fun m t => t.ledgerMsg m typ step body) s

/-! ## Replay (R331, R349, R354) -/

/-- The body of a REPLAY notice (R340). -/
def replayBody (origin sid id ext tag gran : Nat) : List Byte :=
  leBytes 2 origin ++ leBytes 1 (if gran = 2 then 0xFF else slotKind sid) ++ leBytes 1 (if gran = 2 then 0xFF else slotNum sid)
    ++ leBytes 4 id ++ leBytes 4 ext ++ leBytes 1 tag ++ leBytes 1 gran ++ zeros 2

/-- Sends a REPLAY notice with a new replay ID: elapsed time plus the allowance (R354). -/
def State.notice (s : State) (sid : Nat) (step : Step) (allow gran : Nat) (withElapsed : Bool := true) : State :=
  let id := s.flt.nextReplay
  let ext := (if withElapsed then (Config.elapsedMs s.free).toNat else 0) + allow
  let t := s.treeSend 0x04 step (replayBody s.moduleId sid id ext 0 gran)
  { t with flt := { t.flt with nextReplay := id + 1 }, free := t.free + 1,
           ldg := { t.ldg with ownNotices := t.ldg.ownNotices ++ [(sid, step, id)] } }

/-- Sends the last notice of a slot-step again with the new tag and the same replay ID; it adds no extension (R354). -/
def State.noticeTag (s : State) (sid tag : Nat) : State :=
  match s.ldg.ownNotices.reverse.find? (fun n => n.1 == sid && n.2.1 == (s.slot sid).step) with
  | none => s
  | some (_, st, id) => s.treeSend 0x04 st (replayBody s.moduleId sid id 0 tag 0)

/-- What a slot's abandoned attempt had on its way: segments, fetches, pulls, DMA requests, far-tier requests and disputes. -/
def State.dropAttempt (s : State) (sid : Nat) : State :=
  { s with
    net := { s.net with
      tracker := s.net.tracker.filter (fun x => x.sid != sid), queued := s.net.queued.filter (fun x => x.1.sid != sid),
      segments := s.net.segments.filter (fun g => g.sid != sid), fetches := s.net.fetches.filter (fun f => f.1 != sid) },
    ctl := { s.ctl with
      pulls := s.ctl.pulls.filter (fun p => p.sid != sid || p.init), dma := s.ctl.dma.filter (fun d => d.sid != sid) },
    mem := { s.mem with
      farOps := s.mem.farOps.filter (fun f => f.1 != sid), heldWrites := s.mem.heldWrites.filter (fun h => h.sid != sid) },
    units := { s.units with disputes := s.units.disputes.filter (fun d => d.sid != sid) },
    flt := { s.flt with suspects := s.flt.suspects.filter (fun x => x.1 != sid) } }

/-- The ledger holds an unsealed record of a step: its shares can be replayed. -/
def State.replayable (s : State) (n : Step) : Bool :=
  match s.stepRec n with
  | none => false
  | some rec => rec.phase != .sealed && rec.phase != .released

/-- A slot-step becomes REPLAYING (R330, R331): its run stops, no strand of it is resident any more (R181), the module-step follows, and UNCHECK is sent when
CHECKED was. -/
def State.toReplaying (s : State) (sid : Nat) : State :=
  let r := s.slot sid
  match s.stepRec r.step with
  | none => s
  | some rec =>
    if r.phase = .idle ∨ r.phase = .replaying ∨ rec.phase = .sealed ∨ rec.phase = .released then s
    else
      let t := (s.dropAttempt sid).setSlot sid { r with phase := .replaying, replays := r.replays + 1, ops := [], resetBegun := false }
      let t := if sid < 48 then forN 4 (fun u x => x.setField (x.slotDie sid) (0x09 + u) 0x050 13 0 0) t else t
      let t := t.bump 62 0x20 0xC08
      let t := if rec.sent && !t.isRoot then t.ledgerMsg t.sealParent 0x02 r.step [] else t
      t.setRec { rec with
        phase := .replaying, sent := false,
        replaying := NSet.add rec.replaying sid, computed := rec.computed.filter (fun x => x != sid),
        verifies := rec.verifies.filter (fun v => v.1 != sid), puts := rec.puts.filter (fun v => v.1 != sid) }

/-- A second fault on a slot that is REPLAYING: the replay starts over, and REPLAY_MAX counts both (R364). -/
def State.faultAgain (s : State) (sid : Nat) : State :=
  let r := s.slot sid
  if r.phase = .replaying then s.setSlot sid { r with replays := r.replays + 1 } else s

/-- A die-step replay of one slot with its notice (R349, R354). -/
def State.replaySlot (s : State) (sid allow : Nat) : State :=
  let r := s.slot sid
  if !s.jobIn || r.phase == .idle || r.phase == .replaying || !s.replayable r.step then s
  else (s.toReplaying sid).notice sid r.step allow 0

/-- A slot has gone back to step `st`: what it had done of every later unsealed module-step is undone, and a CHECKED sent for
one is withdrawn (R331, R344, R349). -/
def State.backRecs (s : State) (sid : Nat) (st : Step) : State :=
  let back (rec : StepRec) : StepRec :=
    { rec with
      phase := .opened, sent := false, opened := rec.opened.filter (fun x => x != sid),
      computed := rec.computed.filter (fun x => x != sid), replaying := rec.replaying.filter (fun x => x != sid),
      verifies := rec.verifies.filter (fun v => v.1 != sid), puts := rec.puts.filter (fun v => v.1 != sid),
      deferred := rec.deferred.filter (fun v => v.1 != sid) }
  let hit (rec : StepRec) : Bool := decide (st < rec.step) && rec.phase != .sealed && rec.phase != .released
  let t := forEach (s.ldg.recs.filter (fun rec => hit rec && rec.sent && !s.isRoot)) (fun rec u =>
    u.ledgerMsg u.sealParent 0x02 rec.step []) s
  { t with ldg := { t.ldg with recs := t.ldg.recs.map (fun rec => if hit rec then back rec else rec) } }

/-- A slot that has opened step `st` or a later one goes back to it and replays it. -/
def State.goBack (s : State) (sid : Nat) (st : Step) : State :=
  let r := s.slot sid
  if r.phase = .idle ∨ r.step < st ∨ !s.replayable st then s
  else
    let back := decide (st < r.step)
    ((s.backRecs sid st).setSlot sid { r with
      step := st, passed := st - 1, phase := .opened, replays := if back = true then 0 else r.replays,
      redo := if back = true ∧ r.redo < r.step then r.step else r.redo }).toReplaying sid

/-- A module-step replay from step `st`: every slot of the module that has opened it goes back to it (R349). -/
def State.replayModule (s : State) (sid : Nat) (st : Step) (allow : Nat) : State :=
  (forEach s.usedSlots (fun n t => t.goBack n st) s).notice sid st allow 1

/-- A slot's share of step `st` is replayed, with its notice (R349, R354): the slot goes back to the step when it has gone past
it; the notice alone, which makes the senders resend, when it has not opened the step yet. -/
def State.replayShare (s : State) (sid : Nat) (st : Step) : State :=
  let r := s.slot sid
  if !s.jobIn || 60 ≤ sid || (r.phase == .replaying && decide (r.step = st)) then s
  else if r.phase = .idle ∨ r.step < st then s.notice sid st 25 0
  else if !s.replayable st then s
  else if sid < 48 then (s.goBack sid st).notice sid st 25 0
  else s.replayModule sid st (if sid < 56 then 50 else 30)

/-! ## Raising a fault (R392 to R396) -/

/-- A slot stops issuing until a reset of its partition completes (R392). -/
def State.stopSlot (s : State) (sid : Nat) : State := s.setSlot sid { s.slot sid with stopped := true }

/-- A partition cannot continue: it stops issuing and its slot-step becomes REPLAYING; a link or hub partition takes the
module's step with it (R349, R392). -/
def State.partitionFatal (s : State) (part : Nat) : State :=
  if part < 48 then ((s.faultAgain part).replaySlot part 25).stopSlot part
  else if part < 60 then
    let r := s.slot part
    (if !s.jobIn || r.phase == .idle then s else s.replayModule part r.step (if part < 56 then 50 else 30)).stopSlot part
  else s

/-- The module cannot continue: the FAULT pair shows FAULT and every slot stops issuing (R401, R414). -/
def State.moduleFatal (s : State) : State :=
  let t := { s with flt := { s.flt with pair := .fault } }
  (forEach s.usedSlots (fun n u => u.setSlot n { u.slot n with stopped := true }) t).send (.pin .fault 1)

/-- Raises a fault of a stated class at a die (R392, R396). -/
def State.raiseAs (s : State) (die code cls : Nat) (x : Site := {}) : State :=
  let r := s.mkRec die code cls x
  let t := s.collect r
  if cls = 3 then t.partitionFatal r.part else if cls = 4 then t.moduleFatal else t

/-- Raises a fault of the class its code fixes (R398). -/
def State.raise (s : State) (die code : Nat) (x : Site := {}) : State := s.raiseAs die code (codeClass code) x

/-- PARTITION_FATAL records close when recovery reaches rung 7 (R395). -/
def State.closeFatal (s : State) : State :=
  let close (r : FaultRec) : FaultRec := if r.cls = 3 then { r with isOpen := false } else r
  { s with flt := { s.flt with log := s.flt.log.map close } }

/-- The repeat of a fault at the same op index in the replay reports PLAN_DEFECT and takes rung 7 (R47, R273, R311):
slots hold. -/
def State.rung7 (s : State) (code seq : Nat) : State :=
  let body := (List.range 3).flatMap (fun i => leBytes 8 (s.rd 62 0x20 (0x228 + 8 * i)).toNat)
  let t := s.closeFatal.event 0x0015 code (s.rd 62 0x20 0x078) (BitVec.ofNat 64 seq) body
  forEach s.usedSlots (fun n u => u.setSlot n { u.slot n with stopped := true }) t

/-- A fault of a slot's plan (R47, R270, R273, R311): PARTITION_FATAL of the die, or PLAN_DEFECT and rung 7 when the
same code struck the same op in the run before. -/
def State.raisePlan (s : State) (sid code op : Nat) (x : Site := {}) : State :=
  let r := s.slot sid
  let die := s.slotDie sid
  if r.lastFault = some (code, op) then (s.raise die 0x0201 { x with op := op }).rung7 0x0201 s.flt.nextSeq
  else (s.setSlot sid { r with lastFault := some (code, op) }).raise die code { x with op := op }

end Sys2Proof.Machine
end

