-- ==== Sys2Proof/Machine/Braze.lean ====
section
/-!
DEFINITION. Braze ports and the control-port links (R220 to R241, R275): flits, retry, credits, widths and bring-up.
Ports 0 to 47 are Braze ports, 48 and 49 the control ports.
-/

namespace Sys2Proof.Machine

def portOk (p : Nat) : Bool := decide (p < 50)
def brzDie (p : Nat) : Nat := if p < 48 then 48 + p / 6 else 54 + (p - 48)
def brzBlk (p : Nat) : Nat := if p < 48 then 0x18 + p % 6 else 0x1E

/-- Where a fault of a port is (R397). -/
def brzSite (p : Nat) : Site := { typ := if p < 48 then 0x10 else 0x11, inst := if p < 48 then p % 6 else p - 48 }

/-- The optical engine of a port, 2n + e for LD.n/OE.e (R19, R292). -/
def engineOf (p : Nat) : Nat := if p < 48 then 2 * (p / 6) + (if p % 6 < 3 then 0 else 1) else 2 * (6 + (p - 48)) + 1

/-- Enters a state of BRZ_STATE.STATE. -/
def State.setPhase (s : State) (p n : Nat) : State :=
  if p < 48 then s.setField (brzDie p) (brzBlk p) 0x060 15 12 n
  else s.setPort p { s.port p with cpPhase := n }

/-- A counter of a Braze port's page; control ports have none of them. -/
def State.portBump (s : State) (p off : Nat) (n : Nat := 1) : State :=
  if p < 48 then s.bump (brzDie p) (brzBlk p) off n else s

def State.epoch (s : State) (p : Nat) : Nat := if p < 48 then s.field (brzDie p) (brzBlk p) 0x060 37 32 else 0

/-- The loopback depth selected (R239). -/
def State.loopSel (s : State) (p : Nat) : Nat := if p < 48 then s.field (brzDie p) (brzBlk p) 0x040 14 12 else 0
def State.enabled (s : State) (p : Nat) : Bool := if p < 48 then s.field (brzDie p) (brzBlk p) 0x040 16 16 == 1 else true

/-- The receive-buffer size of a VC (R229, R275). -/
def vcBuffer (p vc : Nat) : Nat :=
  if 48 ≤ p then (if vc = 0 then 512 else 0)
  else if vc = 2 then 2048 else if vc = 3 then 128 else 1536

/-- Credits the sender holds on a VC (R229). -/
def PortState.credits (x : PortState) (p vc : Nat) : Nat := vcBuffer p vc + x.peerFreed.getD vc 0 - x.sent.getD vc 0

/-- Priority order of the VCs, highest first (R229). -/
def vcOrder : List Nat := [3, 1, 0, 2, 4]

/-- The floor of a VC, or the cap of VC.3 (R230, R243). -/
def State.vcShare (s : State) (p vc : Nat) : Nat :=
  let w := if p < 48 then s.rd (brzDie p) (brzBlk p) 0x050 else 0x0004020020040080
  if vc = 3 then fld w 10 0 else if vc = 0 then fld w 21 11 else if vc = 1 then fld w 32 22
  else if vc = 2 then fld w 43 33 else fld w 54 44

/-- The VC that the sender picks for a DATA-flit slot, if any (R230). -/
def State.pickVc (s : State) (p : Nat) : Option Nat :=
  let x := s.port p
  let can (vc : Nat) : Bool := (x.ready.getD vc []) != [] && decide (0 < x.credits p vc)
  let used (vc : Nat) : Nat := x.slotSent.getD vc 0
  if can 3 && decide (used 3 < s.vcShare p 3) then some 3
  else match [1, 0, 2, 4].find? (fun vc => can vc && decide (used vc < s.vcShare p vc)) with
    | some vc => some vc
    | none => vcOrder.find? can

/-- Fills in the fields that ride in every outgoing flit, and its CRC (R223, R226, R229). -/
def State.stamp (s : State) (p : Nat) (f : Flit) : Flit × PortState :=
  let x := s.port p
  let g := { f with
      ackk := x.pendAck.1, ackseq := x.pendAck.2, crvc := x.turn,
      crcnt := x.freed.getD x.turn 0 % 4096, epoch := s.epoch p }
  ({ g with crc := flitCrc g },
   { x with pendAck := (0, x.pendAck.2), turn := (x.turn + 1) % 5, unacked := if x.pendAck.1 = 0 then x.unacked else 0 })

/-- Sends a flit on a port. -/
def State.txFlit (s : State) (p : Nat) (f : Flit) : State :=
  let (g, x) := s.stamp p f
  (s.setPort p x).send (.flit p g)

/-- An IDLE flit; a control port's carries its status (R275). -/
def State.idleFlit (s : State) (p : Nat) : Flit :=
  if p < 48 then { typ := 0 }
  else { typ := 0, len := 1, payload := leBytes 1 (s.field (brzDie p) 0x1E 0x040 1 0) }

/-- One flit slot of a loopback test of depth L0 to L2: the 2,048 bits of PRBS31Q sent in it are compared (R239, R240). How
many of them differ is a free value. -/
def State.prbsSlot (s : State) (p : Nat) : State :=
  let t := { s with free := s.free + 1 }
  (t.portBump p 0xC68 2048).portBump p 0xC60 (Config.prbsErrors s.free p % 2049)

/-- FLIT_TRANSMIT (R226, R229, R230): resent flits first, then a new DATA flit by cap, floor and priority, else IDLE; in a
loopback test, the next ECHO flit or the next slot of PRBS31Q (R239). -/
def transmit (p : Nat) (s : State) : State :=
  let x := s.port p
  if s.portPhase p = 8 ∧ s.loopSel p ≠ 4 then s.prbsSlot p
  else if s.portPhase p = 8 then
    (s.setPort p { x with echoes := x.echoes + 1 }).txFlit p { typ := 3, len := 244, payload := zeros 244 }
  else if s.portPhase p = 4 then
    let pl := leBytes 2 s.moduleId ++ leBytes 1 p ++ leBytes 1 (s.epoch p)
    s.txFlit p { typ := 2, len := 4, payload := pl }
  else if s.portPhase p ≠ 5 then s
  else match x.resend with
  | f :: fs =>
    let t := (s.setPort p { x with resend := fs }).portBump p 0xC18
    (t.txFlit p f).raise (brzDie p) 0x0600 (brzSite p)
  | [] =>
    if 2048 ≤ x.retry.length then s.txFlit p (s.idleFlit p)
    else match s.pickVc p with
    | none => s.txFlit p (s.idleFlit p)
    | some vc =>
      match x.ready.getD vc [] with
      | [] => s.txFlit p (s.idleFlit p)
      | f :: fs =>
        let wrap := decide (x.slot + 1 = 1024)
        let f := { f with seq := x.txSeq }
        let x' := { x with
          ready := listSet x.ready vc fs, txSeq := (x.txSeq + 1) % 4096, retry := x.retry ++ [f],
          sent := listSet x.sent vc (x.sent.getD vc 0 + 1),
          slot := if wrap then 0 else x.slot + 1,
          slotSent := if wrap then [0, 0, 0, 0, 0] else listSet x.slotSent vc (x.slotSent.getD vc 0 + 1) }
        ((s.setPort p x').portBump p (0xC38 + 8 * vc)).txFlit p f

def execFlitTransmit (p : Nat) (s : State) : Out := onUnit (portOk p) (transmit p s)

/-! ## Receiving -/

/-- A flit error (R225). -/
def flitError (f : Flit) : Bool :=
  f.fecBad || f.crc != flitCrc f || decide (4 ≤ f.typ) || f.ackk == 3 || (f.typ == 1 && decide (4 < f.vc))
    || decide (244 < f.len)

/-- A flit error at a port: on a control port, whose DATA flits all carry VC 0, the other VCs are reserved (R225, R275). -/
def portError (p : Nat) (f : Flit) : Bool := flitError f || (decide (48 ≤ p) && f.typ == 1 && f.vc != 0)

/-- Removes from the front of the in-flight messages one message for each acknowledged EOM flit. -/
def dropInFlight (acked : List Flit) (l : List (Nat × List Byte)) : List (Nat × List Byte) :=
  acked.foldl (fun l f => if f.eom then l.eraseP (fun m => m.1 == f.vc) else l) l

/-- An ACK of SEQ n: every outstanding flit up to and including n leaves the retry buffer; a SEQ that is not
outstanding changes nothing (R226, R227). -/
def PortState.acked (x : PortState) (n : Nat) : PortState :=
  if x.retry.any (fun f => f.seq == n) then
    let head := x.retry.takeWhile (fun f => f.seq != n)
    let done := head ++ (x.retry.drop head.length).take 1
    { x with
        retry := x.retry.drop done.length, resend := x.resend.filter (fun f => !done.any (fun g => g.seq == f.seq)),
        inFlight := dropInFlight done x.inFlight }
  else x

/-- A NAK of SEQ n: earlier flits are acknowledged and every retained flit from n on is sent again; a NAK whose resent
flit has not gone out yet, or of an acknowledged SEQ, is ignored. A NAK of the next SEQ, not sent yet, acknowledges every
flit sent (R227). -/
def PortState.naked (x : PortState) (n : Nat) : PortState :=
  if n = x.txSeq then { x with retry := [], resend := [], inFlight := dropInFlight x.retry x.inFlight }
  else if x.retry.any (fun f => f.seq == n) && !x.resend.any (fun f => f.seq == n) then
    let head := x.retry.takeWhile (fun f => f.seq != n)
    let rest := x.retry.drop head.length
    { x with
        retry := rest, resend := rest, inFlight := dropInFlight head x.inFlight,
        nakSeq := n, nakCount := if x.nakSeq = n then x.nakCount + 1 else 1 }
  else x

/-- CREDIT_UPDATE (R229): a cumulative count modulo 4,096 restores the credits of one VC. -/
def PortState.credit (x : PortState) (vc cnt : Nat) : PortState :=
  let o := x.peerFreed.getD vc 0
  { x with peerFreed := listSet x.peerFreed vc (o + (cnt + 4096 - o % 4096) % 4096) }

/-- The fields that ride in a received flit. -/
def PortState.header (x : PortState) (f : Flit) : PortState :=
  let x := x.credit f.crvc f.crcnt
  if f.ackk = 1 then x.acked f.ackseq else if f.ackk = 2 then x.naked f.ackseq else x

/-- A flit error (R225, R227): the flit is discarded and a NAK names the expected SEQ. The receiver cannot tell whether the
flit was a resent one, which is NAKed again (R241): the sender ignores a NAK that comes too early. -/
def State.flitBad (s : State) (p : Nat) : State :=
  let x := s.port p
  (s.setPort p { x with discarding := true, pendAck := (2, x.rxSeq) }).portBump p 0xC10

/-- The codewords that the FEC corrected or could not correct are counted (R242). -/
def State.countFec (s : State) (p : Nat) (f : Flit) : State := (s.portBump p 0xC00 f.fecCorr).portBump p 0xC08 f.fecUncorr

/-- Accepts a DATA flit in SEQ order; a completed message is delivered and its flits are freed (R226, R228, R229). -/
def State.acceptFlit (s : State) (p : Nat) (f : Flit) : State :=
  let x := s.port p
  let old := if f.som then [] else x.rxBytes.getD f.vc []
  let n0 := if f.som then 0 else x.rxFlits.getD f.vc 0
  let bytes := old ++ bytesAt f.payload 0 f.len
  let un := x.unacked + 1
  let lim := if p < 48 then s.field (brzDie p) (brzBlk p) 0x058 27 20 else 64
  let x1 := { x with
    rxSeq := (x.rxSeq + 1) % 4096, rxAny := true, discarding := false, unacked := un, rxTotal := x.rxTotal + 1,
    pendAck := if lim ≤ un ∨ x.pendAck.1 = 2 then (1, x.rxSeq) else x.pendAck }
  if f.eom then
    let x2 := { x1 with
      rxBytes := listSet x1.rxBytes f.vc [], rxFlits := listSet x1.rxFlits f.vc 0,
      freed := listSet x1.freed f.vc (x1.freed.getD f.vc 0 + n0 + 1) }
    let t := s.setPort p x2
    let m := msgOf f.vc bytes
    let acc := (SMap.get (fun _ => []) t.net.accepted p ++ [(x2.rxTotal, m.xfer, m.src, m.seg)]).filter
      (fun e => decide (x2.rxTotal < e.1 + 2048))
    { t with
        link := { t.link with inbox := t.link.inbox ++ [(p, f.vc, bytes)] },
        net := if p < 48 then { t.net with accepted := SMap.set (fun _ => []) t.net.accepted p acc } else t.net }
  else s.setPort p { x1 with rxBytes := listSet x1.rxBytes f.vc bytes, rxFlits := listSet x1.rxFlits f.vc (n0 + 1) }

/-- A DATA flit out of SEQ order is discarded, and the first one NAKed (R227). -/
def State.outOfOrder (s : State) (p : Nat) : State :=
  let x := s.port p
  s.setPort p { x with discarding := true, pendAck := if x.discarding then x.pendAck else (2, x.rxSeq) }

/-- A flit without error arrives at a port that is UP (R225 to R229). -/
def takeFlit (p : Nat) (f : Flit) (s : State) : State :=
  if f.epoch ≠ s.epoch p then s.portBump p 0xC30
  else
    let s := s.setPort p ((s.port p).header f)
    if f.typ ≠ 1 then s
    else if f.seq = (s.port p).rxSeq then s.acceptFlit p f
    else s.outOfOrder p

/-- A flit arrives at a port; it counts while the port is UP (R225 to R229, R242). -/
def receive (p : Nat) (f : Flit) (s : State) : State :=
  if s.portPhase p ≠ 5 then s
  else if portError p f then (s.countFec p f).flitBad p
  else takeFlit p f (s.countFec p f)

/-- DATA_FLIT: a flit of any TYPE arrives; those that carry no data bring their header fields alone (R225 to R229). -/
def execDataFlit (p : Nat) (f : Flit) (s : State) : Out := onUnit (portOk p) (receive p f s)
/-- ACK: a flit whose header carries an acknowledgement arrives. -/
def execAck (p : Nat) (f : Flit) (s : State) : Out := onUnit (portOk p) (if f.ackk = 1 then receive p f s else s)
/-- NAK: a flit whose header carries a NAK arrives. -/
def execNak (p : Nat) (f : Flit) (s : State) : Out := onUnit (portOk p) (if f.ackk = 2 then receive p f s else s)

/-- ACK_INTERVAL_TIMER (R226): with an accepted flit unacknowledged for 200 ns, an ACK goes out at once; a NAK that waits goes
in its place and acknowledges as much (R227). -/
def execAckIntervalTimer (p : Nat) (s : State) : Out :=
  let x := s.port p
  onUnit (portOk p) (if 0 < x.unacked ∧ s.portPhase p = 5 then
    (s.setPort p { x with pendAck := if x.pendAck.1 = 2 then x.pendAck else (1, (x.rxSeq + 4095) % 4096) }).txFlit p (s.idleFlit p)
  else s)

/-! ## Lanes and width (R231 to R233) -/

/-- The lane numbers of a mask. -/
def lanesOf (mask : Nat) : List Nat := (List.range 8).filter (fun l => mask / 2 ^ l % 2 == 1)
def maskOf (ls : List Nat) : Nat := ls.foldl (fun a l => a + 2 ^ l) 0

/-- Width code of R232: 0 none, 1 width 2, 2 width 4, 3 width 8. -/
def widthCode (healthy : Nat) : Nat :=
  let n := (lanesOf healthy).length
  if n = 8 then 3 else if 6 ≤ n then 2 else if 2 ≤ n then 1 else 0

/-- The lanes used: the lowest-numbered healthy ones (R232). -/
def lanesUsed (healthy : Nat) : Nat := maskOf ((lanesOf healthy).take (if widthCode healthy = 0 then 0 else 2 ^ widthCode healthy))

/-- The lanes that a port uses of its healthy ones (R232); a control port uses both its lanes or the one left (R275). -/
def lanesFor (p healthy : Nat) : Nat := if p < 48 then lanesUsed healthy else healthy % 4

/-- One mask of BRZ_LANES: bit `k` of every lane's group, 0 TX_USE, 1 RX_USE, 2 TX_HEALTHY, 3 RX_HEALTHY (R243). -/
def State.laneMask (s : State) (p k : Nat) : Nat :=
  if p < 48 then
    let w := s.rd (brzDie p) (brzBlk p) 0x068
    maskOf ((List.range 8).filter (fun l => bitAt w (4 * l + k)))
  else
    let x := s.port p
    if k = 0 then x.txUse else if k = 1 then x.rxUse else if k = 2 then x.txLanes else x.rxLanes

def State.setLaneMask (s : State) (p k mask : Nat) : State :=
  if p < 48 then
    forN 8 (fun l t => t.setField (brzDie p) (brzBlk p) 0x068 (4 * l + k) (4 * l + k) (mask / 2 ^ l % 2)) s
  else
    let x := s.port p
    s.setPort p (if k = 0 then { x with txUse := mask } else if k = 1 then { x with rxUse := mask }
      else if k = 2 then { x with txLanes := mask } else { x with rxLanes := mask })

/-- The lanes of a port that a laser input feeds (R20). -/
def laserLanes (p input : Nat) : List Nat :=
  if p < 48 then [2 * input, 2 * input + 1] else if input = 0 then [0] else if input = 2 then [1] else []

/-- The transmit lanes of a port whose laser input is dark (R20). -/
def State.darkLanes (s : State) (p : Nat) : Nat :=
  maskOf (((List.range 4).filter (fun i => s.link.dark.contains (4 * engineOf p + i))).flatMap (laserLanes p))

/-- Notes the health of a port's lanes: a transmit lane without light is not healthy (R20, R232). -/
def State.setHealth (s : State) (p tx rx : Nat) : State :=
  let t := s.setPort p { s.port p with txFound := tx }
  (t.setLaneMask p 2 (tx - (tx &&& s.darkLanes p))).setLaneMask p 3 rx

/-- Healthy transmit lanes that may be used (R243 LANE_EN). -/
def State.txHealthy (s : State) (p : Nat) : Nat :=
  if p < 48 then s.laneMask p 2 &&& s.field (brzDie p) (brzBlk p) 0x040 7 0 else s.laneMask p 2

/-- Brings lanes into use and shows the widths they give (R232, R243, R275). -/
def State.useLanes (s : State) (p tx rx : Nat) : State :=
  let t := (s.setLaneMask p 0 tx).setLaneMask p 1 rx
  if p < 48 then
    (t.setField (brzDie p) (brzBlk p) 0x060 11 10 (widthCode tx)).setField (brzDie p) (brzBlk p) 0x060 9 8 (widthCode rx)
  else t.setField (brzDie p) 0x1E 0x040 2 2 (if 2 ≤ (lanesOf tx).length ∧ 2 ≤ (lanesOf rx).length then 1 else 0)

/-- Sets the widths and lanes in use from the healthy lanes (R232). -/
def State.applyWidth (s : State) (p : Nat) : State :=
  s.useLanes p (lanesFor p (s.txHealthy p)) (lanesFor p (s.laneMask p 3))

/-- The width falls below MIN_WIDTH in a direction, or no width is left (R232). A control port runs on one lane. -/
def State.tooNarrow (s : State) (p : Nat) : Bool :=
  if p < 48 then
    let mn := s.field (brzDie p) (brzBlk p) 0x040 9 8 + 1
    decide (widthCode (s.txHealthy p) < mn) || decide (widthCode (s.laneMask p 3) < mn)
  else s.laneMask p 2 == 0 || s.laneMask p 3 == 0

/-- The event PORT_WIDTH (R502). -/
def State.widthEvent (s : State) (p : Nat) : State :=
  if p < 48 then s.event 0x0031 p 0 (BitVec.ofNat 64 (s.field (brzDie p) (brzBlk p) 0x060 11 8))
  else
    let w (m : Nat) : Nat := if s.portPhase p ≠ 5 then 0 else Nat.min 2 (lanesOf m).length
    s.event 0x0031 (0x30 + (p - 48)) 0 (BitVec.ofNat 64 (4 * w (s.laneMask p 0) + w (s.laneMask p 1)))

/-! ## Going DOWN (R234, R238) -/

/-- Messages of a VC wholly unsent: SOM flits still in the ready queue. -/
def unsentCount (x : PortState) (vc : Nat) : Nat := ((x.ready.getD vc []).filter (fun f => f.som)).length

/-- A message of which this port had sent a flit goes out again with RESEND and the destination-side port of its first
copy: this one's, unless it was a resend already (R253). -/
def resentMsg (peer : Nat) (m : Msg) : Msg :=
  if m.flags % 2 = 1 then m else { m with flags := m.flags % 2 ^ 2 / 2 * 2 + 1 + peer * 4 }

/-- Hands every message with an unacknowledged flit back to the transfer layer, which sends it again by another route
(R238, R253). -/
def State.handBack (s : State) (p : Nat) : State :=
  let x := s.port p
  let peer := s.field (brzDie p) (brzBlk p) 0x070 5 0
  let clear := s.setPort p { x with
    retry := [], resend := [], ready := [[], [], [], [], []], inFlight := [], rxBytes := [[], [], [], [], []],
    rxFlits := [0, 0, 0, 0, 0], unacked := 0, pendAck := (0, 0), discarding := false }
  -- a segment answered RETRY is resent as one whose first copy this port sent (R274)
  let mark (g : Segment) : Segment := if g.retry && g.port == p then { g with msg := resentMsg peer g.msg } else g
  let clear := { clear with net := { clear.net with segments := clear.net.segments.map mark } }
  if 48 ≤ p then clear
  else
    let sentOnes := (List.range 5).flatMap (fun vc =>
      let l := x.inFlight.filter (fun m => m.1 == vc)
      (l.take (l.length - unsentCount x vc)).map (fun m => (m, true)) ++
        (l.drop (l.length - unsentCount x vc)).map (fun m => (m, false)))
    forEach sentOnes (fun e t =>
      let m := msgOf e.1.1 e.1.2
      t.sendMsg (brzDie p) (if e.2 then resentMsg peer m else m)) clear

/-- A port goes DOWN with a reason: it hands its messages back, and a port that was not DOWN already raises the DEFERRED fault
of its link die (R234, R238). -/
def State.portDown (s : State) (p reason : Nat) : State :=
  let was := s.portPhase p
  let t := (s.setPhase p 0).useLanes p 0 0
  let t := if p < 48 then t.setField (brzDie p) (brzBlk p) 0x060 7 0 reason else t
  if was = 0 then t else (t.handBack p).raise (brzDie p) (if p < 48 then 0x0602 else 0x0604) (brzSite p)

/-! ## Bring-up (R234 to R237) -/

/-- Requests light for a port's optical engine (R22, R292). -/
def State.requestLight (s : State) (p : Nat) : State :=
  let e := engineOf p
  if s.link.light.contains e then s
  else { s with link := { s.link with light := NSet.add s.link.light e } }.send (.pin (.light e) 1)

/-- Withdraws the light request of an engine that no enabled port needs (R22). -/
def State.releaseLight (s : State) (p : Nat) : State :=
  let e := engineOf p
  if s.link.light.contains e && !(List.range 50).any (fun q => q != p && engineOf q == e && (decide (48 ≤ q) || s.portPhase q != 0))
  then { s with link := { s.link with light := NSet.del s.link.light e } }.send (.pin (.light e) 0)
  else s

/-- A port can be brought up: its link die is powered and neither it, its die nor the module is in reset (R22, R27, R407). -/
def State.portAwake (s : State) (p : Nat) : Bool :=
  s.pwr.railsOn && !s.flt.resetting.contains (.port p) && !s.flt.resetting.contains (.linkDie (brzDie p))
    && !s.flt.resetting.contains .module && !s.flt.outOfService.contains .module

/-- BRZ_ENABLE_SET (R234, R239, R240): bring-up or a loopback test begins. -/
def brzEnable (p : Nat) (s : State) : State :=
  if s.portPhase p ≠ 0 ∨ (s.flt.hold ∧ p < 48) ∨ s.portAwake p = false then s
  else
    let t := if p < 48 then s.setField (brzDie p) (brzBlk p) 0x040 16 16 1 else s
    let l := t.loopSel p
    if l = 1 ∨ l = 2 then t.setPhase p 2
    else if l = 3 then (t.requestLight p).setPhase p 1
    else if p < 48 ∧ t.field (brzDie p) (brzBlk p) 0x048 23 8 = 0xFFFF then t
    else (t.requestLight p).setPhase p 1

def execBrzEnableSet (p : Nat) (s : State) : Out := onUnit (portOk p) (brzEnable p s)

/-- BRZ_ENABLE_CLEAR (R234): the port goes DOWN, its transmitters dark. -/
def brzDisable (p : Nat) (s : State) : State :=
  let t := if p < 48 then s.setField (brzDie p) (brzBlk p) 0x040 16 16 0 else s
  (t.portDown p 1).releaseLight p

def execBrzEnableClear (p : Nat) (s : State) : Out := onUnit (portOk p) (brzDisable p s)

def execLightReady (p : Nat) (s : State) : Out := onUnit (portOk p) (if s.portPhase p = 1 then s.setPhase p 2 else s)

/-- TRAIN_DONE (R234, R235): two or more lanes each way are trained, and the margins found are stored. A transmit lane that is
dark, or that LANE_EN leaves out, is no trained lane (R20, R243). A control port trains on one lane (R275). -/
def execTrainDone (p tx rx : Nat) (search : Bool) (s : State) : Out :=
  let need := if p < 48 then 2 else 1
  let h := s.setHealth p tx rx
  onUnit (portOk p) (if s.portPhase p = 2 ∧ need ≤ (lanesOf (h.txHealthy p)).length ∧ need ≤ (lanesOf rx).length then
    let t := h.setPhase p 3
    let t := t.setPort p { t.port p with margins := true }
    if search then t.setField 60 0 0x380 31 24 (Nat.min 255 (t.field 60 0 0x380 31 24 + 1)) else t
  else s)

/-- ALIGN_DONE (R234, R240): IDENT flits are sent, or a loopback of depth L0 to L2 enters TEST. -/
def execAlignDone (p : Nat) (s : State) : Out :=
  onUnit (portOk p) (if s.portPhase p = 3 then
    let l := s.loopSel p
    if 1 ≤ l ∧ l ≤ 3 then s.setPhase p 8 else transmit p (s.setPhase p 4)
  else s)

/-- The values with which a direction starts at a new entry to UP (R237). -/
def PortState.fresh (x : PortState) : PortState :=
  { cpPhase := x.cpPhase, txLanes := x.txLanes, rxLanes := x.rxLanes, txFound := x.txFound, margins := x.margins,
    ready := x.ready, inFlight := x.inFlight }

/-- A new entry to UP: both directions start afresh, and what was accepted before no longer counts (R237, R253). Messages
that waited for a port leave. A port whose healthy lanes give too little width goes DOWN instead (R232). -/
def State.goUp (s : State) (p : Nat) : State :=
  let t := { s with net := { s.net with
    accepted := SMap.drop s.net.accepted p, downLists := SMap.drop s.net.downLists p } }
  let t := (t.setPort p (t.port p).fresh).setPhase p 5
  if t.tooNarrow p then t.portDown p 6 else (t.applyWidth p).flushWaiting

/-- IDENT (R234, R236, R237): the right peer brings the port UP with a new EPOCH, another to IDENT_MISMATCH. -/
def identFlit (p : Nat) (f : Flit) (s : State) : State :=
  if s.portPhase p ≠ 4 then s
  else if portError p f ∨ f.typ ≠ 2 then s.countFec p f
  else
    let s := s.countFec p f
    let m := natAt f.payload 0 2
    let q := natAt f.payload 2 1
    let e := natAt f.payload 3 1
    if 48 ≤ p then
      if m = 0xFFFF then s.goUp p else s.setPhase p 9
    else
      let t := (s.setField (brzDie p) (brzBlk p) 0x070 23 8 m).setField (brzDie p) (brzBlk p) 0x070 5 0 q
      let ep := (Nat.max (t.epoch p) e + 1) % 64
      if t.loopSel p = 4 then (t.setField (brzDie p) (brzBlk p) 0x060 37 32 ep).setPhase p 8
      else if m = t.field (brzDie p) (brzBlk p) 0x048 23 8 ∧ q = t.field (brzDie p) (brzBlk p) 0x048 5 0 then
        let u := (t.setField (brzDie p) (brzBlk p) 0x060 37 32 ep).setField (brzDie p) (brzBlk p) 0x060 7 0 0
        u.goUp p
      else (t.setPhase p 9).event 0x0031 p 0 0

def execIdent (p : Nat) (f : Flit) (s : State) : Out := onUnit (portOk p) (identFlit p f s)

/-- The answer to an ECHO flit reaches the port that tests (R240). One of another EPOCH is dross (R225). -/
def echoAnswer (p : Nat) (f : Flit) (s : State) : State :=
  let x := s.port p
  let bad := flitError f
  if x.echoes = 0 then s
  else if !bad && f.epoch != s.epoch p then s.portBump p 0xC30
  else
    let t := (s.setPort p { x with echoes := x.echoes - 1 }).portBump p 0xC68 1952
    if bad || bytesAt f.payload 0 244 != zeros 244 then t.portBump p 0xC60 else t

/-- ECHO (R239, R240): a peer with ECHO_OK returns a flit of its EPOCH with header and payload unchanged; a testing port takes
its answer. At a port that is UP the flit's header fields count as those of any flit (R225). -/
def echoFlit (p : Nat) (f : Flit) (s : State) : State :=
  if f.typ ≠ 3 then s
  else if s.portPhase p = 8 then (if s.loopSel p = 4 then echoAnswer p f (s.countFec p f) else s)
  else
    let t := receive p f s
    if p < 48 ∧ s.field (brzDie p) (brzBlk p) 0x040 15 15 = 1 ∧ ¬ flitError f ∧ f.epoch = s.epoch p then t.send (.flit p f) else t

def execEcho (p : Nat) (f : Flit) (s : State) : Out := onUnit (portOk p) (echoFlit p f s)

/-- ECHO_TIMEOUT (R240): an echo flit not answered within 10 microseconds counts as an error. -/
def execEchoTimeout (p : Nat) (s : State) : Out :=
  let x := s.port p
  onUnit (portOk p) (if 0 < x.echoes then (s.setPort p { x with echoes := x.echoes - 1 }).portBump p 0xC60 else s)

/-- The DOWN_REASON of an exceeded bound (R235, R243). -/
def timeoutReason (phase : Nat) : Nat := if phase = 1 then 3 else if phase = 6 ∨ phase = 7 then 5 else 4

/-- BRZ_STATE_TIMEOUT (R235): a bounded state was not left in time. -/
def execBrzStateTimeout (p : Nat) (s : State) : Out :=
  let n := s.portPhase p
  onUnit (portOk p) (if n = 1 ∨ n = 2 ∨ n = 3 ∨ n = 4 ∨ n = 6 ∨ n = 7 then s.portDown p (timeoutReason n) else s)

/-! ## Width changes and retraining -/

/-- The lanes that a direction runs on after a change of health: those it has while they are all healthy, else those of R232. -/
def nextLanes (p cur healthy : Nat) : Nat := if cur &&& healthy = cur ∧ cur ≠ 0 then cur else lanesFor p healthy

/-- A direction could run on other lanes than those it has: it widens at a step boundary (R233). A change of lane set after
lanes return counts as a widening. -/
def couldWiden (p cur healthy : Nat) : Bool := lanesFor p healthy != cur

/-- What the health of the lanes asks of a port that is UP or in WIDTH_CHANGE (R232, R233, R241): a direction that lost a lane
changes at once, and a change in progress restarts with the new set; lanes that return wait for a step boundary. -/
def State.reLane (s : State) (p : Nat) : State :=
  let n := s.portPhase p
  let x := s.port p
  let curT := if n = 7 then x.newTx else s.laneMask p 0
  let curR := if n = 7 then x.newRx else s.laneMask p 1
  let newT := nextLanes p curT (s.txHealthy p)
  let newR := nextLanes p curR (s.laneMask p 3)
  let t := s.setPort p { x with rewiden := couldWiden p newT (s.txHealthy p) || couldWiden p newR (s.laneMask p 3) }
  if newT = curT ∧ newR = curR then t
  else (t.setPort p { t.port p with newTx := newT, newRx := newR }).setPhase p 7

/-- The health of a port's lanes has changed (R232 to R234): in RETRAIN it is only noted (R241), and a port that is not yet UP
takes its width from it when it comes UP. -/
def State.healthChanged (s : State) (p : Nat) : State :=
  let n := s.portPhase p
  if n ≠ 5 ∧ n ≠ 6 ∧ n ≠ 7 then s
  else if s.tooNarrow p then s.portDown p 6
  else if n = 6 then s
  else s.reLane p

/-- LANE_HEALTH_CHANGE (R232 to R234). -/
def laneHealth (p tx rx : Nat) (s : State) : State := (s.setHealth p tx rx).healthChanged p

def execLaneHealthChange (p tx rx : Nat) (s : State) : Out := onUnit (portOk p) (laneHealth p tx rx s)

/-- The sender resends from its first unacknowledged flit (R233, R234). -/
def State.resendAll (s : State) (p : Nat) : State := s.setPort p { s.port p with resend := (s.port p).retry }

/-- WIDTH_CHANGE_DONE (R233): the port is UP on the new lanes; the change is a CONTAINED event, counted and reported. -/
def widthDone (p : Nat) (s : State) : State :=
  if s.portPhase p ≠ 7 then s
  else
    let x := s.port p
    let t := (((s.setPhase p 5).useLanes p x.newTx x.newRx).resendAll p).portBump p 0xC28
    ((t.raise (brzDie p) 0x0601 (brzSite p)).widthEvent p).flushWaiting

def execWidthChangeDone (p : Nat) (s : State) : Out := onUnit (portOk p) (widthDone p s)

/-- Enters RETRAIN with the retry buffer and the credits kept (R234). -/
def State.toRetrain (s : State) (p : Nat) : State := (s.setPhase p 6).portBump p 0xC20

def execCodewordLockLost (p : Nat) (s : State) : Out :=
  onUnit (portOk p) (if s.portPhase p = 5 ∨ s.portPhase p = 7 then s.toRetrain p else s)

/-- RETRY_LIM_REACHED (R227): one SEQ has been NAKed RETRY_LIM times in succession. -/
def execRetryLimReached (p : Nat) (s : State) : Out :=
  let lim := if p < 48 then s.field (brzDie p) (brzBlk p) 0x058 31 28 else 8
  onUnit (portOk p) (if (s.portPhase p = 5 ∨ s.portPhase p = 7) ∧ lim ≤ (s.port p).nakCount then
    (s.setPort p { s.port p with nakCount := 0 }).toRetrain p else s)

/-- RETRAIN_DONE (R234, R241): UP again with EPOCH and SEQ kept, on the width that the healthy lanes give. -/
def execRetrainDone (p : Nat) (s : State) : Out :=
  onUnit (portOk p) (if s.portPhase p = 6 then
    (if s.tooNarrow p then s.portDown p 6 else (((s.setPhase p 5).applyWidth p).resendAll p).flushWaiting) else s)

/-- LOSS_OF_SIGNAL (R238): no signal on any lane. -/
def execLossOfSignal (p : Nat) (s : State) : Out :=
  let n := s.portPhase p
  onUnit (portOk p) (if n = 5 ∨ n = 6 ∨ n = 7 then s.portDown p 2 else s)

/-- BRZ_PORT_RESTART (R238): a DOWN port with ENABLE set starts again from LIGHT_WAIT. -/
def execBrzPortRestart (p : Nat) (s : State) : Out :=
  onUnit (portOk p) (if s.portPhase p = 0 ∧ s.enabled p then brzEnable p s else s)

/-- The ports of an optical engine (R19). -/
def enginePorts (e : Nat) : List Nat := (List.range 50).filter (fun p => engineOf p == e)

/-- The fault of a laser input is reported on the affected lanes: for each port that the input feeds, at its first such lane
(R21). -/
def State.laserFault (s : State) (e input : Nat) : State :=
  forEach (enginePorts e) (fun p t =>
    match laserLanes p input with
    | l :: _ => t.raise (brzDie p) 0x0603 { brzSite p with sub := l }
    | [] => t) s

/-- LASER_INPUT (R20, R21): a reading below 16.0 dBm darkens the lanes that the input feeds and is a CONTAINED fault;
a reading at or above it restores them. -/
def laser (die engine input dbm : Nat) (s : State) : State :=
  let e := 2 * (die - 48) + engine
  let key := 4 * e + input
  let dark := decide (dbm < 160)
  if dark = s.link.dark.contains key then s
  else
    let t := { s with link := { s.link with dark := if dark then NSet.add s.link.dark key else NSet.del s.link.dark key } }
    let t := if dark then t.laserFault e input else t
    forEach (enginePorts e) (fun p u => laneHealth p (u.port p).txFound (u.laneMask p 3) u) t

def execLaserInput (die engine input dbm : Nat) (s : State) : Out :=
  onUnit (decide (48 ≤ die ∧ die < 56 ∧ engine < 2 ∧ input < 4)) (laser die engine input dbm s)

/-- Widening is allowed at a port; a control port has no REWIDEN bit and may always widen (R233, R275). -/
def State.mayWiden (s : State) (p : Nat) : Bool := if p < 48 then s.field (brzDie p) (brzBlk p) 0x040 17 17 == 1 else true

/-- REWIDEN (R233): at a step boundary of the link slot, a port that may widen again starts its width change. -/
def rewiden (die : Nat) (s : State) : State :=
  forN 50 (fun p t =>
    if brzDie p = die ∧ (t.port p).rewiden ∧ t.portPhase p = 5 ∧ t.mayWiden p then
      (t.setPort p { t.port p with
        rewiden := false, newTx := lanesFor p (t.txHealthy p), newRx := lanesFor p (t.laneMask p 3) }).setPhase p 7
    else t) s

/-- The light of engines is gone: a port that trains or runs on it goes DOWN with LIGHT_LOST (R241). -/
def State.lightLost (s : State) (engines : List Nat) : State :=
  forN 50 (fun p t =>
    let n := t.portPhase p
    if engines.contains (engineOf p) ∧ 2 ≤ n ∧ n ≠ 9 ∧ t.loopSel p ≠ 1 ∧ t.loopSel p ≠ 2 then t.portDown p 7 else t) s

end Sys2Proof.Machine
end

