-- ==== Sys2Proof/Machine/Frames.lean ====
section
/-!
DEFINITION. Control frames as they arrive: port status, confidential frames, the checks of R277 and the answers
(R275 to R278, R288, R289, R291).
-/

namespace Sys2Proof.Machine

/-- ROM recovery (R441): no management die runs firmware, and the boot ROM answers the frames of R446 alone. -/
def State.romAnswers (s : State) (typ : Nat) : Bool :=
  s.sec.dies.all (fun d => d.running.isNone) && s.pwr.railsOn && !s.flt.resetting.contains .module && (typ == 0x20 || typ == 0x22 || typ == 0x24 || typ == 0x25)

/-- Sets the STATUS of both control ports; CONF shows the mode (R275, R288, R296). -/
def State.setCpStatus (s : State) (v : Nat) : State :=
  forEach [54, 55] (fun d t => (t.setField d 0x1E 0x040 1 0 v).setField d 0x1E 0x040 3 3 (if t.sec.conf then 1 else 0)) s

/-- Ends the session: the ports return to KEY_PENDING (R289). -/
def State.endSession (s : State) : State :=
  ({ s with ctl := { s.ctl with session := none, exchange := none, fails := [] } }).setCpStatus 2

/-- A frame that fails authentication: discarded and counted; the third within 1 s ends the session (R289). -/
def State.authFail (s : State) (p : Path) (time : Nat) : State :=
  let l := time :: s.ctl.fails
  let t := ({ s with ctl := { s.ctl with fails := l.take 3 } }).bump (pathDie p) 0x1E 0xC20
  match l with
  | a :: _ :: c :: _ => if a ≤ c + 1000000 then t.endSession else t
  | _ => t

/-- The time of a frame, within an interval of another. -/
def within (a b n : Nat) : Bool := decide (a ≤ b + n)

/-- A counter has not been used under the keys. -/
def CounterUse.fresh (u : CounterUse) (c : Nat) : Bool :=
  decide (u.next ≤ c) || u.gaps.any (fun g => decide (g.1 ≤ c) && decide (c < g.2))

/-- A counter is used: it closes its place in the ranges not yet used. -/
def CounterUse.take (u : CounterUse) (c : Nat) : CounterUse :=
  if u.next ≤ c then { next := c + 1, gaps := u.gaps ++ (if u.next < c then [(u.next, c)] else []) }
  else { u with gaps := u.gaps.flatMap (fun g =>
    if g.1 ≤ c ∧ c < g.2 then [(g.1, c), (c + 1, g.2)].filter (fun h => decide (h.1 < h.2)) else [g]) }

/-- Opens a confidential frame under the session's keys, or under the keys before a rekey for 1 ms; a counter already used
under the keys opens nothing. The session notes the counter (R289). -/
def openFrame (k : Session) (f : Frame) : Option (Session × List Byte) :=
  let try_ (keys : List Byte) : Option (List Byte) :=
    gcmOpen (bytesAt keys 0 32) (bytesAt keys 64 4 ++ leBytes 8 f.counter) (frameHeader f) f.data
  if f.flags != 1 then none
  else match (if k.rx.fresh f.counter then try_ k.keys else none) with
    | some d => some ({ k with rx := k.rx.take f.counter }, d)
    | none =>
      if k.old != [] && within f.time k.oldUntil 0 && k.oldRx.fresh f.counter then
        (try_ k.old).map (fun d => ({ k with oldRx := k.oldRx.take f.counter }, d))
      else none

/-- The status a well-formed frame must have; header and length checks of R276 and R277. -/
def frameBad (f : Frame) (plainLen : Nat) : Bool :=
  f.rsv != 0 || decide (1 < f.flags) || f.len != plainLen || decide (65536 < f.len) || f.status != 0

/-- An answer frame: REG_RESP with the request's TAG and ADDR (R277, R278). -/
def State.respond (s : State) (p : Path) (f : Frame) (status aux : Nat) (data : List Byte := []) : State :=
  s.sendFrame p { typ := 3, tag := f.tag, addr := f.addr, status := status, aux := aux, len := data.length, data := data }

/-- The BAD_FRAME answer of a malformed frame on the management port, for the types that have an answer there (R277, R291,
R446); a malformed INSTALL frame is REJECTED (R468). -/
def State.mgmtBad (s : State) (f : Frame) (typ : Nat) : State :=
  let a : Frame := { typ := 0x26, tag := f.tag, addr := f.addr, status := 4 }
  if typ = 1 ∨ typ = 2 then s.respond .mgmt f 4 0
  else if typ = 0x20 ∨ typ = 0x22 then s.sendFrame .mgmt { a with typ := typ + 1 }
  else if typ = 0x24 ∨ typ = 0x25 then s.sendFrame .mgmt a
  else if typ = 0x27 then s.respond .mgmt f 1 0
  else s

/-- The types that are reserved on a control port: R277 lists none of them, and those of R446 and R468 are carried elsewhere. -/
def reservedType (typ : Nat) : Bool := decide (typ = 0) || decide (0x0C ≤ typ)

/-- What a path does with an arriving frame of type `typ`: the state after it is counted and checked, and the frame in
plain when it is to be acted on. A frame of a reserved type is discarded and counted whatever the command; frames of another
type are no event of the command. -/
def State.recv (s : State) (p : Path) (f : Frame) (typ : Nat) : State × Option Frame :=
  let reserved := f.typ != typ && reservedType f.typ && (p == .cpA || p == .cpB)
  if f.typ ≠ typ ∧ !reserved then (s, none)
  else match p with
  | .firmware => (s, some f)
  | .mgmt =>
    if !(s.firmwareUp || s.romAnswers typ) || s.sec.handover then (s, none)
    else if frameBad f f.data.length || f.flags != 0 then (s.mgmtBad f typ, none)
    else (s, some f)
  | _ =>
    let st := s.cpStatus p
    if st = 0 ∨ (st = 2 ∧ f.typ ≠ 0x0B) then (s, none)
    else
      let s := s.bump (pathDie p) 0x1E 0xC00
      let bad (t : State) : State × Option Frame :=
        if f.typ = 1 ∨ f.typ = 2 ∨ f.typ = 4 then (t.respond p f 4 0, none)
        else if f.typ = 0x0B then (t.sendFrame p { typ := 0x0B, tag := f.tag, status := 4 }, none)
        else (t.bump (pathDie p) 0x1E 0xC10, none)
      if s.sec.conf ∧ f.typ ≠ 0x0B then
        match s.ctl.session with
        | none => (s, none)
        | some k =>
          match openFrame k f with
          | none => (s.authFail p f.time, none)
          | some (k', d) =>
            let t := { s with ctl := { s.ctl with session := some k' } }
            let g := { f with data := d }
            if reserved || frameBad g d.length then bad t else (t, some g)
      else if reserved || frameBad f f.data.length || f.flags != 0 then bad s
      else (s, some f)

/-- A frame that answers no request is discarded and counted (R277, R285). -/
def State.countBad (s : State) (p : Path) : State :=
  match p with
  | .cpA => s.bump 54 0x1E 0xC10
  | .cpB => s.bump 55 0x1E 0xC10
  | _ => s

end Sys2Proof.Machine
end

