-- ==== Sys2Proof/Machine/Pages.lean ====
section
/-!
DEFINITION. Register pages: rejections (R485), the checks of a written value (R483, R485 and the owning chapters), shadow
copies, ARM, DISARM and SHADOW_LOAD (R486, R487), and page swaps (R488).
-/

namespace Sys2Proof.Machine

/-- The reasons of R485. -/
def rejRange : Nat := 1
def rejReserved : Nat := 2
def rejAccess : Nat := 3
def rejState : Nat := 4
def rejRelation : Nat := 5
def rejShadow : Nat := 6
def rejGenesisOnly : Nat := 7

/-- The number of a page: its canonical die and block. -/
def pageKey (die blk : Nat) : Nat := canonAddr die blk 0x010 / 2 ^ 12

def keyDie (k : Nat) : Nat := k / 256
def keyBlk (k : Nat) : Nat := k % 256

/-- Records a rejection in BLK_STAT of the page (R482, R485). -/
def State.reject (s : State) (die blk off reason : Nat) : State :=
  let w := s.rd die blk 0x010
  let n := Nat.min 0xFFFF (fld w 31 16 + 1)
  s.wr die blk 0x010 (setFld (setFld (setFld (setFld w 48 48 1) 47 36 off) 35 32 reason) 31 16 n)

/-- The SWAP field of a page (R482). -/
def State.swapState (s : State) (die blk : Nat) : Nat := s.field die blk 0x010 5 4
def State.setSwap (s : State) (die blk v : Nat) : State := s.setField die blk 0x010 5 4 v

/-- The active offset of an offset: shadow offsets lie 0x800 above. -/
def activeOff (off : Nat) : Nat := if 0x800 ≤ off ∧ off < 0xC00 then off - 0x800 else off

/-- The row of an offset, active or shadow, when it lies where registers lie. -/
def rowOf (die blk off : Nat) : Option RegRow :=
  match blockType die blk with
  | none => none
  | some ty => if 0x400 ≤ off ∧ off < 0x800 then none else rowAt die ty (activeOff off)

/-- Some field has a type other than RO. -/
def RegRow.writable (r : RegRow) : Bool := r.fields.any (fun f => f.kind != .ro)

/-- A written value lies outside the range of a field. -/
def rangeBad (r : RegRow) (v : Word) : Bool :=
  r.fields.any (fun f => f.kind != .ro && (decide (fld v f.hi f.lo < f.min) || decide (f.max < fld v f.hi f.lo)))

/-- A written value has a reserved bit set. -/
def reservedBad (r : RegRow) (v : Word) : Bool :=
  decide (v.toNat &&& (2 ^ 64 - 1 - r.fields.foldl (fun a f => a ||| maskBits f.hi f.lo) 0) ≠ 0)

/-- The value a register takes when `v` is written over `old` (R483). -/
def written (r : RegRow) (old v : Word) : Word :=
  r.fields.foldl (fun w f => match f.kind with
    | .ro => w
    | .wo => setFld w f.hi f.lo 0
    | .rw => setFld w f.hi f.lo (fld v f.hi f.lo)
    | .rw1c => if fld v f.hi f.lo = 1 then setFld w f.hi f.lo 0 else w) old

/-- An entry is legal when its reserved bit is clear, its listed stripe ports are distinct and lie in 0-47, and its VC.3 ports
are ports or 63 (R247). The all-ones entry of reset, which means no route, is none that can be written. -/
def routeLegal (e : Word) : Bool :=
  let l := (List.range (fld e 51 49 + 1)).map (fun i => fld e (6 * i + 5) (6 * i))
  let vc3 (p : Nat) : Bool := decide (p < 48) || p == 63
  !bitAt e 48 && l.all (fun p => decide (p < 48)) && decide l.Nodup && vc3 (fld e 63 58) && vc3 (fld e 57 52)

/-- PLN_XLAT entries of one copy, as they would stand with entry `n` written (R33). -/
def State.xlats (s : State) (shadow : Bool) (n : Nat) (v : Word) : List Word :=
  (List.range 48).map (fun i =>
    if i = n then v else s.rd 60 0 ((if shadow then 0xA00 else 0x200) + 8 * i))

/-- A compute die is out of service or a designated spare. -/
def State.dieUnfit (s : State) (d : Nat) : Bool :=
  s.stu.spares.contains d || s.stu.outDies.contains d || s.flt.outOfService.contains (.die d)
    || (let svc := s.field d 0 0x040 3 0; svc == 4 || svc == 5)

/-- Whether PLN_XLAT entry `n` is legal beside the others of its copy (R34): its PATH, with the fabric port of the stack UP for
ALT_PORT (R205), and for a valid entry its die and stack. During a substitution the named spare is no longer a designated
spare, so the same rule serves the active copy. -/
def State.xlatLegal (s : State) (xs : List Word) (n : Nat) : Bool :=
  let x := xs.getD n 0
  (xPath x != 0 || xMs x == xCd x)
    && (xPath x != 1 || s.field (xMs x) 0x0F 0x058 1 0 == 2)
    && (xPath x != 2 || (bitAt (s.rd (xMs x) 0 0x048) 1 && bitAt (s.rd (xMs x) 0 0x048) 3))
    && (!xValid x ||
          ((List.range 48).all (fun i => i == n || !xValid (xs.getD i 0) ||
              (xCd (xs.getD i 0) != xCd x && xMs (xs.getD i 0) != xMs x))
            && !s.dieUnfit (xCd x)))

/-- Every shadow translation entry is legal (R54). -/
def State.shadowXlatsLegal (s : State) : Bool :=
  let xs := s.xlats true 48 0
  (List.range 48).all (s.xlatLegal xs)

/-- The edge a route code leaves by, counted as in FAB_EDGE. -/
def edgeUp (s : State) (die code : Nat) : Bool :=
  code % 8 == 0 || s.field die 0x10 0x060 (2 * (code % 8) - 1) (2 * (code % 8) - 2) == 2

/-- The rules of the owning chapters that a value of a register must keep beside its field ranges; the reason when it
breaks one. `chk` reads the other registers of the same copy. -/
def State.special (s : State) (die blk off : Nat) (shadow : Bool) (v : Word) : Option Nat :=
  let ty := (blockType die blk).getD 0
  if ty = 0x02 ∧ off = 0x040 then (if fld v 24 16 % 16 = 0 then none else some rejRange)
  else if ty = 0x03 ∧ off = 0x078 then
    let l := (List.range 6).map (fun i => fld v (3 * i + 2) (3 * i))
    if !decide l.Nodup then some rejRelation
    else if l.any (fun a => s.field die blk (0x040 + 8 * a) 2 0 == 2) then some rejState
    else none
  else if ty = 0x08 ∧ 0x040 ≤ off ∧ off < 0x060 then
    let codes := (List.range 16).map (fun j => fld v (4 * j + 3) (4 * j))
    if codes.any (fun c => decide (4 < c % 8)) then some rejRange
    else if codes.all (edgeUp s die) then none else some rejState
  else if ty = 0x10 ∧ off = 0x040 then
    (if fld v 14 12 ≠ s.field die blk 0x040 14 12 ∧ s.field die blk 0x060 15 12 ≠ 0
        ∧ ¬(fld v 14 12 = 0 ∧ s.field die blk 0x060 15 12 = 8)
     then some rejState else none)
  else if ty = 0x10 ∧ off = 0x050 then
    (if fld v 10 0 + fld v 21 11 + fld v 32 22 + fld v 43 33 + fld v 54 44 ≤ 1024 then none else some rejRelation)
  else if ty = 0x11 ∧ 0x100 ≤ off ∧ off < 0x400 ∧ (off - 0x100) % 24 = 8 then
    let k := fld v 63 62
    let e := fld v 55 32
    let b := fld v 27 0
    if b % 256 ≠ 0 ∨ (b = 0 ∧ k ≠ 0) then some rejRange
    else if 2 ^ 44 ≤ e * b ∨ (e = 0 ∧ k ≠ 0) then some rejRelation
    else none
  else if ty = 0x01 ∧ (die = 60 ∨ die = 61) ∧ 0x200 ≤ off ∧ off < 0x380 then
    let n := (off - 0x200) / 8
    let old := s.rd 60 0 (0x200 + 8 * n)
    (if s.xlatLegal (s.xlats shadow n (setFld v 47 40 (fld old 47 40))) n then none else some rejRelation)
  else if ty = 0x20 ∧ off = 0x208 then
    (if fld v 15 0 = s.moduleId ∧ fld v 15 0 ≠ 0xFFFF then some rejRange else none)
  else if ty = 0x20 ∧ off = 0x048 then (if s.jobIn then some rejState else none)
  else if ty = 0x24 ∧ off = 0x040 then
    let sc := fld v 18 16
    let obj := fld v 11 0
    if sc = 1 ∧ (48 ≤ die ∨ 48 ≤ obj) then some rejRange
    else if sc = 2 ∧ 64 ≤ obj then some rejRange
    else if sc = 3 ∧ ((die < 48 ∨ 56 ≤ die) ∨ obj / 512 ≠ die - 48) then some rejRange
    else none
  else if ty = 0x01 ∧ 48 ≤ die ∧ die < 56 ∧ off = 0x108 then
    if routeLegal v then none else some rejRange
  else none

/-- Only management firmware writes the register, or the path may not write the page at all (R291, R484). -/
def accessBad (p : Path) (blk : Nat) (r : RegRow) (shadow : Bool) : Bool :=
  (p == .mgmt && !(decide (blk = 0x21) || decide (blk = 0x22)))
    || (match r.writer with
      | .any => false
      | .firmware => p != .firmware
      | .mgmtPort => p != .mgmt
      | .split => if shadow then false else p != .firmware)

/-- Registers whose active copy may be written although they are swapped: the control port page between module reset and
the first plan commit (R295), and PLN_XLAT for management firmware (R486). -/
def State.activeAllowed (s : State) (p : Path) (blk : Nat) (r : RegRow) : Bool :=
  (blk == 0x1E && !s.plan.committed) || (r.writer == .split && p == .firmware)

/-- The reason for which a write is rejected, if any; checks in the order ACCESS, SHADOW, RANGE, RESERVED, then the
owning chapter's own: R485 gives no order among several that fail (DESIGN CHOICE, log entry 27). -/
def State.checkWrite (s : State) (p : Path) (die blk off : Nat) (v : Word) : Option Nat :=
  match rowOf die blk off with
  | none => some rejAccess
  | some r =>
    let shadow := decide (0x800 ≤ off ∧ off < 0xC00)
    if 0xC00 ≤ off ∨ !r.writable ∨ accessBad p blk r shadow ∨ (shadow ∧ !r.swapped) then some rejAccess
    else if shadow ∧ (s.swapState die blk = 1 ∨ s.swapState die blk = 2) then some rejShadow
    else if !shadow ∧ r.swapped ∧ !s.activeAllowed p blk r then some rejShadow
    else if rangeBad r v then some rejRange
    else if reservedBad r v then some rejReserved
    else s.special die blk (activeOff off) shadow v

/-! ## Shadow copies -/

/-- The offsets of the swapped registers of a page. -/
def swappedOffs (die blk : Nat) : List Nat :=
  match blockType die blk with
  | none => []
  | some ty => (pageRows die ty).flatMap (fun r =>
      if r.swapped then (List.range r.count).map (fun i => r.off + i * r.stride) else [])

/-- SHADOW_LOAD copies the active registers into the shadow (R482). -/
def State.shadowLoad (s : State) (die blk : Nat) : State :=
  forEach (swappedOffs die blk) (fun o t => t.wr die blk (o + 0x800) (t.rd die blk o)) s

/-- The offset and reason of the first shadow register that fails a check. -/
def State.shadowBad (s : State) (die blk : Nat) : Option (Nat × Nat) :=
  (swappedOffs die blk).findSome? (fun o =>
    match rowOf die blk o with
    | none => none
    | some r =>
      let v := s.rd die blk (o + 0x800)
      if rangeBad r v then some (o + 0x800, rejRange)
      else (s.special die blk o true v).map (fun x => (o + 0x800, x)))

/-- A field that changes only at the genesis boundary differs between shadow and active: MSB_REGION (R190), LDG_CFG (R334)
and CKP_CFG.BAY (R389). -/
def State.genesisOnlyDiffers (s : State) (die blk : Nat) : Option Nat :=
  let ty := (blockType die blk).getD 0
  if ty = 0x07 then
    (if (s.rd die blk 0x840).toNat / 64 ≠ (s.rd die blk 0x040).toNat / 64 then some 0x840 else none)
  else if ty = 0x20 then
    if s.rd die blk 0x840 ≠ s.rd die blk 0x040 then some 0x840
    else if s.field die blk 0xA00 55 48 ≠ s.field die blk 0x200 55 48 then some 0xA00
    else none
  else none

/-- The boundary an armed page is armed for, if it is armed or pending. -/
def State.armedFor (s : State) (key : Nat) : Option Nat :=
  match SMap.get (fun _ => 0) s.plan.armed key with
  | 0 => none
  | n + 1 => some n

def State.setArmed (s : State) (key v : Nat) : State :=
  { s with plan := { s.plan with armed := SMap.set (fun _ => 0) s.plan.armed key v } }

/-- ARM of a page (R487, R488); the reason and offset when it is rejected. -/
def State.armCheck (s : State) (die blk : Nat) : Option (Nat × Nat) :=
  let st := s.swapState die blk
  let n := (s.rd die blk 0x038).toNat
  if st = 1 ∨ st = 2 then some (0x018, rejState)
  else match s.shadowBad die blk with
    | some e => some e
    | none =>
      if !s.jobIn && n != 0 then some (0x038, rejState)
      else if s.jobIn && decide ((n : Int) ≤ s.ldg.newestOpened) then some (0x038, rejState)
      else if s.jobIn && (match s.plan.swap with
          | some q => q.announced && q.n == n
          | none => false) then some (0x018, rejState)
      else if s.jobIn then (s.genesisOnlyDiffers die blk).map (fun o => (o, rejGenesisOnly))
      else none

def State.arm (s : State) (die blk : Nat) : State :=
  match s.armCheck die blk with
  | some (o, r) => s.reject die blk o r
  | none => (s.setSwap die blk 1).setArmed (pageKey die blk) ((s.rd die blk 0x038).toNat + 1)

/-- DISARM (R488). -/
def State.disarm (s : State) (die blk : Nat) : State :=
  if s.swapState die blk = 2 then s.reject die blk 0x018 rejState
  else (s.setSwap die blk 0).setArmed (pageKey die blk) 0

/-- A BLK_CTL write (R482): at most one command. The reason when it is rejected. -/
def State.blkCtl (s : State) (die blk : Nat) (v : Word) : State × Bool :=
  let c := fld v 2 0
  if c = 1 then
    if s.swapState die blk = 1 ∨ s.swapState die blk = 2 then (s.reject die blk 0x018 rejShadow, true)
    else (s.shadowLoad die blk, false)
  else if c = 2 then (s.arm die blk, (s.armCheck die blk).isSome)
  else if c = 4 then (s.disarm die blk, s.swapState die blk == 2)
  else if c = 0 then (s, false)
  else (s.reject die blk 0x018 rejRelation, true)

/-- The command of a row reaches a page that can be addressed. -/
def State.pageThere (s : State) (die blk : Nat) : Bool := (blockType die blk).isSome && !s.dieGone die

/-- Management-port writes reach only the fault and power pages (R291). -/
def blkAccess (p : Path) (blk : Nat) : Bool := p != .mgmt || blk == 0x21 || blk == 0x22

/-- A BLK_CTL command of a path. -/
def State.blkCmd (s : State) (p : Path) (die blk c : Nat) : State :=
  if !s.pageThere die blk then s
  else if !blkAccess p blk then s.reject die blk 0x018 rejAccess
  else (s.blkCtl die blk (BitVec.ofNat 64 c)).1

/-- SHADOW_LOAD (R482): copies active 0x040-0x3FF into the shadow. -/
def execShadowLoad (p : Path) (die blk : Nat) (s : State) : Out :=
  onUnit (decide (die < 64 ∧ blk < 256)) (s.blkCmd p die blk 1)

/-- ARM (R487). -/
def execArm (p : Path) (die blk : Nat) (s : State) : Out :=
  onUnit (decide (die < 64 ∧ blk < 256)) (s.blkCmd p die blk 2)

/-- DISARM (R488). -/
def execDisarm (p : Path) (die blk : Nat) (s : State) : Out :=
  onUnit (decide (die < 64 ∧ blk < 256)) (s.blkCmd p die blk 4)

/-! ## Page swaps (R488) -/

/-- Moves the listed bytes of a stack's plan area when its live region changes size (R48, R188). -/
def State.movePlanArea (s : State) (from_ to_ : Nat) : State :=
  if from_ = to_ then s
  else
    let l := SMap.slice s.mem.stack from_ (from_ + 2 ^ 28)
    let m := SMap.clear s.mem.stack from_ (from_ + 2 ^ 28)
    let m := SMap.clear m to_ (to_ + 2 ^ 28)
    s.setStack (moveBytes m l from_ to_)

/-- Copies the shadow to the active registers of a page: its swap (R488). The window table and the translations have
their own homes; PLN_XLAT becomes active with the plan set, whether or not a page is armed. -/
def State.applyPage (s : State) (key : Nat) : State :=
  let die := keyDie key
  let blk := keyBlk key
  let old := s.planArea die
  let offs := (swappedOffs die blk).filter (fun o => !(blk == 0 && die == 60 && decide (0x200 ≤ o) && decide (o < 0x380)))
  let t := forEach offs (fun o t => t.wr die blk o (t.rd die blk (o + 0x800))) s
  let t := (t.setSwap die blk 0).setArmed key 0
  let t := t.setField die blk 0x030 63 32 (t.field die blk 0x030 63 32 + 1)
  if blk = 0x0F then
    let t := t.setField die blk 0x040 5 0 (t.liveBytes die / 2 ^ 30)
    t.movePlanArea old (t.planArea die)
  else t

/-- An armed page whose boundary opens unannounced, or whose swap is cancelled (R488). -/
def State.refusePage (s : State) (key : Nat) : State :=
  ((s.reject (keyDie key) (keyBlk key) 0x038 rejState).setSwap (keyDie key) (keyBlk key) 3).setArmed key 0

/-- The slot at whose opening a page swaps: the slot of its die, or for a stack the slot that names it; none when the
page swaps with the sets (R488). -/
def State.pageSlot (s : State) (key : Nat) : Option Nat :=
  let die := keyDie key
  if keyBlk key = 0x0F then (List.range 48).find? (fun n => xValid (s.xlat n) && xMs (s.xlat n) == die)
  else s.dieSlot die

/-- Applies `f` to every page that stands in SWAP state `st` for boundary `n` and satisfies `q`. -/
def State.eachArmed (s : State) (st n : Nat) (q : Nat → Bool) (f : Nat → State → State) : State :=
  forEach ((s.plan.armed.map (fun e => e.1)).filter (fun k =>
    s.armedFor k == some n && s.swapState (keyDie k) (keyBlk k) == st && q k)) f s

/-- The seal wave announces the swap at `n`: armed pages become PENDING. -/
def State.pagesPending (s : State) (n : Nat) : State :=
  s.eachArmed 1 n (fun _ => true) (fun k t => t.setSwap (keyDie k) (keyBlk k) 2)

/-- The swap at `n` is cancelled, or a slot opens `n` with no swap announced. -/
def State.pagesRefused (s : State) (n : Nat) : State := s.eachArmed 1 n (fun _ => true) (fun k t => t.refusePage k)

/-- The pages that swap when slot `sid` opens step `n`. -/
def State.slotPages (s : State) (sid n : Nat) : State :=
  s.eachArmed 2 n (fun k => s.pageSlot k == some sid) (fun k t => t.applyPage k)

/-- The pages that swap when the sets exchange roles at `n`. -/
def State.setPages (s : State) (n : Nat) : State :=
  s.eachArmed 2 n (fun k => s.pageSlot k == none) (fun k t => t.applyPage k)

/-- GENESIS or RESTORE: every page armed for the genesis boundary takes its shadow. -/
def State.genesisPages (s : State) : State := s.eachArmed 1 0 (fun _ => true) (fun k t => t.applyPage k)

end Sys2Proof.Machine
end

