-- ==== Sys2Proof/Machine/Image.lean ====
section
/-!
DEFINITION. Plan images: header, op records, operand descriptors, sync references, parameter words and the tensor table
(R38, R49, R107, R184, R260, R306), and the translation of logical addresses (R184, R186, R191).
-/

namespace Sys2Proof.Machine

/-! ## Logical addresses and shape words -/

/-- SPACE of a logical address (R184). -/
def aSpace (a : Nat) : Nat := a / 2 ^ 60 % 16
def aSlot (a : Nat) : Nat := a / 2 ^ 52 % 64
def aPp (a : Nat) : Nat := a / 2 ^ 50 % 4
def aOff (a : Nat) : Nat := a % 2 ^ 36
def aDsm (a : Nat) : Nat := a % 2 ^ 27
def aPort (a : Nat) : Nat := a / 2 ^ 42 % 4
def aFar (a : Nat) : Nat := a % 2 ^ 42

/-- The address with PPSEL cleared. -/
def aPlain (a : Nat) : Nat := if aSpace a = 1 then a - aPp a * 2 ^ 50 else a

/-- Reserved bits of an address are zero and its space may stand in a plan (R184, R185). -/
def aWellFormed (a : Nat) : Bool :=
  if aSpace a = 1 then a / 2 ^ 58 % 4 == 0 && a / 2 ^ 36 % 2 ^ 14 == 0 && aPp a != 3 && decide (aSlot a < 48)
  else if aSpace a = 2 then a / 2 ^ 27 % 2 ^ 33 == 0
  else if aSpace a = 3 then a / 2 ^ 44 % 2 ^ 16 == 0
  else false

/-- Where an address leads: a byte of a stack, of a die's DSM or of a port's far tier. -/
inductive Loc where
  | near (pa : Nat)
  | dsm (die off : Nat)
  | far (port off : Nat)
  | none
  deriving DecidableEq, Repr

def Loc.add (l : Loc) (n : Nat) : Loc :=
  match l with
  | .near pa => .near (pa + n)
  | .dsm d o => .dsm d (o + n)
  | .far p o => .far p (o + n)
  | .none => .none

/-- The copy that PPSEL selects in step `st` (R191): ping (S + 1) mod 2, pong S mod 2. -/
def ppCopy (pp : Nat) (st : Step) : Nat :=
  if pp = 1 then ((st + 1) % 2).toNat else if pp = 2 then (st % 2).toNat else 0

/-- Resolves a logical address for a die that runs in step `st` (R186, R191). -/
def State.resolve (s : State) (die : Nat) (st : Step) (a : Nat) : Loc :=
  if aSpace a = 1 then
    let ms := s.slotStack (aSlot a)
    .near (ms * stackBytes + aOff a + ppCopy (aPp a) st * s.pstride ms)
  else if aSpace a = 2 then .dsm die (aDsm a)
  else if aSpace a = 3 then .far (aPort a) (aFar a)
  else .none

/-- The shape word (R107). -/
def shRows (w : Nat) : Nat := w / 2 ^ 40 % 2 ^ 24
def shCols (w : Nat) : Nat := w / 2 ^ 16 % 2 ^ 24
def shBatch (w : Nat) : Nat := w / 2 ^ 10 % 64
def shTrans (w : Nat) : Bool := w / 2 ^ 9 % 2 == 1
def shBlkax (w : Nat) : Nat := w / 2 ^ 8 % 2
def shFmt (w : Nat) : Nat := w % 16
def shResv (w : Nat) : Nat := w / 2 ^ 4 % 16

/-- Rows and columns after TRANS is applied. -/
def shR (w : Nat) : Nat := if shTrans w then shCols w else shRows w
def shC (w : Nat) : Nat := if shTrans w then shRows w else shCols w

/-- Tiles along the columns, tiles of one matrix, tiles of the batch (R106, R107). -/
def shTc (w : Nat) : Nat := cdiv (shCols w) 32
def shTiles1 (w : Nat) : Nat := cdiv (shRows w) 32 * shTc w
def shTiles (w : Nat) : Nat := shTiles1 w * shBatch w

/-- Stored bytes of a tiled tensor. -/
def shBytes (w : Nat) : Nat := shTiles w * tileBytes (shFmt w)

/-- A legal shape word (R107): ranges, reserved bits, FMT, BLKAX only for MX formats. -/
def shLegal (w : Nat) : Bool :=
  decide (1 ≤ shRows w) && decide (1 ≤ shCols w) && decide (1 ≤ shBatch w) && shResv w == 0 && fmtLegal (shFmt w)
    && (fmtIsMx (shFmt w) || shBlkax w == 0)

/-! ## Op records (R38) -/

structure Opnd where
  addr : Nat
  shape : Nat
  deriving DecidableEq, Repr

/-- A sync reference (R260). -/
structure SyncRef where
  raw : Nat
  deriving DecidableEq, Repr

def SyncRef.role (r : SyncRef) : Nat := r.raw / 2 ^ 30 % 4
def SyncRef.scope (r : SyncRef) : Nat := r.raw / 2 ^ 27 % 8
def SyncRef.core (r : SyncRef) : Nat := r.raw / 2 ^ 25 % 4
def SyncRef.obj (r : SyncRef) : Nat := r.raw / 2 ^ 13 % 4096
def SyncRef.resv (r : SyncRef) : Nat := r.raw / 2 ^ 8 % 32
def SyncRef.gen (r : SyncRef) : Nat := r.raw % 256

/-- An op with its operands, references and parameter words. -/
structure Op where
  off : Nat
  index : Nat
  cls : Nat
  unit : Nat
  nopnd : Nat
  nsync : Nat
  retain : Bool
  persist : Bool
  resv : Nat
  opcode : Nat
  budget : Nat
  param : Nat
  opnds : List Opnd
  syncs : List SyncRef
  /-- The first twelve parameter words. -/
  pw : List Nat
  deriving DecidableEq, Repr

/-- A 64-bit number of an image at a byte offset. -/
def State.iw (s : State) (sid : Nat) (sh : Bool) (off : Nat) : Nat := s.imgNat sid sh off 8

def align16 (n : Nat) : Nat := (n + 15) / 16 * 16

/-- The length of the record whose word 0 is `w`. -/
def recLen (w : Nat) : Nat := align16 (16 + 16 * (w / 2 ^ 24 % 16) + 4 * (w / 2 ^ 20 % 16))

/-- The offset of op record `k` (R38). -/
def State.opOff (s : State) (sid : Nat) (sh : Bool) : Nat → Nat
  | 0 => 0x80
  | k + 1 => let o := s.opOff sid sh k; o + recLen (s.iw sid sh o)

/-- The op record at an offset. -/
def State.opFrom (s : State) (sid : Nat) (sh : Bool) (o : Nat) : Op :=
  let w := s.iw sid sh o
  let v := s.iw sid sh (o + 8)
  let no := w / 2 ^ 24 % 16
  let ns := w / 2 ^ 20 % 16
  let pa := v % 2 ^ 32 * 16
  { off := o, index := w / 2 ^ 40 % 2 ^ 24, cls := w / 2 ^ 34 % 64, unit := w / 2 ^ 28 % 64, nopnd := no, nsync := ns,
    retain := w / 2 ^ 19 % 2 == 1, persist := w / 2 ^ 18 % 2 == 1, resv := w / 2 ^ 16 % 4, opcode := w % 2 ^ 16,
    budget := v / 2 ^ 32, param := pa,
    opnds := (List.range no).map (fun i => ⟨s.iw sid sh (o + 16 + 16 * i), s.iw sid sh (o + 24 + 16 * i)⟩),
    syncs := (List.range ns).map (fun i => ⟨s.imgNat sid sh (o + 16 + 16 * no + 4 * i) 4⟩),
    pw := (List.range 12).map (fun i => s.iw sid sh (pa + 8 * i)) }

/-- Op `k` of a slot's active image. -/
def State.opAt (s : State) (sid : Nat) (sh : Bool) (k : Nat) : Op := s.opFrom sid sh (s.opOff sid sh k)

/-- Parameter word `i` of an op. -/
def Op.p (o : Op) (i : Nat) : Nat := o.pw.getD i 0
def Op.pword (o : Op) (i : Nat) : Word := BitVec.ofNat 64 (o.p i)
def Op.opnd (o : Op) (i : Nat) : Opnd := o.opnds.getD i ⟨0, 0⟩
def Op.last (o : Op) : Opnd := o.opnd (o.nopnd - 1)
def Op.cvt (o : Op) : Cvt := cvtOf (o.pword 0)

/-- Header fields (R49). -/
def State.hGen (s : State) (sid : Nat) (sh : Bool) : Nat := s.imgNat sid sh 0x10 4
def State.hMode (s : State) (sid : Nat) (sh : Bool) : Nat := s.imgNat sid sh 0x14 1
def State.hBin (s : State) (sid : Nat) (sh : Bool) : Nat := s.imgNat sid sh 0x15 1
def State.hOpCount (s : State) (sid : Nat) (sh : Bool) : Nat := s.imgNat sid sh 0x18 4
def State.hPeakStreams (s : State) (sid : Nat) (sh : Bool) : Nat := s.imgNat sid sh 0x1C 4
def State.hLen (s : State) (sid : Nat) (sh : Bool) : Nat := s.imgNat sid sh 0x20 8
def State.hDigest (s : State) (sid : Nat) (sh : Bool) : List Byte := s.img sid sh 0x40 64

/-- The ops of an image, at most as many as fit in it. -/
def State.ops (s : State) (sid : Nat) (sh : Bool) : List Op :=
  let n := Nat.min (s.hOpCount sid sh) (s.hLen sid sh / 16)
  let go : List (Op × Nat) := (List.range n).foldl (fun acc _ =>
    match acc with
    | [] => [(s.opFrom sid sh 0x80, 0x80)]
    | (x, o) :: r => let o' := o + recLen (s.iw sid sh o); (s.opFrom sid sh o', o') :: (x, o) :: r) []
  (go.reverse).map (fun e => e.1)

/-- The k-partition word (R93). -/
def kpPart (w : Nat) : Nat := w / 2 ^ 56 % 256
def kpN (w : Nat) : Nat := w / 2 ^ 48 % 256
def kpLo (w : Nat) : Nat := w / 2 ^ 24 % 2 ^ 24
def kpChunks (w : Nat) : Nat := w % 2 ^ 24

/-! ## Fields of parameter blocks -/

/-- Class 0x00 (R110). -/
def Op.arrays (o : Op) : Nat := o.p 0 / 2 ^ 58 % 64
def Op.pack (o : Op) : Nat := o.p 0 / 2 ^ 56 % 4
def Op.strict (o : Op) : Bool := o.p 0 / 2 ^ 55 % 2 == 1
def Op.keep (o : Op) : Bool := o.p 0 / 2 ^ 52 % 2 == 1
/-- ACC_IN of class 0x00 or of class 0x02 (R110, R135). -/
def Op.accIn (o : Op) : Nat := if o.cls = 0x02 then o.p 0 / 2 ^ 50 % 4 else o.p 0 / 2 ^ 53 % 4
/-- The k-partition word of an op, by class. -/
def Op.kpart (o : Op) : Nat := if o.cls = 0x00 ∨ o.cls = 0x02 then o.p 1 else o.p 2
/-- FLAG_ADDR of an op, by class. -/
def Op.flagAddr (o : Op) : Nat :=
  if o.cls = 0x00 then o.p 4 else if o.cls = 0x02 then o.p 3
  else if o.cls ≤ 0x0A ∨ o.cls = 0x0D then o.p 1 else 0
/-- KIND_PARAM of an engine op (R169), its bits numbered from 32 as in the word. -/
def Op.kp (o : Op) (hi lo : Nat) : Nat := fld (o.pword 0) hi lo

/-- NORM_KIND RMS of class 0x02 (R135). -/
def Op.rms (o : Op) : Bool := o.p 0 / 2 ^ 54 % 4 == 1
def Op.partialOut (o : Op) : Bool := o.p 0 / 2 ^ 52 % 2 == 1

/-- The positions of an op's output operands (R111, R136, R154, R170, R254, R257, R282, R380, R501). -/
def Op.outIdx (o : Op) : List Nat :=
  let last := [o.nopnd - 1]
  if o.cls = 0x00 then
    (if o.opcode = 3 then [0] else if o.keep then [] else if o.opcode = 1 then [2] else last)
  else if o.cls = 0x01 then last
  else if o.cls = 0x02 then
    (if o.opcode = 3 ∨ o.opcode = 6 then [2]
     else if o.opcode = 5 then last
     else if o.opcode = 7 then (if o.rms then [2, 3] else [3, 4])
     else if o.opcode = 8 then [4, 5]
     else [1])
  else if o.cls = 0x03 then (if o.opcode = 2 then [0] else [1])
  else if o.cls = 0x04 then (if o.opcode = 1 then [2] else [3])
  else if o.cls = 0x05 ∨ o.cls = 0x06 ∨ o.cls = 0x07 then [1]
  else if o.cls = 0x08 then (if o.opcode = 1 then [1] else last)
  else if o.cls = 0x09 then (if o.opcode = 1 then last else (List.range (o.nopnd - 1)).map (· + 1))
  else if o.cls = 0x0A then [2]
  else if o.cls = 0x0B then (if o.opcode = 2 then [0] else [])
  else if o.cls = 0x0C then [0]
  else if o.cls = 0x0D then [1]
  else if o.cls = 0x0F then (if o.opcode = 1 then [0] else [])
  else []

/-- Whether operand `i` of an op is stored as a plain byte string or records, not as tiles (R170, R380). -/
def Op.untiled (o : Op) (i : Nat) : Bool :=
  (o.cls == 0x04 && i == 1) || (o.cls == 0x07 && i == 1) || o.cls == 0x08 || (o.cls == 0x0C && decide (0 < i))

/-- The byte extent of operand `i`. -/
def Op.bytes (o : Op) (i : Nat) : Nat :=
  let w := (o.opnd i).shape
  if o.cls = 0x04 ∧ i = 1 then 4 * shRows w
  else if o.cls = 0x07 ∧ i = 1 then shRows w
  else if o.cls = 0x08 then 8 * shRows w * shCols w
  else if o.cls = 0x0C ∧ 0 < i then shRows w
  else shBytes w

/-- Operands that need no tensor-table entry (R170, R307, R380). -/
def Op.noEntry (o : Op) (i : Nat) : Bool := (o.cls == 0x07 && i == 1) || (o.cls == 0x0C && decide (0 < i))

/-- The length of an op's parameter block. -/
def Op.paramLen (o : Op) (nent : Nat) : Nat :=
  if o.cls = 0x00 then 64
  else if o.cls = 0x01 then 96 + 8 * (o.p 0 / 2 ^ 50 % 64)
  else if o.cls = 0x0E then (if o.opcode = 2 then 8 else 0)
  else if o.cls = 0x10 then 8 + 24 * nent
  else if 0x10 < o.cls then 0
  else 32

/-! ## The tensor table (R306) -/

structure Tensor where
  base : Nat
  hm : Nat
  id : Nat
  tiles : Nat
  producer : Nat
  mode : Nat
  fmt : Nat
  fmtHi : Nat
  resv : Nat
  deriving DecidableEq, Repr

/-- The trailer: table offset in bytes, number of entries, reserved word. -/
def State.trailer (s : State) (sid : Nat) (sh : Bool) : Nat × Nat × Nat :=
  let t := s.hLen sid sh - 16
  (s.iw sid sh t * 16, s.imgNat sid sh (t + 8) 4, s.imgNat sid sh (t + 12) 4)

def State.tensorAt (s : State) (sid : Nat) (sh : Bool) (o : Nat) : Tensor :=
  { base := s.iw sid sh o, hm := s.iw sid sh (o + 8), id := s.imgNat sid sh (o + 0x10) 4,
    tiles := s.imgNat sid sh (o + 0x14) 4, producer := s.imgNat sid sh (o + 0x18) 1,
    mode := s.imgNat sid sh (o + 0x19) 1, fmt := s.imgNat sid sh (o + 0x1A) 1 % 16,
    fmtHi := s.imgNat sid sh (o + 0x1A) 1 / 16, resv := s.imgNat sid sh (o + 0x1B) 5 }

def State.tensors (s : State) (sid : Nat) (sh : Bool) : List Tensor :=
  let (o, n, _) := s.trailer sid sh
  (List.range (Nat.min n (s.hLen sid sh / 32))).map (fun i => s.tensorAt sid sh (o + 32 * i))

def Tensor.bytes (t : Tensor) : Nat := t.tiles * tileBytes t.fmt

/-- A range of plain logical addresses lies in the tiles of an entry (R307). -/
def Tensor.covers (t : Tensor) (a n : Nat) : Bool := decide (t.base ≤ a) && decide (a + n ≤ t.base + t.bytes)

/-- The entry that holds an address range, PPSEL stripped. -/
def findTensor (ts : List Tensor) (a n : Nat) : Option Tensor := ts.find? (fun t => t.covers (aPlain a) n)

/-! ## The sync table (R261) -/

structure SyncEntry where
  scope : Nat
  core : Nat
  obj : Nat
  data : Bool
  resv : Nat
  target : Nat
  p : Nat
  c : Nat
  gens : Nat
  parentModule : Nat
  parentNode : Nat
  deriving DecidableEq, Repr

def syncEntryOf (w0 w1 w2 : Nat) : SyncEntry :=
  { scope := w0 / 2 ^ 61 % 8, core := w0 / 2 ^ 59 % 4, obj := w0 / 2 ^ 47 % 4096, data := w0 / 2 ^ 46 % 2 == 1,
    resv := w0 / 2 ^ 40 % 64 + w1 / 2 ^ 32 % 256 + w2 % 2 ^ 36, target := w0 % 2 ^ 40, p := w1 / 2 ^ 48 % 2 ^ 16,
    c := w1 / 2 ^ 40 % 256, gens := w1 % 2 ^ 32, parentModule := w2 / 2 ^ 48 % 2 ^ 16,
    parentNode := w2 / 2 ^ 36 % 2 ^ 12 }

/-- The sync table of a slot: the parameter block of its last op. -/
def State.syncTable (s : State) (sid : Nat) (sh : Bool) : List SyncEntry :=
  match (s.ops sid sh).getLast? with
  | none => []
  | some o =>
    (List.range (Nat.min (o.p 0 % 2 ^ 16) (s.hLen sid sh / 24))).map (fun i =>
      let b := o.param + 8 + 24 * i
      syncEntryOf (s.iw sid sh b) (s.iw sid sh (b + 8)) (s.iw sid sh (b + 16)))

end Sys2Proof.Machine
end

