-- ==== Sys2Proof/Machine/PlanCheck.lean ====
section
/-!
DEFINITION. The checks of a plan image as it completes (R51 and the chapters that own the op classes) and of a plan set
at commit (R51, R150, R167, R173, R260, R280, R290, R336, R370, R380).
-/

namespace Sys2Proof.Machine

/-! ## Operands and outputs -/

/-- Dimensions after transposition, with the batch. -/
def shDims (w : Nat) : Nat × Nat × Nat := (shR w, shC w, shBatch w)

/-- Formats that arrays, vector units and the row reduction unit may write (R60, R70). -/
def arrOut (f : Nat) : Bool := fmtLegal f && !(f == 6 || f == 7 || f == 8)

/-- An output descriptor agrees with the conversion control word. -/
def outOk (c : Cvt) (w : Nat) : Bool := shFmt w == c.fmt && (!fmtIsMx c.fmt || shBlkax w == c.blkax) && !shTrans w

/-- A conversion control word acceptable for an output of the arrays, vector unit or row reduction unit. A class-0x00 op
with KEEP = 1 writes no output, and the spec does not say whether FMT 6 to 8, which R70 does not list, is then rejected; the
model rejects it (DESIGN CHOICE, log entry 14). -/
def Op.cvtOut (o : Op) : Bool := cvtLegal (o.pword 0) && arrOut o.cvt.fmt

def popcount (m : Nat) : Nat := ((List.range 64).filter (fun i => m / 2 ^ i % 2 == 1)).length

/-- K-slice length and N-slice width (R115). -/
def kSlice (fmt pack : Nat) : Nat :=
  (if fmtBits fmt = 16 ∨ fmtBits fmt = 32 then 128 else if fmtBits fmt = 4 then 512 else 256) / 2 ^ pack
def nSlice (pack : Nat) : Nat := 128 / 2 ^ pack
def problems (pack : Nat) : Nat := if pack = 0 then 1 else if pack = 1 then 4 else 16

/-- Conditions of a k-partition word common to every op that carries one (R94). -/
def kpOk (k : Nat) : Bool := kpN k != 0 && decide (kpPart k < kpN k)

/-! ## Class 0x00 (R65, R69, R70, R80, R94, R102, R107 to R115) -/

def productOk (o : Op) : Bool :=
  let c := o.cvt
  let k := o.kpart
  let acc := o.accIn
  let nop := 2 + (if o.keep then 0 else 1) + (if acc = 1 then 1 else 0)
  let a := (o.opnd 0).shape
  let b := (o.opnd 1).shape
  let outs := if o.keep then [] else [(o.opnd 2).shape]
  let accs := if acc = 1 then [(o.opnd (nop - 1)).shape] else []
  let f := shFmt a
  let m := shR a
  let n := shC b
  let p := Nat.min (problems o.pack) (shBatch a)
  let ep := if o.keep ∧ o.pack ≠ 0 then shBatch a else p
  let ks := kSlice f o.pack
  let need := (2 * (ks / 32) * (nSlice o.pack / 32) + 2 * (ks / 32)) * tileBytes f * p
  o.nopnd == nop && kpChunks k != 0 && (kpPart k == 0 || acc == 0)
    && (kpN k ≤ 1 || o.keep || c.fmt == 0xB)
    && (!o.strict || (kpN k == 1 && kpPart k == 0 && kpLo k == 0 && !c.rnd && !c.sat && acc != 2
          && (o.keep || c.fmt == 0xA || c.fmt == 0xB)))
    && shFmt b == f && f != 0xB && ((f == 0xA) == o.strict)
    && (!fmtIsMx f || (shBlkax a == (if shTrans a then 1 else 0) && shBlkax b == (if shTrans b then 0 else 1)))
    && shC a == shR b
    && (outs ++ accs).all (fun w => shRows w == m && shCols w == n && !shTrans w && shBatch w == shBatch a)
    && shBatch b == shBatch a
    && outs.all (outOk c)
    && accs.all (fun w => arrOut (shFmt w) && (!o.strict || shFmt w == 0xA))
    && decide (kpLo k + kpChunks k ≤ cdiv (shC a) 32)
    && decide (popcount o.arrays * Nat.min (fld (o.pword 3) 63 48) m * n * ep ≤ fld (o.pword 2) 19 0)
    && decide (need ≤ fld (o.pword 3) 28 16 * 4096)

def kFoldOk (o : Op) : Bool :=
  let k := o.kpart
  let n := o.nopnd - (if o.keep then 0 else 1)
  let ins := (List.range n).map (fun i => (o.opnd i).shape)
  kpLo k == 0 && kpChunks k == 0 && (if kpPart k = 0 then o.accIn == 0 else o.accIn == 2)
    && decide (1 ≤ n) && decide (n < o.nopnd + (if o.keep then 1 else 0)) && decide (kpPart k + n ≤ kpN k)
    && ins.all (fun w => shFmt w == 0xB && shDims w == shDims (ins.getD 0 0))
    && (o.keep || (outOk o.cvt o.last.shape && shDims o.last.shape == shDims (ins.getD 0 0)))

/-- A class-0x00 op is legal. The spec does not say whether ACC_WRITE with ACC_IN = 1, which has no operand for the tensor
it would add, is rejected; the model rejects it (DESIGN CHOICE, log entry 15). -/
def matrixOk (o : Op) : Bool :=
  let w2 := o.pword 2
  let w3 := o.pword 3
  decide (1 ≤ o.opcode) && decide (o.opcode ≤ 3) && o.kp 51 32 == 0 && o.arrays != 0 && o.pack != 3 && o.accIn != 3
    && o.cvtOut && kpOk o.kpart
    && fld w2 63 52 == 0 && fld w2 31 20 == 0 && decide (1 ≤ fld w2 19 0) && decide (fld w2 51 32 + fld w2 19 0 ≤ 524288)
    && fld w3 47 45 == 0 && fld w3 31 29 == 0 && fld w3 15 0 == 0 && decide (32 ≤ fld w3 63 48) && fld w3 63 48 % 32 == 0
    && decide (1 ≤ fld w3 28 16) && decide (fld w3 44 32 + fld w3 28 16 ≤ 4096)
    && o.p 5 == 0 && o.p 6 == 0 && o.p 7 == 0
    && (!o.strict || (o.pack == 0 && o.opcode == 1))
    && (if o.opcode = 1 then productOk o
        else if o.opcode = 2 then kFoldOk o
        else o.nopnd == 1 && !o.keep && o.accIn != 1 && outOk o.cvt (o.opnd 0).shape)

/-! ## Class 0x01 (R94, R154 to R161) -/

/-- The source registers an instruction word names (R157). -/
def instrSources (w : Nat) : List Nat :=
  let opc := w / 2 ^ 56 % 256
  let a := w / 2 ^ 48 % 16
  let b := w / 2 ^ 44 % 16
  let c := w / 2 ^ 40 % 16
  if opc = 0x18 then []
  else if opc = 4 ∨ opc = 0x0F then [a, b, c]
  else if opc = 1 ∨ opc = 2 ∨ opc = 3 ∨ opc = 5 ∨ (0x0A ≤ opc ∧ opc ≤ 0x0E) then [a, b]
  else [a]

/-- The instruction words are legal and read no input register that holds nothing yet (R155, R156). -/
def programOk (nin : Nat) : List Nat → List Nat → Bool
  | _, [] => true
  | written, w :: ws =>
    let opc := w / 2 ^ 56 % 256
    decide (1 ≤ opc) && decide (opc ≤ 0x19) && w / 2 ^ 16 % 2 ^ 24 == 0 && (opc == 0x18 || w % 2 ^ 16 == 0)
      && (instrSources w).all (fun r => decide (r < nin) || decide (8 ≤ r) || written.contains r)
      && programOk nin (w / 2 ^ 52 % 16 :: written) ws

/-- Grid of a vector op: rows, columns and batch (R154, R156, R160). -/
def vecGrid (o : Op) : Nat × Nat × Nat :=
  let out := o.last.shape
  let ins := (List.range (o.nopnd - 1)).map (fun i => (o.opnd i).shape)
  if o.opcode = 1 then shDims out
  else (shRows out, (ins.map shC).foldl Nat.max 1, shBatch out)

/-- The combine conditions of a fold whose running value is operand 0 (R94, R161). -/
def combineOk (k nin outFmt : Nat) (op0Fmt : Nat) : Bool :=
  let folded := if kpPart k = 0 then nin else nin - 1
  kpOk k && kpLo k == 0 && kpChunks k == 0 && decide (1 ≤ folded) && decide (kpPart k + folded ≤ kpN k)
    && (kpPart k == 0 || op0Fmt == 0xB) && (decide (kpN k ≤ kpPart k + folded) || outFmt == 0xB)

/-- The combine ops that leave a running value in an output: their NPART and the PART that continues them (R94). -/
def Op.foldEnd (o : Op) : Option (Nat × Nat) :=
  let k := o.kpart
  let next := kpPart k + (if kpPart k = 0 then o.nopnd - 1 else o.nopnd - 2)
  if o.cls = 0x00 ∧ o.opcode = 2 ∧ !o.keep then some (kpN k, kpPart k + o.nopnd - 1)
  else if (o.cls = 0x01 ∧ o.opcode = 4) ∨ (o.cls = 0x09 ∧ o.opcode = 1 ∧ k ≠ 0) then some (kpN k, next)
  else none

/-- A fold of class 0x01 or 0x09 with PART > 0 takes in operand 0 the binary64 output of the fold op that ended at its PART
(R161, R170). DEDUCED: the preceding fold op stands earlier in the same image (log entry 13). -/
def Op.foldChained (ops : List Op) (o : Op) : Bool :=
  let k := o.kpart
  !((o.cls == 0x01 && o.opcode == 4) || (o.cls == 0x09 && o.opcode == 1 && k != 0)) || kpPart k == 0
    || ops.any (fun q => decide (q.index < o.index) && q.foldEnd == some (kpN k, kpPart k)
        && q.last.addr == (o.opnd 0).addr && shFmt q.last.shape == 0xB)

def vectorOk (o : Op) (instrs : List Nat) : Bool :=
  let nin := o.kp 63 60
  let ins := (List.range (o.nopnd - 1)).map (fun i => (o.opnd i).shape)
  let out := o.last.shape
  let g := vecGrid o
  decide (1 ≤ o.opcode) && decide (o.opcode ≤ 4) && decide (o.kp 59 56 ≤ 8) && o.kp 36 32 == 0 && o.cvtOut
    && decide (1 ≤ o.kp 45 37) && decide (o.kp 45 37 ≤ 256) && o.p 3 == 0 && outOk o.cvt out
    && (if o.opcode = 4 then
          nin == 0 && o.kp 55 50 == 0 && decide (2 ≤ o.nopnd)
            && combineOk (o.p 2) (o.nopnd - 1) o.cvt.fmt (shFmt (ins.getD 0 0))
            && ins.all (fun w => shFmt w == 0xB && shDims w == shDims out)
        else
          decide (1 ≤ nin) && decide (nin ≤ 4) && decide (1 ≤ o.kp 55 50) && decide (o.kp 55 50 ≤ 32) && o.p 2 == 0
            && o.nopnd == nin + 1 && programOk nin [] instrs
            && (o.opcode == 1 || shCols out == 1)
            && ins.all (fun w => (shR w == 1 || shR w == g.1) && (shC w == 1 || shC w == g.2.1)
                  && (shBatch w == g.2.2 || (shBatch w == 1 && (shR w == 1 || shC w == 1)))))

/-! ## Class 0x02 (R134 to R136) -/

/-- A class-0x02 op is legal. DESIGN CHOICE (log entry 16): gamma and beta, whose shape R136 does not give, are one row of
as many columns as x has positions, after TRANS; EPS = -0 does not count as negative (R135); and K_LO_CHUNK and K_CHUNKS of
the opcodes from 0x0006, which are neither partition nor combine ops (R94), are neither checked nor applied. -/
def reduceOk (o : Op) (service : Bool) : Bool :=
  let c := o.opcode
  let k := o.kpart
  let acc := o.accIn
  let w := (o.opnd 0).shape
  let R := shR w
  let P := shC w
  let sh (i : Nat) : Nat := (o.opnd i).shape
  let dims (i r p : Nat) : Bool := shR (sh i) == r && shC (sh i) == p
  let plain (i r p : Nat) : Bool := shRows (sh i) == r && shCols (sh i) == p && !shTrans (sh i)
  let b64 (i r p : Nat) : Bool := plain i r p && shFmt (sh i) == 0xB
  let main (i r p : Nat) : Bool := plain i r p && outOk o.cvt (sh i)
  let eps := val64 (o.pword 2)
  let known := (decide (1 ≤ c) && decide (c ≤ 8)) || (service && (c == 0x80 || c == 0x81))
  let rms := o.rms
  let g := if rms then 0 else 1
  known && o.kp 63 56 == 0 && decide (o.kp 55 54 ≤ 1) && (c == 7 || c == 8 || o.kp 55 54 == 0)
    && decide (acc ≤ 1) && o.kp 49 32 == 0 && o.cvtOut && kpOk k
    && (match eps with
        | .fin neg m _ => (!neg || m == 0) && (c == 7 || c == 8 || o.p 2 == 0)
        | _ => false)
    && (List.range o.nopnd).all (fun i => shBatch (sh i) == 1)
    && !(o.kp 53 53 == 1 && c == 4 && decide (P < 2))
    && !(decide (1 < kpN k) && decide (6 ≤ c))
    && !(c == 4 && (decide (7 < kpN k) || (!o.partialOut && decide (1 < kpN k))))
    && !(acc == 1 && (kpPart k != 0 || c == 4 || c == 5 || c == 6 || c == 7 || decide (0x80 ≤ c)))
    && (if 1 ≤ c ∧ c ≤ 4 then
          kpChunks k != 0 && decide (kpLo k + kpChunks k ≤ cdiv P 32)
            && (decide (kpN k ≤ 1) || o.cvt.fmt == 0xB || c == 4)
        else true)
    && (if c = 1 ∨ c = 2 then o.nopnd == 2 + acc && main 1 R 1 && (acc == 0 || plain 2 R 1)
        else if c = 3 then o.nopnd == 3 + acc && dims 1 R P && main 2 R 1 && (acc == 0 || plain 3 R 1)
        else if c = 4 then o.nopnd == 2 && (if o.partialOut then b64 1 R 3 else main 1 R 2)
        else if c = 5 then
          kpPart k == 0 && kpLo k == 0 && kpChunks k == 0 && o.nopnd == kpN k + 1
            && (List.range (kpN k)).all (fun i => dims i R 3 && shFmt (sh i) == 0xB) && main (kpN k) R 2
        else if c = 6 then o.nopnd == 3 && dims 1 R P && main 2 R P
        else if c = 7 then
          o.nopnd == 4 + g && dims 1 1 P && (rms || dims 2 1 P) && main (2 + g) R P && b64 (3 + g) R 2
        else if c = 8 then
          o.nopnd == 6 + acc && dims 1 R 2 && shFmt (sh 1) == 0xB && dims 2 1 P && dims 3 R P && main 4 R P
            && b64 5 (1 + g) P && (acc == 0 || b64 6 (1 + g) P)
        else o.nopnd == 2 && o.cvt.fmt == 0xB && b64 1 R 2)

/-! ## Engine classes (R168 to R174, R257, R310, R501) -/

/-- The shape word of an index operand of `n` indices (R170). -/
def indexShape (w n : Nat) : Bool :=
  shRows w == n && shCols w == 1 && shBatch w == 1 && w % 2 ^ 10 == 0

/-- KIND_PARAM of SORT and MERGE (R170). -/
def sortParamOk (o : Op) (runs : Bool) : Bool :=
  decide (1 ≤ o.kp 63 60) && decide (o.kp 63 60 ≤ 8) && decide (o.kp 59 58 ≤ 2) && decide (1 ≤ o.kp 57 54)
    && decide (o.kp 57 54 ≤ 8) && decide (o.kp 63 60 ≤ 8 * o.kp 57 54)
    && (if runs then decide (6 ≤ o.kp 53 48) && decide (o.kp 53 48 ≤ 16) else o.kp 53 48 == 0) && o.kp 47 32 == 0

def recordShape (o : Op) (w : Nat) : Bool := shCols w == o.kp 57 54 && shFmt w == 0xB && shBatch w == 1 && !shTrans w

/-- GATHER and SCATTER move whole rows: a block scale must belong to one row. -/
def rowBlocks (w : Nat) : Bool := !fmtIsMx (shFmt w) || shBlkax w == 0

def engineOk (o : Op) : Bool :=
  let c := o.cls
  let oc := o.opcode
  let sh (i : Nat) : Nat := (o.opnd i).shape
  let takesCvt := (c == 0x05) || (c == 0x04 && oc == 3) || (c == 0x09 && oc == 1) || c == 0x0A
  let verify := c == 0x07 && oc == 3
  let tiledOps := (List.range o.nopnd).filter (fun i => !o.untiled i)
  (takesCvt || o.p 0 % 2 ^ 32 == 0) && (!takesCvt || cvtLegal (o.pword 0))
    && (verify || o.p 3 == 0) && ((c == 0x09 && oc == 1) || o.p 2 == 0)
    && tiledOps.all (fun i => !shTrans (sh i))
    && (if c = 0x03 ∨ c = 0x0D then
          decide (1 ≤ oc) && decide (oc ≤ 2) && decide (1 ≤ o.kp 63 58) && o.kp 57 32 == 0
            && (if c = 0x03 ∧ oc = 2 then o.nopnd == 1 else o.nopnd == 2 && sh 0 == sh 1)
            && (c == 0x03 || (aSpace (o.opnd 0).addr == (if oc = 1 then 3 else 1)
                  && aSpace (o.opnd 1).addr == (if oc = 1 then 1 else 3)))
        else if c = 0x04 then
          o.kp 63 32 == 0 &&
            (if oc = 1 then
              o.nopnd == 3 && indexShape (sh 1) (shRows (sh 2)) && shCols (sh 2) == shCols (sh 0)
                && shFmt (sh 2) == shFmt (sh 0) && shBatch (sh 0) == 1 && shBatch (sh 2) == 1
                && rowBlocks (sh 0) && rowBlocks (sh 2)
             else
              (oc == 2 || oc == 3) && o.nopnd == 4 && indexShape (sh 1) (shRows (sh 0))
                && shCols (sh 0) == shCols (sh 3) && shRows (sh 2) == shRows (sh 3) && shCols (sh 2) == shCols (sh 3)
                && shBatch (sh 0) == 1 && shBatch (sh 2) == 1 && shBatch (sh 3) == 1
                && (if oc = 2 then shFmt (sh 0) == shFmt (sh 3) && shFmt (sh 2) == shFmt (sh 3)
                      && [0, 2, 3].all (fun i => rowBlocks (sh i))
                    else outOk o.cvt (sh 3) && arrOut o.cvt.fmt))
        else if c = 0x05 then
          oc == 1 && o.kp 63 32 == 0 && o.nopnd == 2 && shDims (sh 0) == shDims (sh 1) && outOk o.cvt (sh 1)
        else if c = 0x06 then
          oc == 1 && o.kp 63 32 == 0 && o.nopnd == 2 && shRows (sh 1) == shCols (sh 0) && shCols (sh 1) == shRows (sh 0)
            && shBatch (sh 1) == shBatch (sh 0) && shFmt (sh 1) == shFmt (sh 0)
            && (!fmtIsMx (shFmt (sh 0)) || shBlkax (sh 1) == 1 - shBlkax (sh 0))
        else if c = 0x07 then
          let ob := o.kp 63 56
          let want := if oc = 1 then ob else if oc = 2 then 4 else 8
          decide (1 ≤ oc) && decide (oc ≤ 3) && o.nopnd == 2
            && sh 1 == want * 2 ^ 40 + 2 ^ 16 + 2 ^ 10
            && (if oc = 2 then o.kp 63 32 == 0 else decide (1 ≤ ob) && decide (ob ≤ 64))
            && (oc == 3 || o.kp 55 32 == 0)
            && (oc != 3 || (o.kp 54 32 == 0 && o.p 3 != 0 && (o.kp 55 55 == 0 || ob == 32)))
        else if c = 0x08 then
          let ins := (List.range (o.nopnd - 1)).map sh
          (oc == 1 || oc == 2) && decide (2 ≤ o.nopnd) && (oc == 2 || o.nopnd == 2) && sortParamOk o (oc == 1)
            && (List.range o.nopnd).all (fun i => recordShape o (sh i))
            && shRows o.last.shape == (ins.map shRows).foldl (· + ·) 0
        else if c = 0x09 ∧ oc = 2 then
          o.kp 63 32 == 0 && decide (2 ≤ o.nopnd) && (List.range o.nopnd).all (fun i => sh i == sh 0)
        else
          let ins := (List.range (o.nopnd - 1)).map sh
          let out := o.last.shape
          oc == 1 && o.kp 63 32 == 0 && decide (2 ≤ o.nopnd) && (c == 0x09 || o.nopnd == 3)
            && outOk o.cvt out && arrOut o.cvt.fmt && ins.all (fun w => shDims w == shDims out)
            && (o.p 2 == 0 || combineOk (o.p 2) (o.nopnd - 1) o.cvt.fmt (shFmt (ins.getD 0 0))))

/-! ## The other classes (R254, R271, R282, R380) -/

/-- A reference of role COUNT_DATA at the end of a transfer. -/
def transferOk (s : State) (o : Op) : Bool :=
  let w0 := o.pword 0
  let vc := fld w0 47 45
  let rs : SyncRef := ⟨fld (o.pword 2) 63 32⟩
  let ls : SyncRef := ⟨fld (o.pword 2) 31 0⟩
  o.nopnd == 1 && fld w0 44 0 == 0 && o.p 3 == 0 && fld w0 63 48 != 0xFFFF && fld w0 63 48 != s.moduleId
    && shLegal (o.opnd 0).shape && !shTrans (o.opnd 0).shape
    && (if o.opcode = 1 then
          (vc == 0 || vc == 2 || vc == 4) && ls.raw == 0 && (rs.raw == 0 || rs.role == 2)
        else o.opcode == 2 && vc == 0 && rs.raw == 0 && ls.raw != 0 && ls.role == 2)

def resliceOk (o : Op) : Bool :=
  o.opcode == 1 && decide (2 ≤ o.nopnd) && o.p 0 % 2 ^ 32 == 0 && o.p 3 == 0
    && fld (o.pword 1) 63 32 % 32 == 0 && fld (o.pword 1) 31 0 % 32 == 0
    && (aSpace (o.opnd 0).addr == 1 || !aWellFormed (o.opnd 0).addr) && shLegal (o.opnd 0).shape && !shTrans (o.opnd 0).shape
    && (List.range (o.nopnd - 1)).all (fun i =>
          let d := o.opnd (i + 1)
          ((aSpace d.addr == 1 && aPp d.addr == 0) || !aWellFormed d.addr) && decide (1 ≤ shRows d.shape)
            && d.shape % 2 ^ 40 == 2 ^ 16 + 2 ^ 10)

def windowOpOk (o : Op) : Bool :=
  (o.opcode == 1 || o.opcode == 2) && o.nopnd == 1 && fld (o.pword 0) 58 32 == 0 && fld (o.pword 2) 31 0 == 0
    && fld (o.pword 3) 39 0 == 0 && decide (1 ≤ fld (o.pword 3) 63 48) && decide (fld (o.pword 3) 63 48 ≤ 10000)
    && decide (1 ≤ fld (o.pword 3) 47 40) && decide (fld (o.pword 3) 47 40 ≤ 32)
    && shLegal (o.opnd 0).shape && !shTrans (o.opnd 0).shape
    && (aSpace (o.opnd 0).addr == 1 || !aWellFormed (o.opnd 0).addr)

/-- The slot kinds that may use a class (R39). -/
def classFor (kind slot cls : Nat) : Bool :=
  if cls = 0x0E ∨ cls = 0x10 then true
  else if kind = 0 then decide (cls ≤ 0x09)
  else if kind = 1 then cls == 0x0A || cls == 0x0B || (cls == 0x0F && (slot == 6 || slot == 7))
  else cls == 0x0C || cls == 0x0D

/-- UNIT: cores for classes 0x00 to 0x02, die level for engines and for link and hub slots (R38, R168). -/
def unitOk (kind cls unit : Nat) : Bool :=
  if kind ≠ 0 then unit == 0x3F
  else if cls ≤ 0x02 then decide (unit < 4)
  else if cls = 0x0E then decide (unit < 4) || unit == 0x3F
  else unit == 0x3F

/-- The padding between an op record's references and the next record is zero (R38). -/
def State.paddingOk (s : State) (sid : Nat) (sh : Bool) (o : Op) : Bool :=
  let e := 16 + 16 * o.nopnd + 4 * o.nsync
  (s.img sid sh (o.off + e) (align16 e - e)).all (fun b => b == 0)

/-- The instruction words of a vector op. -/
def State.instrs (s : State) (sid : Nat) (sh : Bool) (o : Op) : List Nat :=
  (List.range (o.kp 55 50)).map (fun i => s.iw sid sh (o.param + 96 + 8 * i))

/-- An op is legal (code 0x08). -/
def State.opLegal (s : State) (sid : Nat) (sh : Bool) (o : Op) : Bool :=
  let kind := slotKind sid
  classFor kind (slotNum sid) o.cls && unitOk kind o.cls o.unit && o.resv == 0 && decide (o.nopnd ≤ 8)
    && decide (o.nsync ≤ 8) && (!o.retain || o.nopnd != 0) && s.paddingOk sid sh o
    && (if o.cls ≤ 0x0A ∨ o.cls = 0x0D then
          (List.range o.nopnd).all (fun i => (o.cls == 0x07 && i == 1) || shLegal (o.opnd i).shape) else true)
    && (if o.cls = 0x00 then matrixOk o
        else if o.cls = 0x01 then vectorOk o (s.instrs sid sh o)
        else if o.cls = 0x02 then reduceOk o (s.hMode sid sh == 1)
        else if o.cls ≤ 0x0A ∨ o.cls = 0x0D then engineOk o
        else if o.cls = 0x0B then transferOk s o
        else if o.cls = 0x0C then resliceOk o
        else if o.cls = 0x0E then
          o.nopnd == 0 && (o.opcode == 1 || (o.opcode == 2 && decide (5000 ≤ o.p 0)))
        else if o.cls = 0x0F then windowOpOk o
        else o.nopnd == 0 && o.opcode == 1)

/-! ## Operand ranges (R185, R307) -/

/-- MSB_REGION as the job will see it: the shadow of a page armed for the genesis boundary when no job runs (R190). -/
def State.loadRegion (s : State) (ms : Nat) : Word :=
  if !s.jobIn && s.armedFor (pageKey ms 0x0F) == some 0 then s.rd ms 0x0F 0x840 else s.rd ms 0x0F 0x040

/-- The areas of a stack that plans may touch: working space, plan area, crucible, spare (R188, R189). -/
def areasOf (r : Word) : List (Nat × Nat) :=
  let cruc := fld r 19 16 * 2 ^ 30
  let spare := fld r 28 24 * 2 ^ 30
  let live := stackBytes - cruc - spare
  [(0, live - 2 ^ 28 - 17 * 2 ^ 20), (live - 2 ^ 28, live), (live, live + cruc),
   (live + cruc + 2 ^ 28, 24512 * pageBytes)]

def regionStride (r : Word) : Nat := fld r 47 36 * pageBytes

/-- A FAR range lies within the capacity that its port reported (R185, R213). -/
def State.farCap (s : State) (port : Nat) : Nat := s.field (56 + port) 0x1F 0x048 41 0

/-- An operand address of `n` bytes is in range (R185). -/
def State.addrOk (s : State) (a n : Nat) : Bool :=
  aWellFormed a &&
    (if aSpace a = 1 then
      let r := s.loadRegion (s.slotStack (aSlot a))
      let st := regionStride r
      let inArea (off : Nat) : Bool := (areasOf r).any (fun p => decide (p.1 ≤ off) && decide (off + Nat.max n 1 ≤ p.2))
      s.slotUsed (aSlot a) && inArea (aOff a) && (aPp a == 0 || (st != 0 && inArea (aOff a + st)))
     else if aSpace a = 2 then decide (aDsm a + n ≤ 0x6000000)
     else decide (aFar a + n ≤ s.farCap (aPort a)))

/-- FLAG_ADDR and AUX allow SLOT with PPSEL 0b00 and DSM only (R185). -/
def State.sideAddrOk (s : State) (a n : Nat) : Bool :=
  a == 0 || ((aSpace a == 2 || (aSpace a == 1 && aPp a == 0)) && s.addrOk a n)

def Op.verifyAux (o : Op) : Nat := if o.cls = 0x07 ∧ o.opcode = 3 then o.p 3 else 0

def State.operandsOk (s : State) (ts : List Tensor) (o : Op) : Bool :=
  (List.range o.nopnd).all (fun i =>
      let d := o.opnd i
      let n := o.bytes i
      let out := o.outIdx.contains i
      s.addrOk d.addr n && (!(out && o.persist) || (aSpace d.addr == 1 && aPp d.addr == 2))
        && (aSpace d.addr == 2 || o.noEntry i ||
            (match findTensor ts d.addr n with
             | none => false
             | some t => (t.fmt == shFmt d.shape) && !(out && t.mode == 2))))
    && s.sideAddrOk o.flagAddr 2 && s.sideAddrOk o.verifyAux (o.kp 63 56)

/-- Two half-open ranges overlap. -/
def overlaps (a n b m : Nat) : Bool := decide (a < b + m) && decide (b < a + n)

/-- The hallmark extent of an entry. -/
def Tensor.hmOverlaps (t u : Tensor) : Bool :=
  overlaps t.hm (4 * t.tiles) u.hm (4 * u.tiles) || overlaps t.base t.bytes u.base u.bytes

def tensorFieldsOk (t : Tensor) : Bool :=
  fmtLegal t.fmt && t.fmtHi == 0 && t.resv == 0 && decide (t.mode ≤ 2)
    && (aSpace t.base == 1 || aSpace t.base == 3) && aWellFormed t.base && aPp (aPlain t.base) == 0 && aPlain t.base == t.base
    && aWellFormed t.hm && aSpace t.hm == aSpace t.base && aPlain t.hm == t.hm
    && (decide (t.producer < 60) || t.producer == 0xFE || t.producer == 0xFF)

def pairwiseOk {α : Type} (f : α → α → Bool) : List α → Bool
  | [] => true
  | x :: xs => xs.all (f x) && pairwiseOk f xs

def tensorsOk (ts : List Tensor) : Bool :=
  ts.all tensorFieldsOk && pairwiseOk (fun t u => !t.hmOverlaps u) ts
    && ts.all (fun t => ts.all (fun u => !overlaps t.hm (4 * t.tiles) u.base u.bytes))

/-! ## Sync references (R51, R260, R261) -/

def refFieldsBad (r : SyncRef) (dieLevel : Bool) : Bool :=
  r.resv != 0 || r.role == 3 || decide (3 < r.scope) || (r.scope != 1 && r.core != 0)
    || (r.scope == 0 && dieLevel) || (r.scope == 3 && r.role != 1)
    || (decide (r.scope ≤ 1) && decide (48 ≤ r.obj)) || (r.scope == 2 && decide (64 ≤ r.obj))

/-- The table key of a reference of an op on `unit`. -/
def refKey (unit : Nat) (r : SyncRef) : Nat × Nat × Nat :=
  if r.scope = 0 then (1, unit, r.obj) else (r.scope, r.core, r.obj)

def inTable (t : List SyncEntry) (k : Nat × Nat × Nat) : Bool :=
  t.any (fun e => e.scope == k.1 && e.core == k.2.1 && e.obj == k.2.2)

/-- A barrier op: one SIGNAL to a tree node and one WAIT on a local EVENT object with TARGET = P = 1 (R269). -/
def isBarrier (t : List SyncEntry) (o : Op) : Bool :=
  o.cls == 0x0E && (o.syncs.filter (fun r => r.scope == 3)).length == 1 && o.syncs.length == 2
    && o.syncs.any (fun r => r.role == 0 && t.any (fun e =>
          (e.scope, e.core, e.obj) == refKey o.unit r && !e.data && e.target == 1 && e.p == 1))

def refOk (kind : Nat) (t : List SyncEntry) (o : Op) (r : SyncRef) : Bool :=
  !refFieldsBad r (o.unit == 0x3F) &&
    (if r.scope = 3 then kind != 1 && isBarrier t o
     else if kind ≠ 0 ∧ r.scope = 1 then o.nopnd != 0 && aSpace (o.opnd 0).addr == 1
     else inTable t (refKey o.unit r))

/-- The reference a GET counts by (R254). -/
def Op.localSync (o : Op) : List SyncRef := if o.cls = 0x0B ∧ o.opcode = 2 then [⟨fld (o.pword 2) 31 0⟩] else []
def Op.remoteSync (o : Op) : SyncRef := ⟨fld (o.pword 2) 63 32⟩

def syncOk (kind : Nat) (t : List SyncEntry) (o : Op) : Bool :=
  (o.syncs ++ o.localSync).all (refOk kind t o)
    && (!(o.cls == 0x0B && o.opcode == 1 && o.remoteSync.raw != 0) ||
          (!refFieldsBad o.remoteSync true && o.remoteSync.scope != 3))

def entryOk (kind slot : Nat) (e : SyncEntry) : Bool :=
  decide (1 ≤ e.scope) && decide (e.scope ≤ 3) && e.resv == 0 && decide (1 ≤ e.target) && decide (1 ≤ e.p)
    && decide (1 ≤ e.c) && decide (1 ≤ e.gens) && (e.data || e.p == e.target) && (e.scope == 1 || e.core == 0)
    && (if e.scope = 3 then kind == 1 && !e.data && e.c == 1 && e.obj / 512 == slot
        else e.parentModule == 0 && e.parentNode == 0 && (e.scope == 2 || kind == 0)
          && decide (e.obj < (if e.scope = 2 then 64 else 48)))

/-! ## One image (R51) -/

def kindLimit (kind : Nat) : Nat := if kind = 0 ∨ 2 < kind then 2 ^ 27 else 2 ^ 24
def streamLimit (kind : Nat) : Nat := if kind = 0 then 32768 else if kind = 1 then 65536 else 8192

/-- The key under which an image of a frame's SLOT_KIND and SLOT is held: its slot's number, or one beyond 63 for a slot
that is not in use. -/
def State.imageSid (s : State) (kind slot : Nat) : Nat :=
  let sid := sidOf kind slot
  if (kind = 0 ∧ slot < 48 ∧ s.slotUsed slot) ∨ (kind = 1 ∧ slot < 8) ∨ (kind = 2 ∧ slot < 4) then sid
  else 64 + kind * 256 + slot

def sidKind (sid : Nat) : Nat := if sid < 64 then slotKind sid else (sid - 64) / 256
def sidSlot (sid : Nat) : Nat := if sid < 64 then slotNum sid else (sid - 64) % 256

/-- A bin that the die's condition restrictions allow (R42, R323, R464). -/
def State.binAllowed (s : State) (die bin : Nat) : Bool :=
  !s.pwr.excluded.contains (die * 4 + bin) && !(s.stu.b2Only && bin != 2)
    && (List.range 4).all (fun c => (List.range 6).all (fun l =>
        let a := s.field die (0x05 + c) 0x078 (3 * l + 2) (3 * l)
        s.field die (0x05 + c) (0x0C0 + 8 * a) (52 + bin) (52 + bin) == 1))

/-- The translation that will serve a shadow set: the shadow entry (R33, R51). -/
def State.shadowXlat (s : State) (n : Nat) : Word := s.rd 60 0 (0xA00 + 8 * n)

def State.badHeader (s : State) (sid : Nat) : Bool :=
  let h (o n : Nat) : Nat := s.imgNat sid true o n
  h 0 4 != 0x4C504C46 || h 4 2 != 1 || h 6 1 != sidKind sid || h 7 1 != sidSlot sid || decide (2 < sidKind sid)
    || h 0x16 2 != 0 || decide (1 < h 0x14 1) || decide (3 < h 0x15 1)
    || (sidKind sid != 0 && h 0x38 8 != 0) || h 0x28 8 % 2 ^ 12 != 0 || h 0x30 8 % 2 ^ 12 != 0

/-- The digest of an image: bytes 0x00-0x3F and 0x80 to the end (R49). -/
def State.imageDigest (s : State) (sid : Nat) (sh : Bool) : List Byte :=
  digest64 (s.img sid sh 0 64 ++ s.img sid sh 0x80 (s.hLen sid sh - 0x80))

/-- A part of the image lies outside it or over its header. -/
def partBad (len off n : Nat) : Bool := decide (n ≠ 0) && (decide (off < 0x80) || decide (len < off + n))

def State.sizeBad (s : State) (sid : Nat) (ops : List Op) : Bool :=
  let len := s.hLen sid true
  let (toff, tn, _) := s.trailer sid true
  decide (kindLimit (sidKind sid) < len) || decide (len < 0x90) || decide (len / 16 < s.hOpCount sid true)
    || ops.any (fun o => partBad (len - 16) o.off (recLen (s.iw sid true o.off))
          || partBad (len - 16) o.param (o.paramLen (o.p 0 % 2 ^ 16)))
    || partBad (len - 16) toff (32 * tn)

/-- The codes that the header of an image alone shows, in increasing order (R51). -/
def State.headTests (s : State) (sid : Nat) : List (Nat × Bool) :=
  [(0x01, s.badHeader sid),
   (0x03, s.jobIn && s.iw sid true 8 != (s.rd 62 0x20 0x070).toNat),
   (0x04, s.hGen sid true != s.plan.shadowGen || decide (s.hGen sid true ≤ s.plan.activeGen)),
   (0x05, decide (64 ≤ sid))]

/-- The lowest of those codes, if any. -/
def State.headReject (s : State) (sid : Nat) : Option Nat := ((s.headTests sid).find? (fun e => e.2)).map (fun e => e.1)

/-- The lowest code for which a completed image is rejected (R51), if any; `beyond` says that bytes arrived at or beyond
IMAGE_LEN. -/
def State.imageReject (s : State) (sid : Nat) (beyond : Bool := false) : Option Nat :=
  let kind := sidKind sid
  let slot := sidSlot sid
  let ops := s.ops sid true
  let ts := s.tensors sid true
  let tab := s.syncTable sid true
  let tests : List (Nat × Bool) := [
    (0x01, s.badHeader sid),
    (0x02, s.imageDigest sid true != s.hDigest sid true),
    (0x03, s.jobIn && s.iw sid true 8 != (s.rd 62 0x20 0x070).toNat),
    (0x04, s.hGen sid true != s.plan.shadowGen || decide (s.hGen sid true ≤ s.plan.activeGen)),
    (0x05, decide (64 ≤ sid)),
    (0x06, beyond || s.sizeBad sid ops),
    (0x07, (ops.zip (List.range ops.length)).any (fun e => e.1.index != e.2) || ops.isEmpty
      || (match ops.getLast? with
          | none => true
          | some o => !(o.cls == 0x10 && o.opcode == 1))),
    (0x08, !ops.all (fun o => s.opLegal sid true o && o.foldChained ops)),
    (0x09, ops.any (fun o => o.budget == 0)),
    (0x0A, !ops.all (s.operandsOk ts) || !tensorsOk ts || (s.trailer sid true).2.2 != 0),
    (0x0B, !ops.all (syncOk kind tab) || !tab.all (entryOk kind slot)
      || (match ops.getLast? with
          | none => false
          | some o => decide (2 ^ 16 ≤ o.p 0))),
    (0x0C, (List.range 4).any (fun c => decide (8192 < s.imgNat sid true (0x38 + 2 * c) 2))),
    (0x0D, decide (streamLimit kind < s.hPeakStreams sid true)),
    (0x0E, kind == 0 && decide (sid < 48) && !s.binAllowed (xCd (s.shadowXlat sid)) (s.hBin sid true))]
  (tests.find? (fun e => e.2)).map (fun e => e.1)

/-! ## The set at commit (R51, R53) -/

/-- Field ranges of a coordinate box (R37). -/
def boxOf (b e : Nat) : List (Nat × Nat) :=
  [(44, 20), (36, 8), (24, 12), (12, 12)].map (fun p =>
    let lo := b / 2 ^ p.1 % 2 ^ p.2
    (lo, lo + e / 2 ^ p.1 % 2 ^ p.2))

def boxesOverlap (a b : List (Nat × Nat)) : Bool :=
  (List.zip a b).all (fun p => decide (p.1.1 ≤ p.2.2) && decide (p.2.1 ≤ p.1.2))

/-- Space, unit and offset of an operand in a step of parity `st` (R191). -/
def State.spanAt (s : State) (sid : Nat) (st : Step) (a : Nat) : Nat × Nat × Nat :=
  if aSpace a = 1 then
    (1, aSlot a, aOff a + ppCopy (aPp a) st * regionStride (s.loadRegion (s.slotStack (aSlot a))))
  else if aSpace a = 2 then (2, sid, aDsm a)
  else (3, aPort a, aFar a)

/-- Two operand ranges overlap in some step. -/
def State.operandsClash (s : State) (sid a n b m : Nat) : Bool :=
  [0, 1].any (fun st =>
    let x := s.spanAt sid st a
    let y := s.spanAt sid st b
    x.1 == y.1 && x.2.1 == y.2.1 && overlaps x.2.2 n y.2.2 m)

/-- Outputs of an engine op overlap its inputs or one another (R173). -/
def State.selfOverlap (s : State) (sid : Nat) (o : Op) : Bool :=
  (0x03 ≤ o.cls ∧ o.cls ≤ 0x0A) && o.outIdx.any (fun i => (List.range o.nopnd).any (fun j =>
    j != i && (!o.outIdx.contains j || decide (i < j))
      && s.operandsClash sid (o.opnd i).addr (o.bytes i) (o.opnd j).addr (o.bytes j)))

/-- The plan set as the order of its ops sees it: the ops with their slots, the sync tables by slot, and the tree nodes of
the module. -/
structure PlanOrder where
  ops : List (Nat × Op)
  tabs : List (Nat × List SyncEntry)
  nodes : List SyncEntry

/-- The object a reference names, with the slot whose die holds it: a SCOPE 1 reference of a link or hub op names a core of
the compute slot of its operand 0 (R260). -/
def objectKey (a : Nat × Op) (r : SyncRef) : Nat × Nat × Nat × Nat :=
  (if 48 ≤ a.1 ∧ r.scope = 1 then aSlot (a.2.opnd 0).addr else a.1, refKey a.2.unit r)

/-- GENS of an object, 0 where no table lists it. -/
def PlanOrder.gens (p : PlanOrder) (k : Nat × Nat × Nat × Nat) : Nat :=
  (((p.tabs.filter (fun e => e.1 == k.1)).flatMap (fun e => e.2)).find?
    (fun e => (e.scope, e.core, e.obj) == k.2)).elim 0 (fun e => e.gens)

/-- Generation `q` of an object of `gens` generations completes no earlier than generation `r`: the ordinals themselves
while they fit the eight bits of GEN, otherwise as R265 compares them. -/
def genReached (gens r q : Nat) : Bool :=
  if gens ≤ 256 then decide (r ≤ q) else decide ((q + 256 - r) % 256 < 128)

/-- The node where a tree meets, as far as the set's tables of this module show it: parents are followed within the
module. -/
def nodeRoot (module : Nat) (nodes : List SyncEntry) : Nat → Nat → Nat × Nat
  | 0, n => (module, n)
  | fuel + 1, n =>
    match nodes.find? (fun e => e.obj == n) with
    | none => (module, n)
    | some e =>
      if e.parentModule = 0xFFFF then (module, n)
      else if e.parentModule = module then nodeRoot module nodes fuel e.parentNode
      else (e.parentModule, e.parentNode)

/-- A signal to a tree node of op `a` is answered by RELEASE at the WAIT object of op `c`: both signal one tree, `c` in no
earlier generation (R268, R269). -/
def PlanOrder.releasedBy (p : PlanOrder) (module : Nat) (a c : Nat × Op) : Bool :=
  let root (r : SyncRef) : Nat × Nat := nodeRoot module p.nodes p.nodes.length r.obj
  let gens (r : SyncRef) : Nat := (p.nodes.find? (fun e => e.obj == r.obj)).elim 0 (fun e => e.gens)
  a.2.syncs.any (fun r => r.role == 1 && r.scope == 3 && c.2.syncs.any (fun q =>
    q.role == 1 && q.scope == 3 && root r == root q && genReached (gens q) r.gen q.gen))

/-- Op `a` is directly ordered before op `b`: the same class on the same unit (R40), a signal or count of `a` that `b`
waits on, or a barrier arrival of `a` whose release, at the WAIT object of some barrier of the tree, `b` waits on. -/
def PlanOrder.directly (p : PlanOrder) (module : Nat) (a b : Nat × Op) : Bool :=
  let awaits (x : Nat × Op) (r : SyncRef) : Bool := b.2.syncs.any (fun q =>
    q.role == 0 && objectKey x r == objectKey b q && genReached (p.gens (objectKey b q)) r.gen q.gen)
  (a.1 == b.1 && a.2.cls == b.2.cls && a.2.unit == b.2.unit && decide (a.2.index < b.2.index))
    || (a.2.syncs ++ a.2.localSync).any (fun r => r.role != 0 && r.scope != 3 && awaits a r)
    || p.ops.any (fun c => p.releasedBy module a c && c.2.syncs.any (fun r => r.role == 0 && awaits c r))

/-- The ops reached from a list of ops by order edges, within `n` rounds. -/
def PlanOrder.reach (p : PlanOrder) (module : Nat) : Nat → List (Nat × Op) → List (Nat × Op)
  | 0, l => l
  | n + 1, l =>
    let m := p.ops.filter (fun b => !l.contains b && l.any (fun a => p.directly module a b))
    if m.isEmpty then l else p.reach module n (l ++ m)

/-- Two ops of the set are ordered by R40 or by a path of sync references. -/
def PlanOrder.ordered (p : PlanOrder) (module : Nat) (a b : Nat × Op) : Bool :=
  (p.reach module p.ops.length [a]).contains b || (p.reach module p.ops.length [b]).contains a

/-- The DSM ranges of an op with a write mark. -/
def dsmSpans (o : Op) : List (Nat × Nat × Bool) :=
  (((List.range o.nopnd).filter (fun i => aSpace (o.opnd i).addr == 2)).map
    (fun i => (aDsm (o.opnd i).addr, o.bytes i, o.outIdx.contains i)))
    ++ (if aSpace o.flagAddr = 2 then [(aDsm o.flagAddr, 2, true)] else [])
    ++ (if aSpace o.verifyAux = 2 then [(aDsm o.verifyAux, o.kp 63 56, false)] else [])

/-- Two ops of a slot touch overlapping DSM ranges, one of them writing, and nothing orders them (R167). -/
def PlanOrder.dsmUnordered (p : PlanOrder) (module sid : Nat) : Bool :=
  !pairwiseOk (fun a b =>
    !((dsmSpans a.2).any (fun x => (dsmSpans b.2).any (fun y => (x.2.2 || y.2.2) && overlaps x.1 x.2.1 y.1 y.2.1)))
      || p.ordered module a b) (p.ops.filter (fun a => a.1 == sid))

/-- A frozen-list entry (R149): tensor ID, FMT, BYTES, DIGEST. -/
structure Frozen where
  id : Nat
  fmt : Nat
  blkax : Nat
  bytes : Nat
  digest : List Byte
  bad : Bool
  deriving DecidableEq, Repr

def frozenOf (b : List Byte) : Frozen :=
  { id := natAt b 0 4, fmt := natAt b 4 1 % 16, blkax := natAt b 5 1 % 2, bytes := natAt b 8 8,
    digest := bytesAt b 0x10 64,
    bad := decide (16 ≤ natAt b 4 1) || !fmtLegal (natAt b 4 1 % 16) || decide (2 ≤ natAt b 5 1) || natAt b 6 2 != 0 }

/-- Bytes of a frozen list of 64 entries. A byte received beyond them is kept as one mark at this offset: the list is then
malformed whatever the byte holds (R149, R279). -/
def frozenLimit : Nat := 5120

/-- Bytes of the frozen list of the load: OBJECT 1 (R279). -/
def State.frozenLen (s : State) (sh : Bool) : Nat :=
  let base := if sh then 2 ^ 34 else 0
  (s.plan.frozen.filter (fun e => decide (base ≤ e.1) && decide (e.1 < base + 2 ^ 33))).foldl
    (fun a e => Nat.max a (e.1 - base + 1)) 0

/-- Frozen entries; a byte not held reads as zero. -/
def State.frozenList (s : State) (sh : Bool) : List Frozen :=
  let base := if sh then 2 ^ 34 else 0
  (List.range (cdiv (s.frozenLen sh) 80)).map (fun i =>
    frozenOf ((List.range 80).map (fun j => BitVec.ofNat 8 (SMap.get (fun _ => 0) s.plan.frozen (base + 80 * i + j) - 1))))

/-- The list is malformed: not whole entries, more than 64, a bad field, or a repeated tensor. -/
def State.frozenBad (s : State) : Bool :=
  let l := s.frozenList true
  s.frozenLen true % 80 != 0 || decide (64 < l.length) || l.any (fun f => f.bad)
    || !pairwiseOk (fun a b => a.id != b.id) l

/-- The window table that a step will use: the shadow when the page is armed for `n`, else the active one (R280). -/
def State.winReg (s : State) (n : Option Nat) (w k : Nat) : Word :=
  let armed := match n with
    | none => false
    | some m => s.armedFor (pageKey 54 0x1E) == some m || s.armedFor (pageKey 55 0x1E) == some m
  s.rd 54 0x1E ((if armed then 0x900 else 0x100) + 24 * w + 8 * k)

/-- An op of class 0x0F passes the window checks (R280, R290). -/
def State.windowOk (s : State) (n : Option Nat) (o : Op) : Bool :=
  if o.cls ≠ 0x0F then true
  else
    let c := s.winReg n (fld (o.pword 0) 63 59) 1
    fld c 63 62 == o.opcode && decide (o.bytes 0 + 48 ≤ fld c 27 0) && (!s.sec.conf || bitAt c 61)

/-- Every class-0x0F op of the shadow set passes the window checks. -/
def State.windowsOk (s : State) (n : Option Nat) : Bool :=
  s.usedSlots.all (fun sid => (s.ops sid true).all (s.windowOk n))

/-- Bytes an op retains in one step, with the compute slot whose crucible holds them (R335, R336). -/
def retainedBy (sid : Nat) (elastic : Bool) (o : Op) : List (Nat × Nat) :=
  let a := (o.opnd 0).addr
  let slot := if sid < 48 then sid else aSlot a
  (if o.retain then [(slot, o.bytes 0)] else [])
    ++ (if o.cls = 0x0B then
          (let n := o.bytes 0
           let twice := elastic && o.opcode == 1 && fld (o.pword 0) 47 45 == 2 && shFmt (o.opnd 0).shape == 0xB
           [(aSlot a, if twice then 2 * n else n)]) else [])

/-- LDG_CFG as step 0 or the running job sees it. -/
def State.ldgCfg (s : State) : Word :=
  if !s.jobIn && s.armedFor (pageKey 62 0x20) == some 0 then s.rd 62 0x20 0x840 else s.rd 62 0x20 0x040

def State.ckpCfg (s : State) : Word :=
  if !s.jobIn && s.armedFor (pageKey 62 0x20) == some 0 then s.rd 62 0x20 0xA00 else s.rd 62 0x20 0x200

/-- The crucible partition of a stack, in bytes (R335). -/
def crucPart (region : Word) (k : Nat) : Nat := fld region 19 16 * 512 / (if k = 0 then 1 else k) * pageBytes

/-- Header, directory and body of a slot's ingot (R365 to R367). -/
def ingotBytes (ts : List Tensor) : Nat :=
  let l := ts.filter (fun t => t.mode == 1 || t.mode == 2)
  l.foldl (fun at_ t => if t.mode = 1 then (at_ + 4095) / 4096 * 4096 + t.tiles * (tileBytes t.fmt + 4) else at_ + 64)
    (0x100 + 64 * l.length)

/-- A held image of the set. -/
def State.hasImage (s : State) (sid : Nat) : Bool := (s.plan.checked.find? (fun e => e.1 == sid)).isSome

/-- A word of a near-tier byte range. -/
def State.ldNat (s : State) (pa n : Nat) : Nat := leNat (s.ldN pa n)

/-- The STATE entries of an ingot's directory that overlap a destination range (R366, R367, R380): their row and column
ranges. -/
def State.ingotRanges (s : State) (pa id : Nat) (st : Nat) : List (Nat × Nat × Nat × Nat) :=
  if s.ldNat pa 4 ≠ 0x49504C46 ∨ s.ldNat (pa + 0x10) 8 ≠ st then []
  else
    ((List.range (Nat.min (s.ldNat (pa + 0x30) 4) 65536)).map (fun i => pa + 0x100 + 64 * i)).filterMap (fun e =>
      if s.ldNat e 4 = id ∧ s.ldNat (e + 6) 1 = 0 then
        some (s.ldNat (e + 8) 4, s.ldNat (e + 0x0C) 4, s.ldNat (e + 0x10) 4, s.ldNat (e + 0x14) 4)
      else none)

/-- The destination range of a RESLICE is covered by the named ingots, tile by tile (R380). -/
def State.resliceCovered (s : State) (o : Op) : Bool :=
  if o.cls ≠ 0x0C then true
  else
    let id := fld (o.pword 0) 63 32
    let rl := fld (o.pword 1) 63 32
    let cl := fld (o.pword 1) 31 0
    let st := o.p 2
    let d := (o.opnd 0).shape
    let rs := (List.range (o.nopnd - 1)).flatMap (fun i =>
      let a := (o.opnd (i + 1)).addr
      s.ingotRanges (s.slotStack (aSlot a) * stackBytes + aOff a) id st)
    (List.range (cdiv (shRows d) 32)).all (fun r => (List.range (cdiv (shCols d) 32)).all (fun c =>
      rs.any (fun g => decide (g.1 ≤ rl + 32 * r) && decide (rl + 32 * r < g.1 + g.2.2.1)
        && decide (g.2.1 ≤ cl + 32 * c) && decide (cl + 32 * c < g.2.1 + g.2.2.2))))

/-- A PPSEL of an output lets it overlap a copy of a frozen tensor (R150). -/
def State.writesFrozen (s : State) (fz : List Frozen) (tabs : List Tensor) (sid : Nat) (o : Op) : Bool :=
  o.outIdx.any (fun i => tabs.any (fun t =>
    fz.any (fun f => f.id == t.id) && t.mode == 2
      && s.operandsClash sid (o.opnd i).addr (o.bytes i) t.base t.bytes))

/-- The code of R51 for which a set is rejected at commit, if any. The slots in use and the stacks whose areas are checked are
those of the active translation: R51 names the shadow translation only for BIN (DESIGN CHOICE, log entry 17). -/
def State.setReject (s : State) : Option Nat :=
  let used := s.usedSlots
  let held := used.filter s.hasImage
  let comp := held.filter (fun n => decide (n < 48))
  let cfg := s.ldgCfg
  let k := fld cfg 3 0
  let ops (sid : Nat) : List Op := s.ops sid true
  let kept := held.flatMap (fun sid => (ops sid).flatMap (retainedBy sid (bitAt cfg 4)))
  let sum (n : Nat) : Nat := (kept.filter (fun e => e.1 == n)).foldl (fun a e => a + e.2) 0
  let fz := s.frozenList true
  let tabs := held.flatMap (fun sid => s.tensors sid true)
  let nodes := (held.flatMap (fun sid => if 48 ≤ sid ∧ sid < 56 then s.syncTable sid true else [])).filter
    (fun e => e.scope == 3)
  let order : PlanOrder := { ops := held.flatMap (fun sid => (ops sid).map (fun o => (sid, o))),
                             tabs := held.map (fun sid => (sid, s.syncTable sid true)), nodes := nodes }
  let tests : List (Nat × Bool) := [
    (0x0A, s.frozenBad || !held.all (fun sid => (ops sid).all (s.windowOk none))
      || held.any (fun sid => (ops sid).any (s.selfOverlap sid) || order.dsmUnordered s.moduleId sid
          || (ops sid).any (s.writesFrozen fz tabs sid) || (ops sid).any (fun o => !s.resliceCovered o))
      || comp.any (fun n => decide (crucPart (s.loadRegion (s.slotStack n)) k < sum n)
          || decide (fld s.ckpCfg 55 48 * 2 ^ 28 < ingotBytes (s.tensors n true) + 2 ^ 20))),
    (0x0B, held.any (fun sid => (ops sid).any (fun o =>
      (o.syncs ++ o.localSync).any (fun r =>
        (decide (48 ≤ sid) && r.scope == 1
          && !inTable (s.syncTable (aSlot (o.opnd 0).addr) true) (1, r.core, r.obj))
        || (r.scope == 3 && !inTable nodes (3, 0, r.obj)))))),
    (0x0F, !pairwiseOk (fun a b => !boxesOverlap (boxOf (s.iw a true 0x28) (s.iw a true 0x30))
      (boxOf (s.iw b true 0x28) (s.iw b true 0x30))) comp),
    (0x10, !used.all s.hasImage)]
  (tests.find? (fun e => e.2)).map (fun e => e.1)

/-- The plan-set digest of a generation (R50). -/
def setDigest (digests : SMap (List Byte)) (used : List Nat) : List Byte :=
  digest64 (used.flatMap (fun sid =>
    leBytes 1 (slotKind sid) ++ leBytes 1 (slotNum sid)
      ++ ((digests.find? (fun e => e.1 == sid)).map (fun e => e.2)).getD (zeros 64)))

end Sys2Proof.Machine
end

