-- ==== Sys2Proof/Machine/Plan.lean ====
section
/-!
DEFINITION. Plan loads, route images and plan swaps (R52 to R59, R279): PLAN_DATA, PLN_LOAD, PLN_SWAP and what a swap
does to the sets.
-/

namespace Sys2Proof.Machine

/-! ## PLN_STAT, PLN_GEN, digests -/

def shadowCode : ShadowState → Nat
  | .empty => 0
  | .loading => 1
  | .ready => 2
  | .pending => 3
  | .locked => 4
  | .rejected => 5

/-- Writes the status registers that the plan state shows (R58, R59); REJECT is kept. -/
def State.planRegs (s : State) : State :=
  let p := s.plan
  let t := s.setField 60 0 0x100 18 16 (shadowCode p.shadow)
  let t := t.setField 60 0 0x100 31 24 p.checked.length
  let t := t.setField 60 0 0x100 7 0 p.active.length
  t.wr 60 0 0x108 (BitVec.ofNat 64 (p.shadowGen * 2 ^ 32 + p.activeGen))

def State.setPlan (s : State) (p : PlanState) : State := ({ s with plan := p }).planRegs

/-- Writes a 64-byte digest into eight registers. -/
def State.putDigest (s : State) (off : Nat) (d : List Byte) : State :=
  forN 8 (fun i t => t.wr 60 0 (off + 8 * i) (wordAt d i)) s

/-- Sets PLN_STAT.REJECT and sends PLAN_REJECT (R51, R53, R502). `where_` is SLOT_KIND and SLOT, or 0xFFFF. -/
def State.planReject (s : State) (code gen where_ : Nat) : State :=
  (s.setField 60 0 0x100 47 40 code).event 0x0001 code 0 (BitVec.ofNat 64 (gen * 2 ^ 32 + where_))

/-- An image is rejected: the shadow set becomes REJECTED. -/
def State.rejectImage (s : State) (code sid : Nat) : State :=
  (s.setPlan { s.plan with shadow := .rejected }).planReject code s.plan.shadowGen (sidKind sid * 256 + sidSlot sid)

/-! ## Images as they arrive (R279) -/

def heldKey (sid off : Nat) : Nat := sid * 2 ^ 28 + off

/-- Every byte from 0 to n - 1 of an image is held. -/
def State.heldAll (s : State) (sid n : Nat) : Bool :=
  decide (n ≤ ((s.plan.held.filter (fun e => decide (heldKey sid 0 ≤ e.1) && decide (e.1 < heldKey sid n))).length))

/-- An image of a size that R48 or its own IMAGE_LEN forbids is rejected with the lowest code of the checks that fail: those
of its header when that is held, and IMAGE_SIZE (R51). -/
def State.rejectSize (s : State) (sid : Nat) : State :=
  s.rejectImage (if s.heldAll sid 0x80 then ((s.headReject sid).getD 0x06) else 0x06) sid

/-- Judges an image after a chunk of it has been stored (R279, R51). -/
def State.judge (s : State) (sid : Nat) : State :=
  let reach := SMap.get (fun _ => 0) s.plan.reach sid
  if !s.heldAll sid 0x80 then s
  else
    let len := s.hLen sid true
    if kindLimit (sidKind sid) < len ∨ len < 0x90 then s.rejectSize sid
    else if !s.heldAll sid len then s
    else match s.imageReject sid (decide (len < reach)) with
      | some c => s.rejectImage c sid
      | none =>
        s.setPlan { s.plan with checked := SMap.put s.plan.checked sid (s.hDigest sid true) }

/-- Stores a chunk of a slot image and judges it. -/
def State.chunkIn (s : State) (sid off : Nat) (bs : List Byte) : State :=
  if bs.isEmpty then s
  else if kindLimit (sidKind sid) < off + bs.length then s.rejectSize sid
  else
    let done := (s.plan.checked.find? (fun e => e.1 == sid)).isSome
    if done && decide (s.hLen sid true < off + bs.length) then s.rejectImage ((s.imageReject sid true).getD 0x06) sid
    else
      let held := SMap.setRun (fun _ => 0) s.plan.held (heldKey sid off) (bs.map (fun _ => 1))
      let r := Nat.max (SMap.get (fun _ => 0) s.plan.reach sid) (off + bs.length)
      let t := s.setImg sid true off bs
      let t := { t with plan := { t.plan with
        held := held, reach := SMap.set (fun _ => 0) t.plan.reach sid r,
        checked := t.plan.checked.filter (fun e => e.1 != sid) } }
      t.judge sid

/-- Asks for a slot's images of a generation again (R52, R382). -/
def State.askReload (s : State) (sid gen : Nat) (step : Word) : State :=
  let t := { s with plan := { s.plan with
    reload := NSet.add s.plan.reload sid, reloadGen := gen, held := SMap.clear s.plan.held (heldKey sid 0) (heldKey (sid + 1) 0) } }
  t.event 0x0004 (slotKind sid * 256 + slotNum sid) step (BitVec.ofNat 64 gen)

/-- A generation of earlier steps is whole again in the shadow set, which stands as LOCKED until those steps are SEALED. -/
def State.reloaded (s : State) : State :=
  let p := s.plan
  if p.reload.isEmpty ∧ p.reloadGen ≠ p.activeGen ∧ p.shadow = .empty then
    let digs := ((p.past.find? (fun e => e.1 == p.reloadGen)).map (fun e => e.2)).getD []
    let next : Step := match s.ldg.swaps.dropWhile (fun e => e.2 != p.reloadGen) with
      | _ :: e :: _ => e.1
      | _ => p.since
    s.setPlan { p with shadow := .locked, shadowGen := p.reloadGen, checked := digs, since := next, held := [] }
  else s

/-- A reloaded image, after PLAN_RELOAD (R52): its bytes replace the lost ones; once it is whole its digest is checked
against the recorded one, and until then the slot's reload stays asked for. An image of an earlier generation goes to the
shadow set. -/
def State.reloadIn (s : State) (sid off : Nat) (bs : List Byte) : State :=
  let old := decide (s.plan.reloadGen ≠ s.plan.activeGen)
  if kindLimit (sidKind sid) < off + bs.length then s
  else
    let held := SMap.setRun (fun _ => 0) s.plan.held (heldKey sid off) (bs.map (fun _ => 1))
    let t := s.setImg sid old off bs
    let t := { t with plan := { t.plan with held := held } }
    let v := { t with plan := { t.plan with shadow := .empty } }
    let len := v.hLen sid old
    if t.heldAll sid 0x80 && decide (len ≤ kindLimit (sidKind sid)) && decide (0x90 ≤ len) && t.heldAll sid len then
      let digs := if old = true then ((t.plan.past.find? (fun e => e.1 == t.plan.reloadGen)).map (fun e => e.2)).getD [] else t.plan.active
      let want := ((digs.find? (fun e => e.1 == sid)).map (fun e => e.2)).getD []
      if v.imageDigest sid old == want then
        ({ t with plan := { t.plan with reload := t.plan.reload.filter (fun x => x != sid) } }).reloaded
      else t.askReload sid t.plan.reloadGen 0
    else t

/-- PLAN_DATA (R277, R279). -/
def planData (p : Path) (f : Frame) (s : State) : State :=
  match s.recv p f 0x04 with
  | (t, none) => t
  | (t, some f) =>
    let obj := f.addr % 256
    let kind := f.addr / 2 ^ 8 % 256
    let slot := f.addr / 2 ^ 16 % 256
    if p = .mgmt ∨ p = .firmware then t
    else if 2 < obj ∨ f.addr / 2 ^ 24 ≠ 0 then t.respond p f 4 0
    else if obj = 2 then
      if 2 ^ 19 < f.aux + f.data.length then t.respond p f 4 0
      else
        let r := SMap.setRun (fun _ => 0) t.plan.route f.aux (f.data.map (fun b => 1 + b.toNat))
        ({ t with plan := { t.plan with route := r } }).respond p f 0 0
    else
      let sid := t.imageSid kind slot
      if obj = 0 ∧ t.plan.reload.contains sid ∧ t.plan.shadow ≠ .loading
          ∧ (t.plan.reloadGen = t.plan.activeGen ∨ t.plan.shadow = .empty) then (t.reloadIn sid f.aux f.data).respond p f 0 0
      else if t.plan.shadow ≠ .loading then t.respond p f 5 0
      else if obj = 1 then
        let bs := f.data.take (frozenLimit - f.aux)
        let m := SMap.setRun (fun _ => 0) t.plan.frozen (2 ^ 34 + f.aux) (bs.map (fun b => 1 + b.toNat))
        let m := if bs.length < f.data.length then SMap.set (fun _ => 0) m (2 ^ 34 + frozenLimit) 1 else m
        ({ t with plan := { t.plan with frozen := m } }).respond p f 0 0
      else (t.chunkIn sid f.aux f.data).respond p f 0 0

def execPlanData (p : Path) (f : Frame) (s : State) : Out := ok (planData p f s)

/-! ## The route image (R279) -/

/-- ROUTE_IMAGE_APPLY: once all 512 KiB are held, firmware writes the image to all eight link dies and sends
ROUTES_APPLIED. An entry that breaks R247 is rejected like a register write, and keeps its value. -/
def routeApply (s : State) : State :=
  if s.plan.route.length < 2 ^ 19 then s
  else
    let bytes := s.plan.route.map (fun e => BitVec.ofNat 8 (e.2 - 1))
    let put (d : Nat) (t : State) : State :=
      forN 65536 (fun i u =>
        let w := wordAt bytes i
        if routeLegal w then
          let r := SMap.set (fun _ => BitVec.ofNat 64 (2 ^ 64 - 1)) u.net.routes (d * 2 ^ 16 + i) w
          { u with net := { u.net with routes := r } }
        else u.reject d 0 0x108 (if bitAt w 48 then rejReserved else rejRange)) t
    let t := forEach [48, 49, 50, 51, 52, 53, 54, 55] put s
    (({ t with plan := { t.plan with route := [] } }).event 0x0007 0 0 0).flushWaiting

def execRouteImageApply (s : State) : Out := ok (routeApply s)

/-! ## PLN_LOAD (R53, R59) -/

/-- Drops every shadow image. -/
def PlanState.noShadow (p : PlanState) : PlanState :=
  { p with
    held := [], checked := [], reach := [], frozen := SMap.clear p.frozen (2 ^ 34) (2 ^ 35),
    store := SMap.clear p.store (2 ^ 34) (2 ^ 52) }

/-- The shadow set cannot take a load command now. -/
def State.shadowBusy (s : State) : Bool := s.plan.shadow == .locked || s.plan.shadow == .pending

def plnLoadBegin (gen : Nat) (s : State) : State :=
  if s.shadowBusy then s.planReject 0x11 gen 0xFFFF
  else
    (s.setPlan { s.plan.noShadow with shadow := .loading, shadowGen := gen }).putDigest 0x180 (zeros 64)

def plnLoadCommit (s : State) : State :=
  if s.shadowBusy then s.planReject 0x11 s.plan.shadowGen 0xFFFF
  else if s.plan.shadow ≠ .loading then s.planReject 0x13 s.plan.shadowGen 0xFFFF
  else match s.setReject with
    | some c => (s.setPlan { s.plan with shadow := .rejected }).planReject c s.plan.shadowGen 0xFFFF
    | none =>
      let t := s.setPlan { s.plan with shadow := .ready, committed := true }
      t.putDigest 0x180 (setDigest t.plan.checked t.usedSlots)

def plnLoadDiscard (s : State) : State :=
  if s.shadowBusy then s.planReject 0x11 s.plan.shadowGen 0xFFFF
  else (s.setPlan { s.plan.noShadow with shadow := .empty, shadowGen := 0 }).putDigest 0x180 (zeros 64)

/-- PLN_LOAD, PLN_SWAP, LDG_CTL and the like are written on the control ports and by firmware; the management port reaches
only the fault and power pages (R291). -/
def ctlPath (p : Path) : Bool := p != .mgmt

/-- A refused write of the management port to a management die's control page (R291, R484). -/
def State.mgmtRefuse (s : State) (off : Nat) : State := s.reject 60 0 off rejAccess

def execPlnLoadBegin (p : Path) (gen : Nat) (s : State) : Out :=
  ok (if ctlPath p then plnLoadBegin (gen % 2 ^ 32) s else s.mgmtRefuse 0x138)
def execPlnLoadCommit (p : Path) (s : State) : Out := ok (if ctlPath p then plnLoadCommit s else s.mgmtRefuse 0x138)
def execPlnLoadDiscard (p : Path) (s : State) : Out := ok (if ctlPath p then plnLoadDiscard s else s.mgmtRefuse 0x138)

/-! ## PLN_SWAP (R54 to R56) -/

/-- An ARMED page for boundary N would change a field that changes only at the genesis boundary (R190, R488). -/
def State.armedGenesisOnly (s : State) (n : Nat) : Bool :=
  s.jobIn && s.plan.armed.any (fun e => s.armedFor e.1 == some n && (s.genesisOnlyDiffers (keyDie e.1) (keyBlk e.1)).isSome)

/-- The conditions of R54 for boundary `n`. -/
def State.swapOk (s : State) (n : Nat) : Bool :=
  s.plan.shadow == .ready && decide (s.ldg.newestOpened < (n : Int)) && s.shadowXlatsLegal && s.windowsOk (some n)
    && !s.armedGenesisOnly n

def swapReq (s : State) : State :=
  let n := (s.rd 60 0 0x110).toNat
  if s.swapOk n then
    s.setPlan { s.plan with shadow := .pending, swap := some { gen := s.plan.shadowGen, n := n } }
  else s.planReject 0x12 s.plan.shadowGen 0xFFFF

/-- Asks for the cancellation of a request not yet announced (R56): a seal wave carries it. REASON as in R340. -/
def State.cancelSwap (s : State) (reason : Nat) : State :=
  match s.plan.swap with
  | none => s
  | some q =>
    if q.announced ∨ q.cancel ≠ 0 then s
    else { s with plan := { s.plan with swap := some { q with cancel := reason } } }

def execSwapReq (p : Path) (s : State) : Out := ok (if ctlPath p then swapReq s else s.mgmtRefuse 0x118)
def execSwapCancel (p : Path) (s : State) : Out := ok (if ctlPath p then s.cancelSwap 2 else s.mgmtRefuse 0x118)
/-- SWAP_TIMEOUT (R56): PLN_SWAP_TMO has passed since the request. -/
def execSwapTimeout (s : State) : Out := ok (s.cancelSwap 1)

/-! ## What the swap does (R53, R57) -/

/-- Exchanges the contents of the two halves of a stack's plan area. -/
def swapHalves (m : SMap Byte) (base : Nat) : SMap Byte :=
  let a := SMap.slice m base (base + 2 ^ 27)
  let b := SMap.slice m (base + 2 ^ 27) (base + 2 ^ 28)
  let m := SMap.clear m base (base + 2 ^ 28)
  moveBytes (moveBytes m b (2 ^ 27) 0) a 0 (2 ^ 27)

/-- Exchanges entries below and above 2^34 of a store. -/
def swapStore {β : Type} (m : SMap β) : SMap β :=
  let a := SMap.slice m 0 (2 ^ 34)
  let b := SMap.slice m (2 ^ 34) (2 ^ 35)
  b.map (fun e => (e.1 - 2 ^ 34, e.2)) ++ a.map (fun e => (e.1 + 2 ^ 34, e.2))

/-- The plan area of a stack stands in another stack: the images of a slot whose translation names a new stack (R48). -/
def State.carryPlan (s : State) (a b : Nat) : State :=
  if a = b then s
  else
    let bs := SMap.slice s.mem.stack a (a + 2 ^ 28)
    let m := SMap.clear s.mem.stack b (b + 2 ^ 28)
    s.setStack (moveBytes m bs a b)

/-- The images that a slot carries are laid down in the plan area of its stack (R48). -/
def State.layDown (s : State) (n : Nat) : State :=
  let b := s.planArea (s.slotStack n)
  let bs := SMap.slice s.plan.carried (n * 2 ^ 28) ((n + 1) * 2 ^ 28)
  let t := s.setStack (moveBytes (SMap.clear s.mem.stack b (b + 2 ^ 28)) bs (n * 2 ^ 28) b)
  { t with plan := { t.plan with
    carrying := t.plan.carrying.filter (fun k => k != n),
    carried := SMap.clear t.plan.carried (n * 2 ^ 28) ((n + 1) * 2 ^ 28) } }

/-- An active entry takes a new value: one that changes takes the next EPOCH (R33), and the slot's images move with its
stack (R48). -/
def State.putXlat (s : State) (n : Nat) (new : Word) : State :=
  let old := s.xlat n
  if setFld new 47 40 (fld old 47 40) = old then s
  else
    let t := s.wr 60 0 (0x200 + 8 * n) (setFld new 47 40 (fld old 47 40 + 1))
    let t := if xMs new = xMs old then t else t.setSlot n { t.slot n with frozenOk := false }
    if xValid new = false then t
    else if t.plan.carrying.contains n then t.layDown n
    else t.carryPlan (t.planArea (xMs old)) (t.planArea (xMs new))

/-- The entries that wait for a slot to open step `st` take effect (R35, R57). -/
def State.takeXlat (s : State) (n : Nat) (st : Step) : State :=
  let mine (e : Nat × Step × Word) : Bool := e.1 == n && decide (e.2.1 ≤ st)
  let t := { s with plan := { s.plan with xlatDue := s.plan.xlatDue.filter (fun e => !mine e) } }
  forEach (s.plan.xlatDue.filter mine) (fun e u => u.putXlat n e.2.2) t

/-- A slot's images are held apart from the stacks until it opens the step that moves it (R48). -/
def State.carryOff (s : State) (n : Nat) : State :=
  if s.plan.carrying.contains n then s
  else
    let a := s.planArea (s.slotStack n)
    let bs := SMap.slice s.mem.stack a (a + 2 ^ 28)
    { s with plan := { s.plan with
      carrying := NSet.add s.plan.carrying n, carried := moveBytes s.plan.carried bs a (n * 2 ^ 28) } }

/-- The shadow translations will become active at boundary `st`, each as its slot opens that step; an entry of a slot not in
use so far takes effect at once (R33, R35, R57). -/
def State.dueXlats (s : State) (st : Step) : State :=
  forN 48 (fun n t =>
    let old := t.xlat n
    let new := t.rd 60 0 (0xA00 + 8 * n)
    let t := if xValid old && xValid new && xMs old != xMs new then t.carryOff n else t
    let t := { t with plan := { t.plan with xlatDue := t.plan.xlatDue ++ [(n, st, new)] } }
    if xValid old then t
    else
      let t := t.takeXlat n st
      if xValid new then t.setSlot n { t.slot n with passed := st - 1 } else t) s

/-- Every translation that waits takes effect, as at the genesis boundary. -/
def State.takeXlats (s : State) (st : Step) : State := forN 48 (fun n t => t.takeXlat n st) s

/-- A write of an active entry by management firmware: with a step of the slot open, it takes effect when the slot opens a
new step (R35). -/
def State.fwXlat (s : State) (n : Nat) (new : Word) : State :=
  let r := s.slot n
  if s.jobIn && (r.phase == .opened || r.phase == .replaying) then
    { s with plan := { s.plan with xlatDue := s.plan.xlatDue ++ [(n, -1, new)] } }
  else s.putXlat n new

/-- SETS_EXCHANGE_ROLES (R53, R57): the shadow set becomes active, the old one LOCKED; the pages of no slot follow. The
translation of a slot follows when that slot opens step `n` itself (R35), and its frozen tensors are checked anew (R150). -/
def State.exchangeSets (s : State) (n : Nat) : State :=
  let used := (List.range 48).filter (fun i => xValid (s.xlat i) && !s.plan.carrying.contains i)
  let t := s.setStack (used.foldl (fun m i => swapHalves m (s.planArea (s.slotStack i))) s.mem.stack)
  let t := { t with plan := { t.plan with
    carried := t.plan.carrying.foldl (fun m i => swapHalves m (i * 2 ^ 28)) t.plan.carried } }
  let t := forEach t.usedSlots (fun k u => u.setSlot k { u.slot k with frozenOk := false }) t
  let p := t.plan
  let t := t.setPlan { p with
    shadow := .locked, shadowGen := p.activeGen, activeGen := p.shadowGen, active := p.checked, checked := p.active,
    store := swapStore p.store, frozen := swapStore p.frozen, held := [], reach := [], swap := none, since := n,
    committed := true, past := p.past.filter (fun e => e.1 != p.shadowGen) ++ [(p.shadowGen, p.checked)] }
  let dA := (List.range 8).map (fun i => t.rd 60 0 (0x140 + 8 * i))
  let dS := (List.range 8).map (fun i => t.rd 60 0 (0x180 + 8 * i))
  let t := forN 8 (fun i u => (u.wr 60 0 (0x140 + 8 * i) (dS.getD i 0)).wr 60 0 (0x180 + 8 * i) (dA.getD i 0)) t
  ((t.wr 60 0 0x128 (stepWord ((n : Int) - 1))).setPages n).dueXlats n

/-- The genesis boundary: the shadow set becomes active and the set active before is discarded (R347). -/
def State.exchangeAtGenesis (s : State) : State :=
  let t := (s.exchangeSets 0).takeXlats 0
  let u := t.setPlan { t.plan.noShadow with shadow := .empty, shadowGen := 0 }
  (u.putDigest 0x180 (zeros 64)).wr 60 0 0x128 0

/-- GEN_RETIRED (R53): every step run with the old generation is SEALED. PLN_GEN shows SHADOW_GEN 0 for a shadow set that is
EMPTY after a retirement or a discard (DESIGN CHOICE, log entry 3: the spec does not say what it then shows). -/
def State.retireGen (s : State) : State :=
  if s.plan.shadow = .locked ∧ s.plan.since - 1 ≤ s.ldg.newestSealed then
    let g := s.plan.shadowGen
    let n := s.rd 60 0 0x128
    ((s.setPlan { s.plan.noShadow with shadow := .empty, shadowGen := 0 }).putDigest 0x180 (zeros 64)).event
      0x0003 0 n (BitVec.ofNat 64 g)
  else s

/-- The generation of a step: that of the last boundary at or before it at which a generation took over (R55, R382). -/
def State.genOf (s : State) (n : Step) : Nat :=
  ((s.ldg.swaps.filter (fun e => decide (e.1 ≤ n))).getLast?.map (fun e => e.2)).getD s.plan.activeGen

/-- The images of a generation are held (R382). -/
def State.genHeld (s : State) (g : Nat) : Bool := g == s.plan.activeGen || (s.plan.shadow == .locked && g == s.plan.shadowGen)

end Sys2Proof.Machine
end

