-- ==== Sys2Proof/Machine/Allowance.lean ====
section
/-!
DEFINITION. Quadrants, core allowances, loans, fill and declared waits (R416, R426, R427, R119, R272).
-/

namespace Sys2Proof.Machine

/-- The quadrant of a compute die (R416). -/
def quadOf (die : Nat) : Nat := die % 8 / 4 + 2 * (die / 24)

/-- The dies of a quadrant, in increasing number. -/
def quadDies (q : Nat) : List Nat := (List.range 48).filter (fun d => quadOf d == q)

/-- The cores of a quadrant's dies that serve a slot. -/
def State.activeCores (s : State) (q : Nat) : List Nat :=
  ((quadDies q).filter (fun d => (s.dieSlot d).isSome)).flatMap (fun d => [4 * d, 4 * d + 1, 4 * d + 2, 4 * d + 3])

def State.quadAmps (s : State) (q : Nat) : Nat := s.field 60 0x22 (0x048 + 8 * q) 12 0

/-- The base allowance of a core of a quadrant (R426). -/
def State.allowance (s : State) (q : Nat) : Nat :=
  let c := (s.activeCores q).length
  if c = 0 then 105 else Nat.min 105 ((s.quadAmps q - 480) / c)

/-- PWR_ADMIT (R426): the eighths admitted at the base allowance. -/
def State.admitted (s : State) (q : Nat) : Nat := 8 * s.allowance q / 105

/-- The loans of a quadrant: the pool is dealt in increasing die and core number, up to 105 A each (R427). -/
def State.loansOf (s : State) (q : Nat) : List (Nat × Nat) :=
  let al := s.allowance q
  let active := s.activeCores q
  let pool := (active.filter (fun c => s.pwr.declared.contains c)).length * (al - 10)
  ((active.filter (fun c => !s.pwr.declared.contains c)).foldl (fun (a : List (Nat × Nat) × Nat) c =>
    let n := Nat.min (105 - al) a.2
    if n = 0 then a else (a.1 ++ [(c, n)], a.2 - n)) ([], pool)).1

/-- Loans follow the declared waits. -/
def State.relend (s : State) (q : Nat) : State :=
  { s with pwr := { s.pwr with loans := s.pwr.loans.filter (fun l => quadOf (l.1 / 4) != q) ++ s.loansOf q } }

def coreDflt (_ : Nat) : CoreState := {}

def arrDie (core : Nat) : Nat := core / 4
def corBlk (core : Nat) : Nat := 0x01 + core % 4

/-- A core's own record. -/
def State.core (s : State) (c : Nat) : CoreState := SMap.get coreDflt s.units.cores c
def State.setCore (s : State) (c : Nat) (x : CoreState) : State :=
  { s with units := { s.units with cores := SMap.set coreDflt s.units.cores c x } }

/-- COR_RAMP.MODE as the core last took it (R122, R125): 0 OFF, 1 RAMP, 2 FILL, 3 RAMP_FILL. -/
def State.rampMode (s : State) (core : Nat) : Nat := fld (s.core core).rampCfg 1 0

/-- The fill pattern of a physical array: its 32-bit LFSR, seeded from the array's number (R119). The seed's form and the LFSR's
taps are left open: free values. -/
def State.fillWord (s : State) (core a : Nat) : Nat :=
  SMap.get (fun k => (Config.fillSeed (k % 8)).toNat) s.units.lfsr (core * 8 + a)

/-- Fill rows go through the six arrays that serve the core's logical arrays: their LFSRs advance, and the rows and cycles, free
counts, join ARY_FILL and COR_FILL_CYC (R119, R124, R127). A.6 never fills. -/
def State.fillRows (s : State) (core : Nat) : State :=
  let t := forN 6 (fun a u =>
    let u := { u with units := { u.units with
      lfsr := SMap.set (fun k => (Config.fillSeed (k % 8)).toNat) u.units.lfsr (core * 8 + a)
        (Config.fillNext (BitVec.ofNat 32 (u.fillWord core a))).toNat } }
    u.bump (arrDie core) (0x05 + core % 4) (0xC80 + 8 * a) (Config.counter u.free a).toNat) s
  let t := t.bump (arrDie core) (corBlk core) 0xC08 (Config.counter t.free 6).toNat
  { t with free := t.free + 1 }

/-- A declared wait ends fill: the core tapers in the modes that taper, and stops in the others (R119, R122). -/
def State.stopFill (s : State) (core : Nat) : State :=
  let x := s.core core
  if x.ramp ≠ 3 then s
  else if s.rampMode core = 3 then (s.setCore core { x with ramp := 4 }).fillRows core
  else s.setCore core { x with ramp := 0, fill := 0 }

/-- A core declares a wait, or its declared wait ends (R272, R427). -/
def State.setDeclared (s : State) (core : Nat) (on : Bool) : State :=
  let t := if on = true then s.stopFill core else s
  let t := t.setCore core { t.core core with declared := on }
  let l := if on = true then NSet.add t.pwr.declared core else NSet.del t.pwr.declared core
  ({ t with pwr := { t.pwr with declared := l } }).relend (quadOf (core / 4))

end Sys2Proof.Machine
end

