-- ==== Sys2Proof/Machine/Fabric.lean ====
section
/-!
DEFINITION. The package fabric: routes between dies, the detour tables for fenced compute dies, and the fabric page
(R195 to R199, R219).
-/

namespace Sys2Proof.Machine

/-! ## Paths (R196, R198) -/

/-- A run of columns or rows from `a` to `b`, both included. -/
def span (a b : Nat) : List Nat :=
  if a ≤ b then (List.range (b + 1 - a)).map (· + a) else ((List.range (a + 1 - b)).map (· + b)).reverse

/-- Compute dies passed when travelling along the row of `s` to the column of `d`, then along that column. -/
def rowFirst (s d : Nat) : List Nat :=
  (span (s % 8) (d % 8)).map (fun x => 8 * (s / 8) + x) ++ ((span (s / 8) (d / 8)).drop 1).map (fun y => 8 * y + d % 8)

/-- The column first, then the row. -/
def colFirst (s d : Nat) : List Nat :=
  (span (s / 8) (d / 8)).map (fun y => 8 * y + s % 8) ++ ((span (s % 8) (d % 8)).drop 1).map (fun x => 8 * (d / 8) + x)

/-- Same row: by way of the row above, or row 1 from row 0. -/
def viaRow (s d : Nat) : List Nat :=
  let y := if s / 8 = 0 then 1 else s / 8 - 1
  [s] ++ (span (s % 8) (d % 8)).map (fun x => 8 * y + x) ++ [d]

/-- Same column: by way of the column to the right, or column 6 from column 7. -/
def viaCol (s d : Nat) : List Nat :=
  let x := if s % 8 = 7 then 6 else s % 8 + 1
  [s] ++ (span (s / 8) (d / 8)).map (fun y => 8 * y + x) ++ [d]

/-- The routes from compute die `s` to compute die `d` in the order of R198, each with its lane. -/
def routesOf (s d : Nat) : List (List Nat × Nat) :=
  [(rowFirst s d, 0), (colFirst s d, 1)] ++ (if s / 8 = d / 8 then [(viaRow s d, 1)] else [])
    ++ (if s % 8 = d % 8 then [(viaCol s d, 1)] else [])

/-- The first route that passes through no fenced die. -/
def routeAround (fenced : List Nat) (s d : Nat) : Option (List Nat × Nat) :=
  (routesOf s d).find? (fun r => r.1.all (fun x => !fenced.contains x))

/-- The port code by which a step from compute die `a` to its neighbour `b` leaves (R219). -/
def stepPort (a b : Nat) : Nat :=
  if b = a + 1 then 2 else if b + 1 = a then 4 else if b = a + 8 then 3 else if b + 8 = a then 1 else 0

/-- A fabric entry of die `s` for destination `d`: the first hop of its route, with the lane in bit 3; the default entry
when no rule gives a route. -/
def routeCode (fenced : List Nat) (s d : Nat) : Nat :=
  let g := gateway s d
  match routeAround fenced s g with
  | none => defaultPort s d
  | some (p, lane) =>
    match p with
    | _ :: n :: _ => stepPort s n + 8 * lane
    | _ => defaultPort s d

/-- Word `i` of FAB_ROUTE of a die. -/
def routeWord (fenced : List Nat) (die i : Nat) : Nat :=
  (List.range 16).foldl (fun a j => a + routeCode fenced die (16 * i + j) * 2 ^ (4 * j)) 0

/-- A compute die that no other unfenced compute die reaches. -/
def unreachable (fenced : List Nat) (d : Nat) : Bool :=
  !fenced.contains d
    && (List.range 48).all (fun s => s == d || fenced.contains s || (routeAround fenced s d).isNone)

/-! ## Switching tables (R199) -/

/-- The fenced compute dies. -/
def State.fencedDies (s : State) : List Nat := s.flt.fenced.filter (fun d => decide (d < 48))

/-- FAB_TABLE for a set of fenced dies. -/
def tableCode (fenced : List Nat) : Nat :=
  match fenced with
  | [] => 0x7F
  | [k] => k
  | _ => 0x7E

/-- Every die's FAB_ROUTE takes the table that applies to the fenced dies. -/
def State.switchRoutes (s : State) : State :=
  let f := s.fencedDies
  forN 48 (fun d t =>
    if f.contains d then t
    else
      (forN 4 (fun i u => u.wr d 0x10 (0x040 + 8 * i) (BitVec.ofNat 64 (routeWord f d i))) t).wr d 0x10 0x068
        (BitVec.ofNat 64 (tableCode f))) s

/-- The compute die beyond edge `e` (0 north, 1 east, 2 south, 3 west) of a die, if any. -/
def beyond (d e : Nat) : Option Nat :=
  if e = 0 then (if d / 8 = 0 then none else some (d - 8))
  else if e = 1 then (if d % 8 = 7 then none else some (d + 1))
  else if e = 2 then (if d / 8 = 5 then none else some (d + 8))
  else (if d % 8 = 0 then none else some (d - 1))

/-- Sets the state of an edge of a compute die, and of the edge that faces it. -/
def State.setEdge (s : State) (d e v : Nat) : State :=
  let t := s.setField d 0x10 0x060 (2 * e + 1) (2 * e) v
  match beyond d e with
  | none => t
  | some n => let f := (e + 2) % 4; t.setField n 0x10 0x060 (2 * f + 1) (2 * f) v

/-- Every edge of a die goes down with its PD.1 (R421). -/
def State.edgesDown (s : State) (d : Nat) : State := forEach [0, 1, 2, 3] (fun e t => t.setEdge d e 0) s

/-! ## Traffic (R219) -/

/-- The compute die by which the fabric reaches a die, seen from another (R196). -/
def entryDie (src d : Nat) : Nat := if d < 48 then d else gateway (if src < 48 then src else gateway 0 src) d

/-- Counts `n` bytes that travel from one die to another: those sent on each edge, and the packets on lane 1. A packet carries
one granule (DESIGN CHOICE, log entry 6). -/
def State.countFabric (s : State) (src dst n : Nat) : State :=
  if src = dst ∨ n = 0 then s
  else match routeAround s.fencedDies (entryDie dst src) (entryDie src dst) with
    | none => s
    | some (p, lane) =>
      let hop (x port : Nat) (t : State) : State :=
        let t := if port = 0 then t else t.bump x 0x10 (0xC00 + 8 * (port - 1)) n
        if lane = 1 then t.bump x 0x10 0xC20 (cdiv n 256) else t
      let t := forEach (p.zip p.tail) (fun e t => hop e.1 (stepPort e.1 e.2) t) s
      if dst < 48 then t else hop (entryDie src dst) (attached dst).2 t

/-- The die that serves a slot's memory (R193). -/
def State.servingDie' (s : State) (n : Nat) : Nat :=
  let x := s.xlat n
  if xPath x = 1 then altDie (xMs x) else if xPath x = 2 then xMs x else xCd x

/-! ## The fabric ports of the stacks (R205, R217) -/

/-- The fabric port of a stack trains with its alternate die: it comes UP when it may train, the stack answers and the
alternate die's fabric periphery runs, and is DOWN otherwise. Training itself takes no step of its own (DESIGN CHOICE, log
entry 5). -/
def State.trainStack (s : State) (st : Nat) : State :=
  let a := altDie st
  let up := s.field st 0x0F 0x058 8 8 == 1 && !s.mem.dead.contains st && s.field a 0 0x048 1 1 == 1
    && !s.flt.fenced.contains a
  s.setField st 0x0F 0x058 1 0 (if up then 2 else 0)

/-- The stacks whose alternate die is `d`. -/
def altOf (d : Nat) : List Nat := (List.range 48).filter (fun st => altDie st == d)

/-- The ports that a compute die serves, its own stack's and those it is the alternate die of, train again (R205). -/
def State.trainPorts (s : State) (d : Nat) : State := if d < 48 then forEach (d :: altOf d) (fun st t => t.trainStack st) s else s

/-- The ports of which a compute die is the alternate die go down with it: TRAINING while it is in reset. -/
def State.portsDown (s : State) (d v : Nat) : State :=
  if d < 48 then
    forEach (altOf d) (fun st t => if t.field st 0x0F 0x058 1 0 = 2 then t.setField st 0x0F 0x058 1 0 v else t) s
  else s

end Sys2Proof.Machine
end

