-- ==== Sys2Proof/Machine/Tiles.lean ====
section
/-!
DEFINITION. Reading and writing where logical addresses lead, elements of tiled tensors (R66, R105 to R107), and
hallmarks (R305 to R309).
-/

namespace Sys2Proof.Machine

/-! ## Bytes at a location -/

def dsmDflt (_ : Nat) : Byte := 0

/-- Reads `n` bytes at a location. -/
def State.readLoc (s : State) (l : Loc) (n : Nat) : List Byte :=
  match l with
  | .near pa => s.ldN pa n
  | .dsm d o => SMap.getRun dsmDflt s.units.dsm (d * 2 ^ 27 + o) n
  | .far p o => SMap.getRun dsmDflt s.mem.far (p * 2 ^ 42 + o) n
  | .none => zeros n

/-- Writes bytes at a location. -/
def State.writeLoc (s : State) (l : Loc) (bs : List Byte) : State :=
  match l with
  | .near pa => s.stN pa bs
  | .dsm d o => { s with units := { s.units with dsm := SMap.setRun dsmDflt s.units.dsm (d * 2 ^ 27 + o) bs } }
  | .far p o =>
    let gs := (fullGranules o bs.length).map (fun g => p * 2 ^ 34 + g)
    { s with mem := { s.mem with
      far := SMap.setRun dsmDflt s.mem.far (p * 2 ^ 42 + o) bs, farPoison := s.mem.farPoison.filter (fun g => !gs.contains g) } }
  | .none => s

/-- A read of `n` bytes at a location meets a poisoned granule (R203, R212). -/
def State.poisonLoc (s : State) (l : Loc) (n : Nat) : Bool :=
  match l with
  | .near pa => s.poisonIn pa n
  | .far p o =>
    (List.range (n / 256 + 2)).any (fun i =>
      decide (256 * (o / 256 + i) < o + n) && s.mem.farPoison.contains (p * 2 ^ 34 + o / 256 + i))
  | _ => false

/-- Granules of a run of `n` bytes at a location that take the poison of the source granules at the offsets `ds` (R204). -/
def State.carryPoison (s : State) (l : Loc) (ds : List Nat) : State :=
  let mark (m : List Nat) (a : Nat) : List Nat := ds.foldl (fun m d => NSet.add (NSet.add m ((a + d) / 256)) ((a + d + 255) / 256)) m
  match l with
  | .near pa => { s with mem := { s.mem with poison := (mark [] pa).foldl (fun m g => NSet.add m (s.served (256 * g) / 256)) s.mem.poison } }
  | .far p o => { s with mem := { s.mem with farPoison := (mark [] o).foldl (fun m g => NSet.add m (p * 2 ^ 34 + g)) s.mem.farPoison } }
  | _ => s

/-- The offsets of the poisoned granules of a run of `n` bytes at a location. -/
def State.poisonOffs (s : State) (l : Loc) (n : Nat) : List Nat :=
  ((List.range (n / 256 + 1)).map (fun i => 256 * i)).filter (fun d => decide (d < n) && s.poisonLoc (l.add d) 1)

/-- The 128-byte DSM lines of a range, as `dsmDirty` names them (R165). -/
def dsmLines (d o n : Nat) : List Nat :=
  ((List.range (n / 128 + 2)).map (fun i => o / 128 + i)).filter (fun l => decide (128 * l < o + n))
    |>.map (fun l => d * 2 ^ 20 + l)

/-- Marks or clears the unwritten mark of the DSM lines of a location (R47). -/
def State.markLines (s : State) (l : Loc) (n : Nat) (dirty : Bool) : State :=
  match l with
  | .dsm d o =>
    let ls := dsmLines d o n
    let m := s.units.dsmDirty
    let m := if dirty = true then ls.foldl NSet.add m else m.filter (fun x => !ls.contains x)
    { s with units := { s.units with dsmDirty := m } }
  | _ => s

/-! ## Elements (R66, R105 to R107) -/

/-- The tile that holds stored element (r, c) of matrix `b` of a shape. -/
def tileIndex (w b r c : Nat) : Nat := b * shTiles1 w + (r / 32) * shTc w + c / 32

/-- The code and scale byte of an element inside the bytes of its tile. -/
def tileElem (f blkax : Nat) (tile : List Byte) (r c : Nat) : Nat × Nat :=
  if fmtIsMx f then
    let blk := if blkax = 0 then r % 32 else c % 32
    let j := if blkax = 0 then c % 32 else r % 32
    let bits := fmtBits f
    (natAt tile (blk * 4 * bits) (4 * bits) / 2 ^ (bits * j) % 2 ^ bits, natAt tile (128 * bits + blk) 1)
  else
    let nb := fmtBits f / 8
    (natAt tile ((32 * (r % 32) + c % 32) * nb) nb, 0)

/-- The code and scale byte of the stored element (r, c) of matrix `b` of a tensor at a location (R66, R105, R106). -/
def State.codeScale (s : State) (l : Loc) (w b r c : Nat) : Nat × Nat :=
  let f := shFmt w
  let t := l.add (tileIndex w b r c * tileBytes f)
  if fmtIsMx f then
    let blk := if shBlkax w = 0 then r % 32 else c % 32
    let j := if shBlkax w = 0 then c % 32 else r % 32
    let bits := fmtBits f
    (leNat (s.readLoc (t.add (blk * 4 * bits)) (4 * bits)) / 2 ^ (bits * j) % 2 ^ bits,
      leNat (s.readLoc (t.add (128 * bits + blk)) 1))
  else
    let nb := fmtBits f / 8
    (leNat (s.readLoc (t.add ((32 * (r % 32) + c % 32) * nb)) nb), 0)

/-- The decoded stored element (r, c) of matrix `b` of a tensor at a location. -/
def State.elemAt (s : State) (l : Loc) (w b r c : Nat) : FV :=
  let e := s.codeScale l w b r c
  decodeElem (shFmt w) e.1 e.2

/-- The code and scale byte of element (r, c) of the matrix as the op uses it, TRANS applied (R107). -/
def State.codeT (s : State) (l : Loc) (w b r c : Nat) : Nat × Nat :=
  if shTrans w then s.codeScale l w b c r else s.codeScale l w b r c

/-- The element (r, c) of the matrix as the op uses it, TRANS applied. -/
def State.elemT (s : State) (l : Loc) (w b r c : Nat) : FV := if shTrans w then s.elemAt l w b c r else s.elemAt l w b r c

/-- The code of one element of a target without block scales: the entry itself when nothing is rounded (R70). -/
def elemCode (c : Cvt) (raw : Bool) (v : Word) (d : BitVec 32) : Nat × CvtFlags :=
  if raw && c.fmt == 11 then (v.toNat, {}) else cvtElem c d (val64 v)

/-- The bytes and flags of one tile of a target; a position without a value is padding (R106). -/
def packTile (c : Cvt) (raw : Bool) (el : Nat → Nat → Option (Word × BitVec 32)) : List Byte × CvtFlags :=
  if fmtIsMx c.fmt then
    let blocks := (List.range 32).map (fun b =>
      let xs := (List.range 32).map (fun j => if c.blkax = 0 then el b j else el j b)
      if xs.all (fun x => x.isNone) then (0, xs.map (fun _ => 0), ({} : CvtFlags))
      else cvtBlock c (xs.map (fun x => match x with
        | some (v, d) => (val64 v, d)
        | none => (.fin false 0 0, 0))))
    let pack (codes : List Nat) : List Byte :=
      leBytes (4 * fmtBits c.fmt) (codes.foldr (fun x a => x + 2 ^ fmtBits c.fmt * a) 0)
    (blocks.flatMap (fun b => pack b.2.1) ++ blocks.map (fun b => BitVec.ofNat 8 b.1),
      blocks.foldl (fun a b => a.or b.2.2) {})
  else
    let es := (List.range 1024).map (fun i =>
      match el (i / 32) (i % 32) with
      | some (v, d) => elemCode c raw v d
      | none => (0, {}))
    (es.flatMap (fun e => leBytes (fmtBits c.fmt / 8) e.1), es.foldl (fun a e => a.or e.2) {})

/-- The bytes and flags of tile `t` of a tensor of a shape under a conversion control word. -/
def tensorTile (c : Cvt) (raw : Bool) (w : Nat) (val : Nat → Nat → Nat → Word) (dr : Nat → Nat → Nat → BitVec 32) (t : Nat) :
    List Byte × CvtFlags :=
  let b := t / shTiles1 w
  let tr := t % shTiles1 w / shTc w
  let tc := t % shTiles1 w % shTc w
  packTile c raw (fun i j =>
    let r := 32 * tr + i
    let k := 32 * tc + j
    if r < shRows w ∧ k < shCols w then some (val b r k, dr b r k) else none)

/-- The bytes and flags of a whole tensor. -/
def packTensor (c : Cvt) (raw : Bool) (w : Nat) (val : Nat → Nat → Nat → Word) (dr : Nat → Nat → Nat → BitVec 32) :
    List Byte × CvtFlags :=
  let ts := (List.range (shTiles w)).map (tensorTile c raw w val dr)
  (ts.flatMap (fun t => t.1), ts.foldl (fun a t => a.or t.2) {})

/-! ## Hallmarks -/

/-- The hallmark of a tile: CRC-32C over its bytes and its tag (R305). -/
def hallmark (tile : List Byte) (id idx : Nat) (step : Step) : Nat :=
  (crc32c (tile ++ leBytes 4 id ++ leBytes 4 idx ++ leBytes 8 (stepWord step).toNat)).toNat

/-- The tag step written, and the one expected on a read, in step `st` (R306). -/
def Tensor.tagWrite (_ : Tensor) (st : Step) : Step := st
def Tensor.tagRead (t : Tensor) (st : Step) : Step := if t.mode = 0 then st else if t.mode = 1 then st - 1 else -1

/-- The tiles of an entry that a range of plain addresses touches. -/
def Tensor.touched (t : Tensor) (a n : Nat) : List Nat :=
  let tb := tileBytes t.fmt
  let lo := (a - t.base) / tb
  ((List.range (n / tb + 2)).map (· + lo)).filter (fun i => decide (i < t.tiles) && decide (t.base + i * tb < a + n))

/-- Where tile `i` of an entry and its hallmark word lie, under the copy that `pp` selects (R191, R306). -/
def State.tileLoc (s : State) (die : Nat) (st : Step) (t : Tensor) (pp i : Nat) : Loc :=
  (s.resolve die st (t.base + pp * 2 ^ 50)).add (i * tileBytes t.fmt)
def State.hmLoc (s : State) (die : Nat) (st : Step) (t : Tensor) (pp i : Nat) : Loc :=
  (s.resolve die st (t.hm + pp * 2 ^ 50)).add (4 * i)

/-- The stored hallmark of tile `i` agrees with its bytes and the expected tag. -/
def State.tileOk (s : State) (die : Nat) (st : Step) (t : Tensor) (pp i : Nat) (tag : Step) : Bool :=
  let bs := s.readLoc (s.tileLoc die st t pp i) (tileBytes t.fmt)
  leNat (s.readLoc (s.hmLoc die st t pp i) 4) == hallmark bs t.id i tag

/-- Writes the hallmark of tile `i` from the bytes it now holds. -/
def State.tileSeal (s : State) (die : Nat) (st : Step) (t : Tensor) (pp i : Nat) (tag : Step) : State :=
  let bs := s.readLoc (s.tileLoc die st t pp i) (tileBytes t.fmt)
  s.writeLoc (s.hmLoc die st t pp i) (leBytes 4 (hallmark bs t.id i tag))

/-- PPSEL bits of an address that has them. -/
def ppOf (a : Nat) : Nat := if aSpace a = 1 then aPp a else 0

/-- Writes the hallmarks of the tiles that a written range touches (R308). -/
def State.sealRange (s : State) (die : Nat) (st : Step) (ts : List Tensor) (a n : Nat) : State :=
  if aSpace a = 2 then s
  else match findTensor ts a n with
    | none => s
    | some t => forEach (t.touched (aPlain a) n) (fun i u => u.tileSeal die st t (ppOf a) i (t.tagWrite st)) s

/-- The tiles of a read range whose hallmarks disagree (R308). A poisoned tile is not hallmark-checked. -/
def State.badTiles (s : State) (die : Nat) (st : Step) (ts : List Tensor) (a n : Nat) : List (Tensor × Nat) :=
  if aSpace a = 2 then []
  else match findTensor ts a n with
    | none => []
    | some t =>
      ((t.touched (aPlain a) n).filter (fun i =>
        !s.poisonLoc (s.tileLoc die st t (ppOf a) i) (tileBytes t.fmt) && !s.poisonLoc (s.hmLoc die st t (ppOf a) i) 4
          && !s.tileOk die st t (ppOf a) i (t.tagRead st))).map (fun i => (t, i))

/-- The hallmark words of the tiles of a range, in tile order. -/
def State.tileMarks (s : State) (die : Nat) (st : Step) (ts : List Tensor) (a n : Nat) : List Nat :=
  if aSpace a = 2 then []
  else match findTensor ts a n with
    | none => []
    | some t => (t.touched (aPlain a) n).map (fun i => leNat (s.readLoc (s.hmLoc die st t (ppOf a) i) 4))

/-- The tiles of a crucible copy of a range, at `pa`, that disagree with the hallmarks kept with it (R306, R309). -/
def State.badKept (s : State) (st : Step) (ts : List Tensor) (a n pa : Nat) (marks : List Nat) : List (Tensor × Nat) :=
  match findTensor ts a n with
  | none => []
  | some t =>
    let tb := tileBytes t.fmt
    (((t.touched (aPlain a) n).zip marks).zipIdx.filter (fun e =>
      !s.poisonLoc (.near (pa + e.2 * tb)) tb
        && hallmark (s.ldN (pa + e.2 * tb) tb) t.id e.1.1 (t.tagRead st) != e.1.2)).map (fun e => (t, e.1.1))

/-! ## Traffic and sleep of the stacks (R211, R218) -/

/-- A request to a stack in self-refresh wakes it, and a request that reaches one about to sleep ends that (R211). -/
def State.wakeStack (s : State) (stack : Nat) : State :=
  let s := if s.mem.sleepDue.contains stack then { s with mem := { s.mem with sleepDue := NSet.del s.mem.sleepDue stack } } else s
  if s.mem.asleep.contains stack then
    ({ s with mem := { s.mem with asleep := NSet.del s.mem.asleep stack } }).setField stack 0x0E 0x048 1 1 0
  else s

/-- A request of `n` bytes from a die meets its location: the stack wakes, and the bytes are counted in its memory channel page
and on the fabric between the die and the one that serves the slot (R193, R211, R218, R219). A turn between reads and writes
and the cycles lost to refresh are free counts. -/
def State.access (s : State) (die a : Nat) (l : Loc) (n : Nat) (write : Bool) : State :=
  match l with
  | .near pa =>
    let st := pa / stackBytes
    let d := s.servingDie' (aSlot a)
    let t := (s.wakeStack st).bump st 0x0E (if write then 0xC08 else 0xC00) n
    let t := t.bump st 0x0E 0xC10 (Config.counter t.free (canonAddr st 0x0E 0xC10)).toNat
    let t := t.bump st 0x0E 0xC18 (Config.counter t.free (canonAddr st 0x0E 0xC18)).toNat
    let t := { t with free := t.free + 1 }
    if write then t.countFabric die d n else t.countFabric d die n
  | .far p _ => (s.bump (56 + p) 0x1F (if write then 0xC08 else 0xC00) n)
  | _ => s

/-! ## Outputs, and PERSIST writes that wait (R47, R192, R308, R372) -/

/-- Writes bytes at an offset of output operand `i` of an op, with the hallmarks of the tiles written (R308) and, for a
PERSIST op, the unwritten marks of DSM lines (R47). -/
def State.landPut (s : State) (sid : Nat) (o : Op) (i off : Nat) (bs : List Byte) : State :=
  let die := s.slotDie sid
  let st := (s.slot sid).step
  let a := (o.opnd i).addr
  let loc := (s.resolve die st a).add off
  let t := ((s.access die a loc bs.length true).writeLoc loc bs).markLines loc bs.length o.persist
  if o.noEntry i then t else t.sealRange die st (t.tensors sid false) (a + off) bs.length

/-- The 2 MiB blocks that a range of a stack touches: stack * 2^15 + block. -/
def blocksOf (pa n : Nat) : List Nat :=
  ((List.range (n / pageBytes + 2)).map (fun i => pa / pageBytes * pageBytes + i * pageBytes)).filter (fun a => decide (a < pa + n))
    |>.map pageOf

/-- A PERSIST write may proceed: the step before is SEALED (R192), and every block of a protected generation that it meets has
been copied (R372). -/
def State.persistFree (s : State) (sid : Nat) (o : Op) (i off n : Nat) : Bool :=
  let st := (s.slot sid).step
  decide (st - 1 ≤ s.ldg.newestSealed) &&
    (match s.ckp.protectedStep, (s.resolve (s.slotDie sid) st (o.opnd i).addr).add off with
    | some p, .near pa =>
      decide (st ≤ p) || decide ((st - p) % 2 ≠ 0) || s.ckp.copiedSlots.contains (aSlot (o.opnd i).addr)
        || (blocksOf pa n).all (fun k => SMap.get (fun _ => 0) s.ckp.copied k == 1)
    | _, _ => true)

/-- The declared wait of a held PERSIST write (R192, R272). -/
def State.declareHeld (s : State) (sid : Nat) (o : Op) (on : Bool) : State :=
  if o.unit < 4 ∧ sid < 48 then s.setDeclared (4 * s.slotDie sid + o.unit % 4) on else s

/-- An op has PERSIST writes that wait. -/
def State.holdsWrites (s : State) (sid op : Nat) : Bool := s.mem.heldWrites.any (fun h => h.sid == sid && h.op == op)

/-- A write of an op: a PERSIST write that may not proceed waits in order behind the op's earlier ones, as a declared wait
(R192, R372). -/
def State.putAt (s : State) (sid : Nat) (o : Op) (i off : Nat) (bs : List Byte) : State :=
  if o.persist && (s.holdsWrites sid o.index || !s.persistFree sid o i off bs.length) then
    ({ s with mem := { s.mem with heldWrites := s.mem.heldWrites ++ [({ sid := sid, op := o.index, opnd := i, off := off, bytes := bs } : HeldWrite)] } }).declareHeld sid o true
  else s.landPut sid o i off bs

/-- The held writes that may proceed are made, and an op that waits no longer ends its declared wait. -/
def State.landHeld (s : State) : State :=
  let go (h : HeldWrite) : Bool := s.persistFree h.sid (s.opAt h.sid false h.op) h.opnd h.off h.bytes.length
  let t := { s with mem := { s.mem with heldWrites := s.mem.heldWrites.filter (fun h => !go h) } }
  let l := s.mem.heldWrites.filter go
  let t := forEach l (fun h u => u.landPut h.sid (u.opAt h.sid false h.op) h.opnd h.off h.bytes) t
  forEach l (fun h u => if u.holdsWrites h.sid h.op then u else u.declareHeld h.sid (u.opAt h.sid false h.op) false) t

end Sys2Proof.Machine
end

