-- ==== Sys2Proof/Machine/Sync.lean ====
section
/-!
DEFINITION. Sync objects, generations, waiters, early arrivals and barrier trees (R259 to R270), what the landing of a
message's data does (R245, R265, R266, R308), and retention in the crucible (R335).
-/

namespace Sys2Proof.Machine

/-! ## Objects -/

def objDflt (_ : Nat) : SyncObj := {}
def State.obj (s : State) (k : Nat) : SyncObj := SMap.get objDflt s.syn.objs k
def State.setObj (s : State) (k : Nat) (o : SyncObj) : State :=
  { s with syn := { s.syn with objs := SMap.set objDflt s.syn.objs k o } }

/-- The key of an object: its die, then core objects, die objects and tree nodes. -/
def objKey (die scope core obj : Nat) : Nat :=
  die * 2 ^ 13 + (if scope = 1 then core * 48 + obj else if scope = 2 then 256 + obj else 512 + obj)
def objDie (k : Nat) : Nat := k / 2 ^ 13
def objPart (k : Nat) : Nat := k % 2 ^ 13
def objScope (k : Nat) : Nat := if objPart k < 256 then 1 else if objPart k < 512 then 2 else 3
def objCore (k : Nat) : Nat := if objPart k < 256 then objPart k / 48 else 0
def objNum (k : Nat) : Nat :=
  if objPart k < 256 then objPart k % 48 else if objPart k < 512 then objPart k - 256 else objPart k - 512

/-- The link die of a tree node (R259). -/
def nodeDie (n : Nat) : Nat := 48 + n / 512 % 8

/-- The object's entry in the sync table of the slot whose die holds it (R261). -/
def State.objEntry (s : State) (k : Nat) : Option SyncEntry :=
  match s.dieSlot (objDie k) with
  | none => none
  | some sid => (s.syncTable sid false).find? (fun e => e.scope == objScope k && e.core == objCore k && e.obj == objNum k)

/-- The object is listed in a table that a later step may run under: the active one, or that of a shadow set that a swap may
bring in before that step (R265, R274). -/
def State.objListed (s : State) (k : Nat) : Bool :=
  (s.objEntry k).isSome ||
    (match s.dieSlot (objDie k) with
    | none => false
    | some sid => s.plan.checked.any (fun e => e.1 == sid) &&
        (s.syncTable sid true).any (fun e => e.scope == objScope k && e.core == objCore k && e.obj == objNum k))

/-- An object that an op of the open step may meet: armed from its table when the slot opened the step. -/
def State.objArmed (s : State) (k : Nat) : Bool := (s.obj k).sid != 64

def syncPhaseCode : SyncPhase → Nat
  | .idle => 0
  | .armed => 1
  | .complete => 2
  | .done => 3
  | .held => 4

/-- Arrivals parked for an object (R262). -/
def State.parkedFor (s : State) (k : Nat) : Nat := (s.syn.parked.filter (fun p => p.obj == k)).length

/-- Words 0 and 1 of an object's state (R262). -/
def State.objWord0 (s : State) (k : Nat) : Word :=
  let o := s.obj k
  BitVec.ofNat 64 (inFld 63 61 (syncPhaseCode o.phase) + inFld 60 60 (if o.data then 1 else 0) + inFld 59 52 o.gen
    + inFld 51 44 o.waiters + inFld 39 0 o.count)
def State.objWord1 (s : State) (k : Nat) : Word :=
  let o := s.obj k
  BitVec.ofNat 64 (inFld 63 48 o.arrivals + inFld 47 40 (Nat.min 255 (s.parkedFor k)) + inFld 39 0 o.reserved)

/-- Where a sync fault lies (R397): the core, 8 for a die object, 9 for a tree node; DETAIL is word 0 (R398). -/
def State.syncSite (s : State) (k : Nat) : Site :=
  { typ := 0x24, inst := if objScope k = 1 then objCore k else if objScope k = 2 then 8 else 9,
    sub := if objScope k = 3 then objNum k % 512 else objNum k, detail := s.objWord0 k }

/-- The op index of a fault that no op of the object's own slot caused. -/
def noOp : Nat := 0xFFFFFF

/-- A sync fault: the share of the die that holds the object is replayed; a repeat at the same op reports PLAN_DEFECT
(R273). -/
def State.syncFault (s : State) (k code op : Nat) : State :=
  match s.dieSlot (objDie k) with
  | none => s.raise (objDie k) code (s.syncSite k)
  | some sid => if op = noOp then s.raise (objDie k) code (s.syncSite k) else s.raisePlan sid code op (s.syncSite k)

/-! ## Retention in the crucible (R335) -/

def State.depth (s : State) : Nat := s.field 62 0x20 0x040 3 0

/-- Bytes of a partition, and the offset of the partition of a step within the crucible. -/
def State.partBytes (s : State) (st : Nat) : Nat := crucPart (s.rd st 0x0F 0x040) s.depth
def State.partBase (s : State) (st : Nat) (n : Step) : Nat :=
  st * stackBytes + s.liveBytes st + (n % (s.depth : Int)).toNat * s.partBytes st

/-- Retains bytes of a slot in the partition of a step; `msg` is the header of a sent segment, `marks` the hallmarks of a step
input. -/
def State.retain (s : State) (sid : Nat) (n : Step) (op seg kind : Nat) (bs : List Byte) (msg : Option Msg)
    (marks : List Nat := []) : State :=
  let used := (s.ldg.retained.filter (fun r => r.sid == sid && r.step == n)).foldl (fun a r => a + r.len) 0
  let base := s.partBase (s.slotStack sid) n + used
  let t := s.stN base bs
  let r : Retained := { sid := sid, step := n, op := op, seg := seg, off := base, len := bs.length, kind := kind, msg := msg,
                        marks := marks }
  { t with ldg := { t.ldg with retained := t.ldg.retained ++ [r] } }

def State.retainedOf (s : State) (n : Step) (op seg kind : Nat) (q : Retained → Bool) : Option Retained :=
  s.ldg.retained.find? (fun r => r.step == n && r.op == op && r.seg == seg && r.kind == kind && q r)

/-! ## Answers, and data that lands -/

/-- Answers a WRITE with COMPLETE (R245, R246): 0 DONE, 1 RETRY, 2 STALE, 3 REFUSED. -/
def State.answer (s : State) (die : Nat) (m : Msg) (status : Nat) : State :=
  let t := if status = 1 then s.bump die 0x24 0xC08 else s
  t.sendMsg die
    { dst := m.src, src := s.moduleId, kind := 4, gen := s.dieTag die, step := m.step, xfer := m.xfer, seg := m.seg,
      aux := status, vc := 1 }

/-- The bytes a message carries. -/
def Msg.body (m : Msg) : List Byte := bytesAt m.data 0 m.len

/-- The address of a message names tiles of a slot in use. -/
def State.canLand (s : State) (m : Msg) : Bool :=
  aSpace m.addr == 1 && decide (aSlot m.addr < 48) && xValid (s.xlat (aSlot m.addr))
    && (findTensor (s.tensors (aSlot m.addr) false) m.addr m.len).isSome

/-- Writes a message's data at its address, with the hallmarks of the slot it names (R308). -/
def State.land (s : State) (m : Msg) : State :=
  let sid := aSlot m.addr
  let die := s.slotDie sid
  let loc := s.resolve die m.step m.addr
  let t := (s.access die m.addr loc m.len true).writeLoc loc (Msg.body m)
  t.sealRange die m.step (s.tensors sid false) m.addr m.len

/-- The data of a message has been written: a WRITE is answered DONE and recorded for a replaying receiver (R351); a
FETCH_DATA is retained (R335) and ends its part of a GET (R254). -/
def State.landed (s : State) (die : Nat) (m : Msg) : State :=
  if m.kind = 1 then
    let t := s.answer die m 0
    if (s.slot (aSlot m.addr)).replays = 0 then t
    else { t with net := { t.net with seen := t.net.seen ++ [(m.src, m.xfer, aSlot m.addr * 2 ^ 32 + m.seg, m.step)] } }
  else
    let op := m.xfer / 2 ^ 40 % 2 ^ 24
    let lsid := sidOf (m.xfer / 2 ^ 35 % 4) (m.xfer / 2 ^ 37 % 8)
    let t := s.retain (aSlot m.addr) m.step op m.seg 2 (Msg.body m) (some { m with data := [] })
    ({ t with net := { t.net with fetches := t.net.fetches.map (fun (f : Nat × Nat × Nat × Nat) =>
        if f.1 == lsid && f.2.1 == op then (f.1, f.2.1, f.2.2.1, f.2.2.2 - m.len) else f) } }).untrack
      (fun x => x.sid == lsid && x.op == op && x.seg == m.seg)

/-! ## Arrivals (R263 to R266) -/

/-- An arrival at an object. -/
structure Arrival where
  key : Nat
  step : Step
  gen : Nat
  amount : Nat
  isData : Bool
  /-- It counts as a participant: SEG 0, or a local op's first write. -/
  first : Bool := true
  child : Option NodeChild := none
  msg : Option Msg := none
  /-- Delivering link die of a message. -/
  die : Nat := 0
  /-- The slot whose op sent it, or 64. -/
  src : Nat := 64
  op : Nat := noOp
  deriving DecidableEq, Repr

/-- What may follow from one event at the objects. -/
inductive SyncAct where
  | arrive (a : Arrival)
  | release (key : Nat) (step : Step) (gen : Nat)
  | wait (key : Nat) (w : Waiter)
  deriving DecidableEq, Repr

/-- The classes of R265. -/
inductive ArrClass where
  | current
  | early
  | stale
  | unarmed
  deriving DecidableEq, Repr

def genDist (a b : Nat) : Nat := (a + 256 - b % 256) % 256

/-- Classifies an arrival or a waiter of a step and generation against an object (R265). While the holding slot replays
the step, what arrives for it is early: it is applied when the slot reopens. A node that is DONE has released its last
generation, for which a further arrival is stale (R269). -/
def State.classify (s : State) (k : Nat) (st : Step) (gen : Nat) : ArrClass :=
  match s.dieSlot (objDie k) with
  | none => .unarmed
  | some sid =>
    let r := s.slot sid
    if r.step < st then (if s.objListed k then .early else .unarmed)
    else if st < r.step ∨ r.phase = .computed ∨ r.phase = .idle then
      (if (s.objEntry k).isSome then .stale else .unarmed)
    else if r.phase = .replaying then (if (s.objEntry k).isSome then .early else .unarmed)
    else if !s.objArmed k then .unarmed
    else
      let d := genDist gen (s.obj k).gen
      if d = 0 then (if objScope k = 3 ∧ (s.obj k).phase = .done then .stale else .current)
      else if d ≤ 127 then .early else .stale

/-- Entries of the early table of a die (R266). -/
def earlyCap (die : Nat) : Nat := if die < 48 then 1024 else if die < 56 then 4096 else 256

/-- Bytes of the early buffer of a link die in use (R266: 32 MiB). -/
def State.earlyBuf (s : State) (die : Nat) : Nat :=
  s.syn.parked.foldl (fun a p => a + (if p.die = die then ((p.msg.map (fun m => m.len)).getD 0) else 0)) 0

/-- Parks an early arrival (R266). -/
def State.park (s : State) (a : Arrival) : State :=
  let die := objDie a.key
  if earlyCap die ≤ (s.syn.parked.filter (fun p => objDie p.obj == die)).length then
    (let t := s.syncFault a.key 0x0105 a.op
     match a.msg with
     | some m => if m.kind = 1 then t.answer a.die m 3 else t
     | none => t)
  else
    let n := (a.msg.map (fun m => m.len)).getD 0
    if 2 ^ 25 < s.earlyBuf a.die + n then
      (match a.msg with
        | some m => s.answer a.die m 1
        | none => s)
    else
      let p : Parked := { obj := a.key, step := a.step, gen := a.gen, amount := a.amount, isData := a.isData, msg := a.msg,
                          die := a.die, child := a.child }
      ({ s with syn := { s.syn with parked := s.syn.parked ++ [p] } }).bump die 0x24 0xC10

/-- Takes the parked arrivals of an object for a generation of a step. -/
def State.takeParked (s : State) (k : Nat) (st : Step) (gen : Nat) : State × List SyncAct :=
  let q (p : Parked) : Bool := p.obj == k && p.step == st && p.gen % 256 == gen % 256
  ({ s with syn := { s.syn with parked := s.syn.parked.filter (fun p => !q p) } },
    (s.syn.parked.filter q).map (fun p => .arrive
      { key := p.obj, step := p.step, gen := p.gen, amount := p.amount, isData := p.isData,
        first := (match p.msg with
          | some m => m.seg == 0
          | none => true), child := p.child, msg := p.msg, die := p.die }))

/-- The order in which waiters that become current together register: lower core number, then lower OP_INDEX (R274). -/
def State.waiterOrder (s : State) (l : List Waiter) : List Waiter :=
  let key (w : Waiter) : Nat := ((s.opAt w.sid false w.op).unit * 2 ^ 24 + w.op) * 64 + w.sid
  sortBy (fun a b => decide (key a ≤ key b)) l

/-- Releases a waiter: its reference is complete. -/
def State.releaseWaiter (s : State) (w : Waiter) : State :=
  if (s.slot w.sid).step ≠ w.step then s
  else
    let o := s.opRun w.sid w.op
    s.setOp w.sid w.op { o with released := Nat.lor o.released (2 ^ w.ref) }

/-- A generation is over: the next one begins, or the object is DONE (R263). -/
def State.objNext (s : State) (k : Nat) : State × List SyncAct :=
  let o := s.obj k
  let st := (s.slot o.sid).step
  if o.finished < o.gens then
    let g := (o.gen + 1) % 256
    let due (w : Waiter) : Bool := w.gen % 256 == g && decide (w.step = st)
    let t := s.setObj k { o with
      phase := .armed, gen := g, count := 0, arrivals := 0, waiters := 0, children := [],
      registered := o.registered.filter (fun w => !due w) }
    let (t, l) := t.takeParked k st g
    (t, l ++ (s.waiterOrder (o.registered.filter due)).map (fun w => .wait k w))
  else (s.setObj k { o with phase := .done }, [])

/-- The reference of a tree node at a generation, as its release reference (R268). -/
def nodeRef (n gen : Nat) : Nat := 2 ^ 30 + 3 * 2 ^ 27 + n % 4096 * 2 ^ 13 + gen % 256

/-- A node completes: a root releases at once; another sends an ARRIVE to its parent (R268). -/
def State.nodeComplete (s : State) (k : Nat) : State × List SyncAct :=
  let o := s.obj k
  let st := (s.slot o.sid).step
  if o.parentModule = 0xFFFF then (s, [.release k st o.gen])
  else if o.parentModule = s.moduleId then
    let p := objKey (nodeDie o.parentNode) 3 0 o.parentNode
    let c : NodeChild := ⟨s.moduleId, nodeRef (objNum k) o.gen, 64, s.dieTag (objDie k)⟩
    (s, [.arrive { key := p, step := st, gen := o.gen, amount := 1, isData := false, child := some c, src := o.sid }])
  else
    (s.sendVc3 (objDie k)
      { dst := o.parentModule, src := s.moduleId, kind := 5, gen := s.dieTag (objDie k), step := st,
        sync := nodeRef o.parentNode o.gen, aux := nodeRef (objNum k) o.gen }, [])

/-- COUNT has reached TARGET with every participant: the registered waiters are released (R263). -/
def State.objComplete (s : State) (k : Nat) : State × List SyncAct :=
  let o := s.obj k
  let st := (s.slot o.sid).step
  let due (w : Waiter) : Bool := w.gen % 256 == o.gen && decide (w.step = st)
  let t := s.setObj k { o with
    phase := .complete, finished := o.finished + 1, registered := o.registered.filter (fun w => !due w), deferral := 0 }
  let t := forEach (o.registered.filter due) (fun w u => u.releaseWaiter w) t
  if objScope k = 3 then t.nodeComplete k
  else if o.c ≤ o.waiters then t.objNext k
  else (t, [])

/-- Counts dross of a die (R410). -/
def State.countDross (s : State) (die : Nat) : State :=
  let n := SMap.get (fun _ => 0) s.flt.dross die + 1
  { s with flt := { s.flt with dross := SMap.set (fun _ => 0) s.flt.dross die n } }

/-- A newer, equal or older generation tag (R268, R409: 0x01 to 0xFF, wrapping). -/
def tagNewer (a b : Nat) : Bool := let d := (a + 255 - b) % 255; decide (1 ≤ d) && decide (d ≤ 127)

/-- A child already recorded at a node in its present generation. -/
def sameChild (a b : NodeChild) : Bool := a.module == b.module && a.ref == b.ref && a.sid == b.sid

/-- An arrival of the current generation (R263). -/
def State.count (s : State) (a : Arrival) : State × List SyncAct :=
  let k := a.key
  let o := s.obj k
  let dup := match a.child with
    | some c => o.children.find? (fun x => sameChild x c)
    | none => none
  match dup, a.child with
  | some x, some c =>
    if tagNewer c.gen x.gen then
      (s.setObj k { o with children := o.children.map (fun y => if sameChild y c then c else y) }, [])
    else if c.gen = x.gen then (s.syncFault k 0x0100 a.op, [])
    else (s.countDross (objDie k), [])
  | _, _ =>
    if o.phase ≠ .armed ∨ o.target < o.count + o.reserved + a.amount then
      let t := s.syncFault k 0x0100 a.op
      (match a.msg with
        | some m => (if m.kind = 1 then t.answer a.die m 3 else t, [])
        | none => (t, []))
    else
      let s := match a.msg with
        | some m => if m.kind = 1 ∨ m.kind = 3 then (s.land m).landed a.die m else s
        | none => s
      let n := o.count + a.amount
      let ar := o.arrivals + (if !o.data || a.first then 1 else 0)
      let ch := match a.child with
        | some c => if o.children.length < 64 then o.children ++ [c] else o.children
        | none => o.children
      let t := s.setObj k { o with count := n, arrivals := ar, children := ch }
      if n = o.target then (if ar = o.p then t.objComplete k else (t.syncFault k 0x0101 a.op, []))
      else (t, [])

/-- The release of a child: its local release object, a node of this module, or a RELEASE message (R268). A release for a child
that has been reset since its arrival, or that replays the step, is dross (R274); it is no delivery that a replay repeats, since
the replayed arrival brings the release again (R269). -/
def State.releaseChild (s : State) (die : Nat) (st : Step) (c : NodeChild) : State × List SyncAct :=
  let r : SyncRef := ⟨c.ref⟩
  if c.sid < 64 then
    let cd := s.slotDie c.sid
    let run := s.slot c.sid
    if c.gen ≠ s.dieTag cd ∨ run.phase = .replaying ∧ run.step = st then (s.countDross cd, [])
    else (s, [.arrive { key := objKey cd r.scope r.core r.obj, step := st, gen := r.gen, amount := 1, isData := false }])
  else if c.module = s.moduleId then (s, [.release (objKey (nodeDie r.obj) 3 0 r.obj) st r.gen])
  else
    (s.sendVc3 die { dst := c.module, src := s.moduleId, kind := 6, gen := s.dieTag die, step := st, sync := c.ref }, [])

/-- Applies `f` over a list, gathering what follows. -/
def gather {α : Type} (l : List α) (f : α → State → State × List SyncAct) (s : State) : State × List SyncAct :=
  l.foldl (fun a x => let r := f x a.1; (r.1, a.2 ++ r.2)) (s, [])

/-- A node is released: every recorded child, then the next generation (R268). A release for another generation is dross. -/
def State.nodeRelease (s : State) (k : Nat) (st : Step) (gen : Nat) : State × List SyncAct :=
  let o := s.obj k
  if o.phase ≠ .complete ∨ o.gen ≠ gen % 256 ∨ (s.slot o.sid).step ≠ st then (s, [])
  else
    let (t, l) := gather o.children (fun c u => u.releaseChild (objDie k) st c) s
    let (t, m) := t.objNext k
    (t, l ++ m)

/-- A slot's delivery to another slot's object is recorded; what a replaying source delivers again is not counted twice
(R352). Answers the amount that counts. -/
def State.record (s : State) (a : Arrival) : State × Nat :=
  let own := s.dieSlot (objDie a.key)
  if a.src = 64 ∨ own = some a.src ∨ a.child.isSome then (s, a.amount)
  else
    let hit (d : Delivery) : Bool := d.src == a.src && d.obj == a.key && d.step == a.step && d.gen == a.gen && d.credit != 0
    match s.syn.deliveries.find? hit with
    | some d =>
      let use_ := Nat.min d.credit a.amount
      let go (l : List Delivery) : List Delivery :=
        (l.foldl (fun (acc : List Delivery × Bool) x =>
          if !acc.2 && hit x then (acc.1 ++ [{ x with credit := x.credit - use_ }], true) else (acc.1 ++ [x], acc.2)) ([], false)).1
      ({ s with syn := { s.syn with deliveries := go s.syn.deliveries } }, a.amount - use_)
    | none =>
      let d : Delivery := { src := a.src, obj := a.key, step := a.step, gen := a.gen, amount := a.amount }
      ({ s with syn := { s.syn with deliveries := s.syn.deliveries ++ [d] } }, a.amount)

/-- An arrival at an object (R264, R265). -/
def State.arriveAt (s : State) (a : Arrival) : State × List SyncAct :=
  let k := a.key
  let refuse (t : State) (st : Nat) : State :=
    match a.msg with
    | some m => if m.kind = 1 then t.answer a.die m st else t
    | none => t
  let cls := s.classify k a.step a.gen
  if cls = .unarmed then (refuse (s.syncFault k 0x0104 a.op) 3, [])
  else if cls = .stale then
    let t := (refuse s 2).bump (objDie k) 0x24 0xC00
    if objScope k = 3 then
      (match a.child with
        | some c => t.releaseChild (objDie k) a.step c
        | none => (t, []))
    else (t, [])
  else
    let wrong := match s.objEntry k with
      | some e => decide (a.step = (s.slot (s.obj k).sid).step) && e.data != a.isData
      | none => false
    if wrong then (refuse (s.syncFault k 0x0103 a.op) 3, [])
    else
      let (t, n) := s.record a
      let replaying := match s.dieSlot (objDie k) with
        | some sid => (s.slot sid).phase == .replaying && decide ((s.slot sid).step = a.step)
        | none => false
      if n = 0 ∧ a.amount ≠ 0 then (t, [])
      else if replaying && a.src != 64 && a.child.isNone then (t, [])
      else if cls = .early then (t.park { a with amount := n }, [])
      else t.count { a with amount := n }

/-- A waiter at an object (R263, R265). -/
def State.waitAt (s : State) (k : Nat) (w : Waiter) : State × List SyncAct :=
  let o := s.obj k
  let later : State := s.setObj k { o with registered := o.registered ++ [w] }
  let stale : State := s.syncFault k 0x0102 w.op
  match s.classify k w.step w.gen with
  | .unarmed => (s.syncFault k 0x0104 w.op, [])
  | .early => (later, [])
  | .stale => (stale, [])
  | .current =>
    if o.phase = .done ∨ o.phase = .held then (stale, [])
    else if o.c ≤ o.waiters then ((s.setObj k { o with phase := .held }).syncFault k 0x0102 w.op, [])
    else if o.phase = .complete then
      let t := (s.setObj k { o with waiters := o.waiters + 1 }).releaseWaiter w
      if o.c ≤ o.waiters + 1 then t.objNext k else (t, [])
    else (s.setObj k { o with waiters := o.waiters + 1, registered := o.registered ++ [w] }, [])

/-- One event at the objects. -/
def State.syncAct (s : State) : SyncAct → State × List SyncAct
  | .arrive a => s.arriveAt a
  | .release k st g => s.nodeRelease k st g
  | .wait k w => s.waitAt k w

/-- Runs events and all that follows from them, first in first out; the fuel exceeds what a plan set can chain. -/
def syncRun : Nat → List SyncAct → State → State
  | 0, _, s => s
  | _ + 1, [], s => s
  | n + 1, a :: l, s => let r := s.syncAct a; syncRun n (l ++ r.2) r.1

def syncFuel : Nat := 1048576
def State.sync (s : State) (l : List SyncAct) : State := syncRun syncFuel l s

/-! ## References of ops and messages (R260, R269) -/

/-- The key of the object that a reference of an op names (R260). -/
def State.refKeyOf (s : State) (sid : Nat) (o : Op) (r : SyncRef) : Nat :=
  let die := s.slotDie sid
  if r.scope = 0 then objKey die 1 o.unit r.obj
  else if r.scope = 1 then objKey (if sid < 48 then die else s.slotDie (aSlot (o.opnd 0).addr)) 1 r.core r.obj
  else if r.scope = 2 then objKey die 2 0 r.obj
  else objKey (nodeDie r.obj) 3 0 r.obj

/-- The key of the object that a message's reference names (R260): an object of the die that runs the addressed slot,
else of the delivering link die, else of the link die whose table lists it. -/
def State.msgKey (s : State) (die : Nat) (m : Msg) : Nat :=
  let r : SyncRef := ⟨m.sync⟩
  let cd := s.slotDie (aSlot m.addr)
  if r.scope = 3 then objKey (nodeDie r.obj) 3 0 r.obj
  else if r.scope = 1 then objKey cd 1 r.core r.obj
  else if aSpace m.addr = 1 ∧ (s.objEntry (objKey cd 2 0 r.obj)).isSome then objKey cd 2 0 r.obj
  else if (s.objEntry (objKey die 2 0 r.obj)).isSome then objKey die 2 0 r.obj
  else match [48, 49, 50, 51, 52, 53, 54, 55].find? (fun d => (s.objEntry (objKey d 2 0 r.obj)).isSome) with
    | some d => objKey d 2 0 r.obj
    | none => objKey cd 2 0 r.obj

/-- The release reference of a barrier op: its WAIT reference, made independent of the op (R269). -/
def State.barrierChild (s : State) (sid : Nat) (o : Op) : Option NodeChild :=
  match o.syncs.find? (fun r => r.role == 0) with
  | none => none
  | some r =>
    let k := s.refKeyOf sid o r
    some { module := s.moduleId, ref := objScope k * 2 ^ 27 + objCore k * 2 ^ 25 + objNum k * 2 ^ 13 + r.gen, sid := sid,
           gen := s.dieTag (s.slotDie sid) }

/-- The barrier arrivals of an op, sent when it begins to wait (R269). -/
def State.barrierActs (s : State) (sid : Nat) (o : Op) : List SyncAct :=
  if o.cls ≠ 0x0E then []
  else (o.syncs.filter (fun r => r.role == 1 && r.scope == 3)).map (fun r => .arrive
    { key := s.refKeyOf sid o r, step := (s.slot sid).step, gen := r.gen, amount := 1, isData := false,
      child := s.barrierChild sid o, src := sid, op := o.index })

/-- Positions of an op's WAIT references. -/
def Op.waits (o : Op) : List Nat := (List.range o.syncs.length).filter (fun i => ((o.syncs.getD i ⟨0⟩).role) == 0)

/-- The waiters that an op registers. -/
def State.waitActs (s : State) (sid : Nat) (o : Op) : List SyncAct :=
  o.waits.map (fun i =>
    let r := o.syncs.getD i ⟨0⟩
    .wait (s.refKeyOf sid o r) { sid := sid, op := o.index, ref := i, gen := r.gen, step := (s.slot sid).step })

/-- The signals and byte counts that an op sends when its outputs are written (R264). -/
def State.signalActs (s : State) (sid : Nat) (o : Op) : List SyncAct :=
  let bytes := (o.outIdx.map o.bytes).foldl (· + ·) 0
  (o.syncs.filter (fun r => r.role != 0 && r.scope != 3)).map (fun r => .arrive
    { key := s.refKeyOf sid o r, step := (s.slot sid).step, gen := r.gen,
      amount := if r.role = 2 then bytes else 1, isData := r.role == 2, src := sid, op := o.index })

/-! ## Step open and audit (R261, R263, R270, R352) -/

/-- The key of a table entry on the die of its slot. -/
def entryKey (die : Nat) (e : SyncEntry) : Nat := objKey die e.scope e.core e.obj

/-- The objects of a die that are in a state of their own. -/
def State.dieObjs (s : State) (die : Nat) : SMap SyncObj := SMap.slice s.syn.objs (die * 2 ^ 13) ((die + 1) * 2 ^ 13)

/-- Returns every object of a die to IDLE; waiters of other dies stay registered. -/
def State.idleObjs (s : State) (die : Nat) : State :=
  let own := s.dieSlot die
  forEach (s.dieObjs die) (fun e t =>
    t.setObj e.1 { registered := e.2.registered.filter (fun w => some w.sid != own) }) s

/-- A reset of a die discards its objects and their parked arrivals (R263). -/
def State.dropObjs (s : State) (die : Nat) : State :=
  let t := s.idleObjs die
  { t with syn := { t.syn with parked := t.syn.parked.filter (fun p => objDie p.obj != die) } }

/-- Arms the listed objects of a slot's die for its open step: parked arrivals for generation 0 are applied, and other
dies deliver again what they had delivered before a replay (R263, R352). -/
def State.armObjs (s : State) (sid : Nat) (reopened : Bool) : State :=
  let die := s.slotDie sid
  let st := (s.slot sid).step
  let table := s.syncTable sid false
  let bad := !reopened && table.any (fun e => (s.obj (entryKey die e)).phase != .idle)
  let s := if bad then
    (match table.find? (fun e => (s.obj (entryKey die e)).phase != .idle) with
      | some e => s.syncFault (entryKey die e) 0x0106 noOp
      | none => s) else s
  if bad then s
  else
    let s := if reopened then s.idleObjs die else s
    let arm (e : SyncEntry) (t : State) : State :=
      let k := entryKey die e
      t.setObj k { phase := .armed, data := e.data, target := e.target, p := e.p, c := e.c, gens := e.gens,
                   parentModule := e.parentModule, parentNode := e.parentNode, sid := sid,
                   registered := (t.obj k).registered.filter (fun w => decide (st < w.step)) }
    let waits := table.flatMap (fun e =>
      let k := entryKey die e
      (s.waiterOrder ((s.obj k).registered.filter (fun w => w.step == st))).map (fun w => SyncAct.wait k w))
    let t := forEach table arm s
    let t := match s.syn.parked.find? (fun p => objDie p.obj == die && p.step == st
        && !(table.map (entryKey die)).contains p.obj) with
      | some p => t.syncFault p.obj 0x0104 noOp
      | none => t
    let (t, acts) := gather table (fun e u => u.takeParked (entryKey die e) st 0) t
    let again := if reopened then (s.syn.deliveries.filter (fun d => objDie d.obj == die && d.step == st)).map (fun d =>
        SyncAct.arrive { key := d.obj, step := d.step, gen := d.gen, amount := d.amount,
                         isData := (t.obj d.obj).data, src := 64 }) else []
    t.sync (acts ++ again ++ waits)

/-- A replaying source starts again: what it delivers counts only beyond what was counted before (R352). -/
def State.creditSource (s : State) (sid : Nat) : State :=
  let st := (s.slot sid).step
  { s with syn := { s.syn with deliveries := s.syn.deliveries.map (fun d =>
      if d.src == sid && d.step == st then { d with credit := d.amount } else d) } }

/-- The audit of a slot's objects (R270): the key of the first object that fails, if any. -/
def State.auditObjs (s : State) (sid : Nat) : Option Nat :=
  let die := s.slotDie sid
  let st := (s.slot sid).step
  let keys := (s.syncTable sid false).map (entryKey die)
  match keys.find? (fun k => (s.obj k).phase != .done || (s.obj k).reserved != 0
      || s.syn.parked.any (fun p => p.obj == k && p.step == st)) with
  | some k => some k
  | none =>
    ((s.dieObjs die).find? (fun e => !keys.contains e.1 && e.2.phase != .idle)).map (fun e => e.1)

end Sys2Proof.Machine
end

