-- ==== Sys2Proof/Machine/Ledger.lean ====
section
/-!
DEFINITION. The step ledger: module-steps, the seal wave, genesis, release, replay requests and deferral (R328 to R364),
and the segments of a PUT, which a deferral sends as zeros (R246, R254, R359).
-/

namespace Sys2Proof.Machine

/-! ## Places -/

/-- The active ledger die. -/
def State.slDie (s : State) : Nat := 62 + s.ldg.active

/-- A fault of the ledger. -/
def State.ldgFault (s : State) (code : Nat) : State := s.raise s.slDie code { typ := 0x20, inst := s.ldg.active }

def State.ldgMode (s : State) : Bool := s.field 62 0x20 0x040 4 4 == 1
def State.replayMax (s : State) : Nat := s.field 62 0x20 0x040 14 12
def State.deferMax (s : State) : Nat := s.field 62 0x20 0x040 11 8
def State.elasticAction (s : State) : Nat := s.field 62 0x20 0x040 6 5

/-- A rejected write of the ledger page. -/
def State.ldgReject (s : State) (off reason : Nat) : State := s.reject 62 0x20 off reason

/-- A rejected write of LDG_CTL, reported on the page through which its path reaches it (R492). -/
def State.ctlReject (s : State) (p : Path) (reason : Nat) : State :=
  if p = .mgmt then s.reject 60 0x21 0x0D8 reason else s.ldgReject 0x050 reason

/-! ## PUT segments (R246, R254, R335) -/

def putModule (o : Op) : Nat := fld (o.pword 0) 63 48
def putVc (o : Op) : Nat := fld (o.pword 0) 47 45
def putAddr (o : Op) : Nat := o.p 1
def putLen (o : Op) : Nat := o.bytes 0

/-- XFER_ID of an op (R246). -/
def xferId (sid op : Nat) : Nat := op % 2 ^ 24 * 2 ^ 40 + slotNum sid % 8 * 2 ^ 37 + slotKind sid * 2 ^ 35

/-- The segments of a PUT over given data. -/
def State.putMsgs (s : State) (sid : Nat) (o : Op) (bs : List Byte) (zero : Bool) : List Msg :=
  let die := s.slotDie sid
  let n := bs.length
  (List.range (cdiv n 65536)).map (fun i =>
    let d := (bs.drop (i * 65536)).take 65536
    { dst := putModule o, src := s.moduleId, kind := 1, gen := s.dieTag die, step := (s.slot sid).step,
      xfer := xferId sid o.index, seg := i, len := d.length, addr := putAddr o + i * 65536, sync := o.remoteSync.raw,
      aux := if zero then 1 else 0, data := d, vc := putVc o })

/-- Sends one segment: it is retained for resends, enters the stream tracker, and awaits its answer. -/
def State.sendSeg (s : State) (sid : Nat) (o : Op) (m : Msg) : State :=
  let die := s.slotDie sid
  let t := s.retain (aSlot (o.opnd 0).addr) m.step o.index m.seg 1 m.data (some { m with data := [] })
  let g : Segment := { msg := m, sid := sid, op := o.index, tag := s.dieTag die }
  ({ t with net := { t.net with segments := t.net.segments ++ [g] } }).request
    { die := die, unit := o.unit, sid := sid, op := o.index, seg := m.seg, target := m.addr, count := m.len, tag := g.tag } m

/-- Sends the segments of a PUT. -/
def State.sendPut (s : State) (sid : Nat) (o : Op) (bs : List Byte) (zero : Bool) : State :=
  let t := forEach (s.putMsgs sid o bs zero) (fun m u => u.sendSeg sid o m) s
  match t.stepRec (t.slot sid).step with
  | none => t
  | some r => t.setRec { r with puts := r.puts.filter (fun e => e != (sid, o.index)) ++ [(sid, o.index)] }

/-- The carry of an op pending for a step; one pending at a change of plan generation is dropped (R359). -/
def State.carryOf (s : State) (sid op : Nat) (n : Step) : Option (List Byte) :=
  if s.genOf (n - 1) ≠ s.genOf n then none
  else (s.ldg.retained.find? (fun r => r.kind == 3 && r.step == n && r.op == op && r.seg == sid)).map (fun r => s.ldN r.off r.len)

/-- add_binary64_rne over two runs of binary64 elements (R90). -/
def addRuns (a b : List Byte) : List Byte :=
  (List.range (b.length / 8)).flatMap (fun i => leBytes 8 (add64 (wordAt a i) (wordAt b i)).toNat)

/-- The data that a PUT sends in its slot's step: its source, with a pending carry folded in (R359). -/
def State.putData (s : State) (sid : Nat) (o : Op) : List Byte :=
  let st := (s.slot sid).step
  let src := s.readLoc (s.resolve (s.slotDie sid) st (o.opnd 0).addr) (putLen o)
  match s.carryOf sid o.index st with
  | some c => addRuns c src
  | none => src

/-- A deferral decision of a step that names a PUT (R359); decisions apply in elastic mode only (R2, R3). -/
def State.deferFor (s : State) (o : Op) (n : Step) : Option DeferEntry :=
  if !s.ldgMode ∨ o.cls ≠ 0x0B ∨ o.opcode ≠ 1 ∨ putVc o ≠ 2 then none
  else s.ldg.defers.find? (fun d => d.step == n && d.dstModule == putModule o && d.dstSlot == aSlot (putAddr o)
    && d.sync == o.remoteSync.raw)

/-- Keeps the source of a deferred PUT as the carry of the next step when it is binary64, and otherwise drops it. -/
def State.keepCarry (s : State) (sid : Nat) (o : Op) (d : DeferEntry) : State :=
  if d.action ≠ 2 ∨ shFmt (o.opnd 0).shape ≠ 11 then s
  else
    let st := (s.slot sid).step
    let t := s.retain (aSlot (o.opnd 0).addr) (st + 1) o.index sid 3 (s.putData sid o) none
    match t.stepRec st with
    | none => t
    | some r => t.setRec { r with carry := true }

/-! ## Module-steps (R331, R333) -/

/-- The deferral entry as bytes (R361). -/
def deferBytes (d : DeferEntry) : List Byte :=
  leBytes 8 (stepWord d.step).toNat ++ leBytes 4 d.gen ++ leBytes 4 d.sync ++ leBytes 2 d.dstModule
    ++ leBytes 1 d.dstSlot ++ leBytes 1 d.action ++ leBytes 4 d.seq ++ zeros 8
def deferOf (bs : List Byte) : DeferEntry :=
  { step := wordStep (wordAt bs 0), gen := natAt bs 8 4, sync := natAt bs 12 4, dstModule := natAt bs 16 2,
    dstSlot := natAt bs 18 1, action := natAt bs 19 1, seq := natAt bs 20 4 }

/-- A chunk, a fault or a re-execution of an op of the step awaits handling (R333). -/
def State.stepTroubled (s : State) (n : Step) : Bool :=
  let bad (r : FaultRec) : Bool :=
    r.isOpen && !r.claimed && decide (2 ≤ r.cls) && r.op != noOp && r.step == stepWord n && s.jobIn
  s.units.disputes.any (fun d => decide ((s.slot d.sid).step = n)) || s.flt.log.any bad
    || s.flt.collectors.any (fun e => e.2.any bad)

/-- The conditions of R333. -/
def State.canCheck (s : State) (r : StepRec) : Bool :=
  (s.usedSlots.all (fun n => r.computed.contains n)) && !s.stepTroubled r.step
    && r.verifies.all (fun v => v.2.2.2 == 0) && r.puts.isEmpty && r.deferred.isEmpty

/-- The state a module-step reaches without a message (R331). -/
def State.settle (s : State) (r : StepRec) : StepRec :=
  let all := s.usedSlots.all (fun n => r.computed.contains n)
  let base : StepPhase := if all then .computed else .opened
  let ph : StepPhase :=
    if r.step = -1 then r.phase
    else match r.phase with
      | .replaying => if r.replaying.isEmpty then (if r.deferred.isEmpty then base else .deferred) else .replaying
      | .deferred => if r.deferred.isEmpty then base else .deferred
      | .opened => if r.deferred.isEmpty then base else .deferred
      | .computed => if r.deferred.isEmpty then .computed else .deferred
      | p => p
  let r := { r with phase := ph }
  if r.step ≠ -1 ∧ ph = .computed ∧ s.canCheck r then { r with phase := .checked } else r

/-! ## Digests and reports (R342, R345) -/

/-- Own XREP digests in increasing (slot, op) order. -/
def sortVerifies (l : List (Nat × Nat × List Byte × Nat)) : List (Nat × Nat × List Byte × Nat) :=
  sortBy (fun a b => decide (a.1 * 2 ^ 24 + a.2.1 ≤ b.1 * 2 ^ 24 + b.2.1)) l

def State.moduleDigest (s : State) (r : StepRec) : List Byte :=
  if r.step = -1 then s.ldg.genesisDigest
  else digest32 (leBytes 8 (stepWord r.step).toNat ++ leBytes 4 r.gen
    ++ (sortVerifies r.verifies).flatMap (fun v => v.2.2.1)
    ++ (s.ldg.defers.filter (fun d => d.step == r.step)).flatMap deferBytes)

/-- The reports of a step, in increasing child module ID. -/
def State.reportsOf (s : State) (n : Step) : List ChildReport :=
  sortBy (fun a b => decide (a.module ≤ b.module)) ((s.ldg.reports.filter (fun e => e.1 == n)).map (fun e => e.2))

def State.subtreeDigest (s : State) (r : StepRec) : List Byte :=
  digest32 (s.moduleDigest r ++ (s.reportsOf r.step).flatMap (fun c => c.digest))

/-- A swap field (R340). -/
structure SwapField where
  gen : Nat := 0
  n : Nat := 0
  code : Nat := 0
  reason : Nat := 0
  deriving DecidableEq, Repr

def SwapField.bytes (f : SwapField) : List Byte :=
  leBytes 4 f.gen ++ leBytes 8 f.n ++ leBytes 1 f.code ++ leBytes 1 f.reason ++ zeros 2
def swapFieldOf (bs : List Byte) : SwapField :=
  { gen := natAt bs 0 4, n := natAt bs 4 8, code := natAt bs 12 1, reason := natAt bs 13 1 }

/-- The module's own swap state (R345). -/
def State.ownSwap (s : State) : SwapField :=
  match s.plan.swap with
  | none => {}
  | some q =>
    if q.announced then {}
    else if q.cancel ≠ 0 then { gen := q.gen, n := q.n, code := 2, reason := q.cancel }
    else { gen := q.gen, n := q.n, code := 1 }

/-- What a subtree reports of a swap (R345). -/
def joinSwap (own : SwapField) (cs : List SwapField) : SwapField :=
  let l := own :: cs
  match l.find? (fun f => f.code == 2) with
  | some f => f
  | none =>
    if l.all (fun f => f.code == 1) then
      (if l.all (fun f => f.gen == own.gen && f.n == own.n) then own else { own with code := 2, reason := 5 })
    else {}

def State.subtreeSwap (s : State) (n : Step) : SwapField :=
  joinSwap s.ownSwap ((s.reportsOf n).map (fun c => { gen := c.swapGen, n := c.swapN, code := c.swapCode, reason := c.swapReason }))

/-- The root's decision at SEAL(S) on its subtree's report (R345). -/
def State.rootSwap (s : State) (n : Step) : SwapField :=
  let f := s.subtreeSwap n
  if f.code = 1 then
    (if n + (s.depth : Int) ≤ (f.n : Int) then f else { f with code := 2, reason := 4 })
  else f

/-- The body of CHECKED and SEAL (R340). -/
def waveBody (count gen : Nat) (dig : List Byte) (f : SwapField) : List Byte :=
  leBytes 4 count ++ leBytes 4 gen ++ bytesAt dig 0 32 ++ f.bytes

def State.subtreeCount (s : State) (n : Step) : Nat := (s.reportsOf n).foldl (fun a c => a + c.count) 1

/-! ## Sealing and release (R338, R343) -/

/-- What a SEAL's swap field does at a module (R345, R54 to R56, R488). -/
def State.actSwap (s : State) (f : SwapField) : State :=
  match s.plan.swap with
  | none => s
  | some q =>
    if f.code = 1 ∧ q.gen = f.gen ∧ q.n = f.n ∧ !q.announced then
      ({ s with plan := { s.plan with swap := some { q with announced := true, cancel := 0 } } }).pagesPending q.n
    else if f.code = 2 ∧ !q.announced then
      let t := s.setPlan { s.plan with shadow := .ready, swap := none }
      (t.event 0x0002 f.reason (BitVec.ofNat 64 q.n) (BitVec.ofNat 64 q.gen)).pagesRefused q.n
    else s

/-- Removes every listed byte of the partition of a step in every stack (R338). -/
def State.freePart (s : State) (n : Step) : State :=
  { s with ldg := { s.ldg with retained := s.ldg.retained.filter (fun r => decide (r.step ≠ n)) } }

/-- STEP_RELEASE (R338): the retention of a sealed step is freed. -/
def State.releaseStep (s : State) (n : Step) : State :=
  let t := s.freePart n
  let t := { t with
    syn := { t.syn with deliveries := t.syn.deliveries.filter (fun d => decide (d.step ≠ n)) },
    net := { t.net with seen := t.net.seen.filter (fun e => decide (e.2.2.2 ≠ n)) } }
  let t := { t with ldg := { t.ldg with
    newestReleased := n,
    reports := t.ldg.reports.filter (fun e => decide (n < e.1)),
    ownNotices := t.ldg.ownNotices.filter (fun e => decide (e.2.1 ≠ n)),
    recs := (t.ldg.recs.map (fun (r : StepRec) => if r.step = n then { r with phase := StepPhase.released } else r)).filter
      (fun r => decide (n - 256 < r.step)) } }
  t.event 0x0011 0 (stepWord n) 0

/-- A bay of a stack. -/
def State.bay (s : State) (st b : Nat) : Bay := SMap.get (fun _ => ⟨0, -1, 0, false, false⟩) s.ckp.bays (st * 4 + b)
def State.setBay (s : State) (st b : Nat) (x : Bay) : State :=
  { s with ckp := { s.ckp with bays := SMap.set (fun _ => ⟨0, -1, 0, false, false⟩) s.ckp.bays (st * 4 + b) x } }

/-- The tier-0 bay of a stack for a new set: neither pinned, busy nor being written, and the older of those; with tier 1
disabled no bay is pinned (R371). -/
def State.freeBay (s : State) (st : Nat) : Option Nat :=
  let l := [0, 1].filter (fun b => let x := s.bay st b; !x.pinned && !x.busy && x.st != 1)
  match l with
  | [a, b] => some (if (s.bay st b).step < (s.bay st a).step then b else a)
  | [a] => some a
  | _ => none

/-- The compute slots in use. -/
def State.compSlots (s : State) : List Nat := s.usedSlots.filter (fun n => decide (n < 48))

/-- A sealed step that is due for ingots begins its tier-0 copies; the pong of the step is protected (R365, R371, R372). A
set is skipped while the copy of an earlier one is under way: its bays are neither free nor overwritten. -/
def State.ckpSealed (s : State) (n : Step) : State :=
  let every := s.field 62 0x20 0x200 23 16
  let due := s.ckp.owed || decide (n % (every : Int) = 0)
  let carry := match s.stepRec n with
    | some r => r.carry
    | none => false
  if n < 0 ∨ !due then s
  else if carry then { s with ckp := { s.ckp with owed := true } }
  else
    let s := { s with ckp := { s.ckp with owed := false } }
    if s.ckp.protectedStep.isSome || !s.compSlots.all (fun k => (s.freeBay (s.slotStack k)).isSome) then s.bump 62 0x20 0xD18
    else
      let t := forEach s.compSlots (fun k u =>
        match u.freeBay (u.slotStack k) with
        | some b => u.setBay (u.slotStack k) b ⟨0, n, 1, false, false⟩
        | none => u) s
      { t with ckp := { t.ckp with protectedStep := some n, copied := [], guards := [], guardDue := [], copiedSlots := [] } }

/-- A step becomes SEALED (R331, R343): SEAL goes to the children, the event is sent, the swap field acts, and its
retention is freed. -/
def State.sealStep (s : State) (n : Step) (body : List Byte) : State :=
  let t := forEach s.ldg.children (fun c u => u.ledgerMsg c 0x03 n body) s
  let t := { t with ldg := { t.ldg with
    newestSealed := n,
    recs := t.ldg.recs.map (fun (r : StepRec) => if r.step = n then { r with phase := StepPhase.sealed, sent := true } else r) } }
  let t := (t.wr 62 0x20 0x078 (stepWord n)).bump 62 0x20 0xC00
  let t := t.event 0x0010 0 (stepWord n) (wordAt (bytesAt body 8 8) 0)
  let t := t.actSwap (swapFieldOf (bytesAt body 40 16))
  let t := if 0 ≤ n then { t with stu := { t.stu with b2Only := false } } else t
  let t := t.retireGen.landHeld
  let t := if n = -1 then { t with ldg := { t.ldg with genesis := 0 } } else t
  (t.ckpSealed n).releaseStep n

/-- CHECKED or SEAL leaves the module when R342 or R343 holds for a record. -/
def State.fire (s : State) (r : StepRec) : State :=
  let reps := s.reportsOf r.step
  let prev := match s.stepRec (r.step - 1) with
    | none => true
    | some p => p.phase = .sealed ∨ p.phase = .released ∨ (p.sent && !s.isRoot)
  if r.phase ≠ .checked ∨ r.sent ∨ !prev ∨ reps.length < s.sealChildren ∨ (r.step = -1 ∧ s.ldg.genesis = 3) then s
  else if reps.any (fun c => c.gen != r.gen) then s
  else
    let cnt := s.subtreeCount r.step
    let dig := s.subtreeDigest r
    if s.isRoot then s.sealStep r.step (waveBody cnt r.gen dig (s.rootSwap r.step))
    else
      (s.setRec { r with sent := true }).ledgerMsg s.sealParent 0x01 r.step (waveBody cnt r.gen dig (s.subtreeSwap r.step))

/-- Lets every module-step take the transitions that its conditions allow, in increasing step order. -/
def State.progress (s : State) : State :=
  forEach (s.ldg.recs.map (fun r => r.step)) (fun n t =>
    match t.stepRec n with
    | none => t
    | some r =>
      let r := t.settle r
      (t.setRec r).fire r) s

/-! ## Messages from the tree -/

/-- A child's generation for a step differs from the module's own: GEN_SPLIT, and rung 7 (R342). -/
def State.genSplit (s : State) (n : Step) : State :=
  (s.raise s.slDie 0x0202 { typ := 0x20, inst := s.ldg.active, step := some (stepWord n) }).rung7 0x0202 s.flt.nextSeq

/-- A new record of a step, compared with the reports that children sent before the module opened the step (R342). -/
def State.newRec (s : State) (r : StepRec) : State :=
  let t := { s with ldg := { s.ldg with recs := s.ldg.recs ++ [r] } }
  if (t.reportsOf r.step).any (fun c => c.gen != r.gen) then t.genSplit r.step else t

/-- CHECKED from a child (R342): GEN_SPLIT when its generation differs from the module's own. -/
def State.ldgChecked (s : State) (m : Msg) : State :=
  let b := m.data
  let f := swapFieldOf (bytesAt b 40 16)
  let c : ChildReport := { module := m.src, gen := natAt b 4 4, count := natAt b 0 4, digest := bytesAt b 8 32,
                           swapGen := f.gen, swapN := f.n, swapCode := f.code, swapReason := f.reason }
  let keep := s.ldg.reports.filter (fun e => !(e.1 == m.step && e.2.module == m.src))
  let t := { s with ldg := { s.ldg with reports := keep ++ [(m.step, c)], children := NSet.add s.ldg.children m.src } }
  match t.stepRec m.step with
  | none => t
  | some r => if r.gen ≠ c.gen then t.genSplit m.step else t.progress

/-- UNCHECK from a child (R344). -/
def State.ldgUncheck (s : State) (m : Msg) : State :=
  let t := { s with ldg := { s.ldg with reports := s.ldg.reports.filter (fun e => !(e.1 == m.step && e.2.module == m.src)) } }
  match t.stepRec m.step with
  | none => t
  | some r =>
    if r.sent && !t.isRoot && r.phase != .sealed && r.phase != .released then
      (t.setRec { r with sent := false }).ledgerMsg t.sealParent 0x02 m.step []
    else t

/-- SEAL from the parent (R343). -/
def State.ldgSeal (s : State) (m : Msg) : State :=
  match s.stepRec m.step with
  | none => s
  | some r => if r.phase = .sealed ∨ r.phase = .released then s else (s.sealStep m.step m.data).progress

/-- Adds an extension of the hang-detection bounds for an origin, once for each replay ID (R354); a suspect whose elapsed time
comes back under its bound is cleared (R403: the model holds no clock, so which these are is free). -/
def State.extend (s : State) (origin id ext : Nat) : State :=
  if s.flt.notices.contains (origin, id) then s
  else { s with
    flt := { s.flt with
      notices := s.flt.notices ++ [(origin, id)],
      extensions := SMap.set (fun _ => 0) s.flt.extensions origin (SMap.get (fun _ => 0) s.flt.extensions origin + ext),
      suspects := s.flt.suspects.filter (fun x => !Config.underBound s.free x.1 x.2) },
    free := s.free + 1 }

/-- Every slot that has opened step `n` or a later one goes back to it (R349). -/
def State.backAll (s : State) (n : Step) : State :=
  forEach s.usedSlots (fun k t => t.goBack k n) s

/-- The key of a remote die's tag: origin module and slot (R410). -/
def tagKey (module kind slot : Nat) : Nat := module * 2 ^ 8 + kind * 64 + slot

/-- Forwards REPLAY and REOPEN over the tree (R341). -/
def State.forwardNotice (s : State) (m : Msg) : State := s.treeSend (m.aux % 256) m.step m.data m.src

/-- REPLAY (R354). A notice sent again with the same replay ID starts no second replay. -/
def State.ldgReplay (s : State) (m : Msg) : State :=
  let b := m.data
  let origin := natAt b 0 2
  if origin = s.moduleId then s
  else
    let known := s.flt.notices.contains (origin, natAt b 4 4)
    let t := (s.forwardNotice m).extend origin (natAt b 4 4) (natAt b 8 4)
    let tag := natAt b 12 1
    let t := if tag = 0 then t
      else { t with net := { t.net with tags := SMap.set (fun _ => 0) t.net.tags (tagKey origin (natAt b 2 1) (natAt b 3 1)) tag } }
    if natAt b 13 1 = 2 ∧ t.jobIn ∧ !known then
      { t with ldg := { t.ldg with ownNotices := t.ldg.ownNotices ++ [(255, m.step, natAt b 4 4)] } }.backAll m.step
    else t

/-- REOPEN (R351): every retained segment of the step addressed to the slot is sent again with REPLAY set. -/
def State.ldgReopen (s : State) (m : Msg) : State :=
  let b := m.data
  let origin := natAt b 0 2
  if origin = s.moduleId then s
  else
    let t := s.forwardNotice m
    let hit (r : Retained) : Bool :=
      r.kind == 1 && decide (r.step = m.step) && natAt b 2 1 == 0
        && (match r.msg with
            | some h => h.dst == origin && aSlot h.addr == natAt b 3 1
            | none => false)
    let resend (r : Retained) (u : State) : State :=
      match r.msg with
      | none => u
      | some h =>
        let lsid := sidOf (h.xfer / 2 ^ 35 % 4) (h.xfer / 2 ^ 37 % 8)
        let die := u.slotDie lsid
        u.sendMsg die { h with data := u.ldN r.off r.len, flags := Nat.lor h.flags 2, gen := u.dieTag die }
    forEach (t.ldg.retained.filter hit) resend t

/-! ## Deferral (R356 to R362) -/

/-- Applies a decision to the object it names, when its slot has the step open (R358). -/
def State.deferObj (s : State) (d : DeferEntry) : State :=
  if !s.ldgMode ∨ d.dstModule ≠ s.moduleId then s
  else
    let k := s.msgKey ledgerDie { dst := 0, src := 0, kind := 1, addr := 2 ^ 60 + d.dstSlot % 64 * 2 ^ 52, sync := d.sync }
    let o := s.obj k
    if o.sid = 64 ∨ (s.slot o.sid).step ≠ d.step then s
    else s.setObj k { o with deferral := if d.action = 0 then 0 else 1 }

/-- Applies a decision to one PUT of an open link slot (R359). -/
def State.deferOp (s : State) (sid : Nat) (o : Op) (d : DeferEntry) : State :=
  let run := s.opRun sid o.index
  let st := (s.slot sid).step
  let t := s.sendPut sid o (zeros (putLen o)) true
  if run.phase = .idle ∨ run.phase = .waiting then
    match t.stepRec st with
    | none => t
    | some r =>
      t.setRec { r with
        deferred := r.deferred.filter (fun e => e != (sid, o.index)) ++ [(sid, o.index)],
        phase := if r.phase = .opened ∨ r.phase = .computed then .deferred else r.phase }
  else t.keepCarry sid o d

/-- Applies a decision to every PUT of the module that it names (R359). -/
def State.deferPuts (s : State) (d : DeferEntry) : State :=
  forEach [48, 49, 50, 51, 52, 53, 54, 55] (fun sid t =>
    let r := t.slot sid
    if (r.phase ≠ .opened ∧ r.phase ≠ .computed) ∨ r.step ≠ d.step then t
    else forEach ((t.ops sid false).filter (fun o => (t.deferFor o d.step).isSome)) (fun o u => u.deferOp sid o d) t) s

/-- A deferral decision takes effect at a module: once for each entry (R358, R359). -/
def State.decision (s : State) (d : DeferEntry) : State :=
  if d.action = 0 then s.deferObj d
  else if s.ldg.defers.any (fun e => e.step == d.step && e.sync == d.sync && e.dstModule == d.dstModule && e.dstSlot == d.dstSlot)
  then s.deferObj d
  else
    let t := { s with ldg := { s.ldg with defers := s.ldg.defers ++ [d] } }
    let t := t.wr 62 0x20 0x0A8 (BitVec.ofNat 64 t.ldg.defers.length)
    ((t.deferObj d).deferPuts d).progress

/-- The object of a request was deferred in each of the preceding DEFER_MAX steps (R357). -/
def State.deferredBefore (s : State) (d : DeferEntry) : Bool :=
  (List.range s.deferMax).all (fun i => s.ldg.defers.any (fun e =>
    decide (e.step = d.step - 1 - (i : Int)) && e.sync == d.sync && e.dstModule == d.dstModule && e.dstSlot == d.dstSlot))

/-- The root's answer to a DEFER_REQ (R357), sent to every module. -/
def State.rootDefer (s : State) (d : DeferEntry) : State :=
  let full := decide (16384 ≤ s.ldg.defers.length)
  let act := if full || s.deferredBefore d then 0 else s.elasticAction
  let e := { d with action := act, seq := if act = 0 then d.seq else s.ldg.defers.length }
  (forEach s.ldg.children (fun c u => u.ledgerMsg c 0x07 d.step (deferBytes e)) s).decision e

/-- DEFER_REQ (R356, R357): forwarded to the root, which answers it. -/
def State.ldgDeferReq (s : State) (m : Msg) : State :=
  if s.isRoot then s.rootDefer (deferOf m.data) else s.ledgerMsg s.sealParent 0x06 m.step m.data

/-- DEFER (R341, R359): forwarded downwards and applied. -/
def State.ldgDefer (s : State) (m : Msg) : State :=
  (forEach s.ldg.children (fun c u => u.ledgerMsg c 0x07 m.step m.data) s).decision (deferOf m.data)

/-- The reference by which a deferral entry names an object (R361). -/
def objRef (k gen : Nat) : Nat := 2 ^ 31 + objScope k * 2 ^ 27 + objCore k * 2 ^ 25 + objNum k * 2 ^ 13 + gen % 256

/-- An awaited DATA object has waited ELASTIC_WAIT with nothing received (R356). -/
def elasticExpiry (die part : Nat) (s : State) : State :=
  let k := die * 2 ^ 13 + part
  let o := s.obj k
  let r := s.slot o.sid
  if !s.ldgMode || decide (48 ≤ o.sid) || !o.data || o.p != 1 || o.phase != .armed || o.count != 0 || o.reserved != 0
      || o.deferral != 0 || !(o.registered.any (fun w => w.gen % 256 == o.gen)) then s
  else
    let d : DeferEntry := { step := r.step, gen := r.gen, sync := objRef k o.gen, dstModule := s.moduleId,
                            dstSlot := slotNum o.sid, action := 0, seq := 0 }
    let t := (s.setObj k { o with deferral := 2 }).bump 62 0x20 0xC10
    if t.isRoot then t.rootDefer d else t.ledgerMsg t.sealParent 0x06 r.step (deferBytes d)

def execElasticWaitExpiry (die obj : Nat) (s : State) : Out :=
  onUnit (decide (die < 64 ∧ obj < 2 ^ 13)) (elasticExpiry die obj s)

/-! ## Genesis and the end of a job (R346 to R348) -/

/-- JOB_ID of the active set: the header of its first image (R49). -/
def State.jobId (s : State) : Word :=
  match s.usedSlots with
  | [] => 0
  | n :: _ => s.imgWord n false 0x08

/-- The coordinate box of a slot's plan (R37, R49): base and extent. -/
def State.coordBase (s : State) (sid : Nat) : Nat := s.iw sid false 0x28
def State.coordExt (s : State) (sid : Nat) : Nat := s.iw sid false 0x30

/-- The place of the part of a tensor that starts at tile `t` in the whole tensor (R77, R367). -/
def State.partView (s : State) (sid id t : Nat) : BitVec 128 :=
  Config.tensorView s.jobId.toNat (s.coordBase sid) (s.coordExt sid) id t

/-- Raises the sending epoch; every pair starts afresh (R252). -/
def State.raiseEpoch (s : State) : State :=
  let e := if s.net.epoch = 255 then 1 else s.net.epoch + 1
  { s with net := { s.net with
    epoch := e, pairs := s.net.pairs.map (fun p => (p.1, { p.2 with sendNext := 0 })) } }

/-- The slots start with no step opened. -/
def State.clearJob (s : State) : State :=
  { s with
    slots := [],
    syn := {},
    net := { s.net with segments := [], fetches := [], tracker := [], queued := [], seen := [], held := [] },
    ctl := { s.ctl with pulls := s.ctl.pulls.filter (fun p => p.init) } }

/-- The CARRIED tensors of a slot, in tensor-table order. -/
def State.carried (s : State) (sid : Nat) : List Tensor := (s.tensors sid false).filter (fun t => t.mode == 1)

/-- The copy of a tensor that is the ping of step 0 (R191). -/
def tensorPp (t : Tensor) : Nat := if aSpace t.base = 1 then 1 else 0

/-- The digest of a slot's CARRIED tensors (R347). -/
def State.slotDigest (s : State) (sid : Nat) : List Byte :=
  digest32 ((s.carried sid).flatMap (fun t => s.readLoc (s.tileLoc (s.slotDie sid) 0 t (tensorPp t) 0) t.bytes))

/-- Orders 3 and 4 of R347. -/
def genesisHallmarks (s : State) : State :=
  if s.ldg.genesis ≠ 1 then s
  else
    let comp := s.usedSlots.filter (fun n => decide (n < 48))
    let t := forEach comp (fun sid u =>
      forEach (u.carried sid) (fun x v => forN x.tiles (fun i w => w.tileSeal (w.slotDie sid) 0 x (tensorPp x) i (-1)) v) u) s
    let d := digest32 (comp.flatMap t.slotDigest)
    let t := { t with ldg := { t.ldg with genesis := 2, genesisDigest := d } }
    match t.stepRec (-1) with
    | none => t
    | some r => (t.setRec { r with phase := .checked }).progress

def execGenesisHallmarksDone (s : State) : Out := ok (genesisHallmarks s)

/-- SEAL_TREE (R339): the children have not all reported CHECKED(-1) within 10 s. -/
def sealTreeTimeout (s : State) : State :=
  if (s.ldg.genesis = 1 ∨ s.ldg.genesis = 2) ∧ (s.reportsOf (-1)).length < s.sealChildren then
    ({ s with ldg := { s.ldg with genesis := 3 } }).ldgFault 0x0203
  else s

def execSealTreeTimeout (s : State) : Out := ok (sealTreeTimeout s)

/-- END (R348). The deferral record, which is held per job (R362), is emptied with the job, and so is the mark of a narrowed
restore (R4: reports of the job); that the record is cleared at END, rather than at the next GENESIS, is a DESIGN CHOICE (log
entry 4): the control software reads it before END. -/
def endJob (p : Path) (s : State) : State :=
  if !s.jobIn || s.ldg.newestOpened != s.ldg.newestReleased then s.ctlReject p rejState
  else
    let t := s.clearJob
    let t := (t.wr 62 0x20 0x070 0).wr 62 0x20 0x0A8 0
    { t with
      ldg := { t.ldg with
        job := false, recs := [], reports := [], retained := [], genesis := 0, ownNotices := [], swaps := [], defers := [] },
      ckp := { t.ckp with narrowStep := none } }

def execEndJob (p : Path) (s : State) : Out := ok (endJob p s)

/-! ## Replay of the job, and of too many shares -/

/-- REPLAY_JOB (R349, R354), for the step in LDG_STEP_SEL. -/
def replayJob (p : Path) (s : State) : State :=
  let n := wordStep (s.sel p 62 0x20 0x058)
  match s.stepRec n with
  | none => s.ctlReject p rejState
  | some r =>
    if !s.jobIn || !s.isRoot || r.phase == .sealed || r.phase == .released then s.ctlReject p rejState
    else (s.backAll n).notice 0xFF n 25 2

def execReplayJob (p : Path) (s : State) : Out := ok (replayJob p s)

/-! ## The deferral record as registers (R362, R496) -/

/-- A write of LDG_DEFER[3], which stores the assembled entry. -/
def ldgDeferStore (p : Path) (v : Word) (s : State) : State :=
  let pos := (s.sel p 62 0x20 0x080).toNat
  let d := deferOf (wordBytes [s.rd 62 0x20 0x088, s.rd 62 0x20 0x090, s.rd 62 0x20 0x098, v])
  if s.jobIn then s.ldgReject 0x0A0 rejState
  else if pos ≠ s.ldg.defers.length ∨ d.seq ≠ pos ∨ 16384 ≤ pos then s.ldgReject 0x0A0 rejRelation
  else
    let t := { s with ldg := { s.ldg with defers := s.ldg.defers ++ [d] } }
    t.wr 62 0x20 0x0A8 (BitVec.ofNat 64 t.ldg.defers.length)

def execLdgDeferWrite (p : Path) (v : Word) (s : State) : Out :=
  ok (if p = .mgmt then s.ldgReject 0x0A0 rejAccess else ldgDeferStore p v s)

/-! ## Handover (R329) -/

/-- The active ledger die has failed: the standby takes over, or LEDGER_LOST. -/
def ledgerHandover (s : State) : State :=
  if s.ldg.standby then
    let t := { s with ldg := { s.ldg with active := 1 - s.ldg.active, standby := false } }
    (t.wr 62 0x20 0x0B0 (BitVec.ofNat 64 t.ldg.active)).ldgFault 0x0704
  else s.ldgFault 0x0705

def execLedgerHandover (s : State) : Out := ok (ledgerHandover s)

end Sys2Proof.Machine
end

