-- ==== Sys2Proof/Machine/Ckp.lean ====
section
/-!
DEFINITION. Checkpoints (R365 to R376), restores (R377 to R382), initial state (R383), spare substitution and migration
(R384, R385), and the GENESIS write, which shares their checks (R347, R348, R370).
-/

namespace Sys2Proof.Machine

/-! ## Configuration and places -/

def State.ckpF (s : State) (hi lo : Nat) : Nat := s.field 62 0x20 0x200 hi lo
def State.bayBytes (s : State) : Nat := s.ckpF 55 48 * 2 ^ 28
def State.t1Every (s : State) : Nat := s.ckpF 31 24
def State.t2Every (s : State) : Nat := s.ckpF 39 32
def State.partner (s : State) : Nat := s.field 62 0x20 0x208 15 0

/-- The spare region of a stack, and a bay's first byte, as stack offsets (R188, R370). -/
def State.spareOff (s : State) (st : Nat) : Nat := stackBytes - s.spareGib st * 2 ^ 30
def State.bayOff (s : State) (st b : Nat) : Nat := s.spareOff st + 2 ^ 28 + b * s.bayBytes
def State.bayPa (s : State) (st b : Nat) : Nat := st * stackBytes + s.bayOff st b

/-- The four bays, the service area and the pool do not fit the spare region of some stack (R370). -/
def State.baysBad (s : State) : Bool :=
  let armed (die blk : Nat) : Nat := if s.armedFor (pageKey die blk) = some 0 ∧ s.swapState die blk = 1 then 0x800 else 0
  let bay := fld (s.rd 62 0x20 (0x200 + armed 62 0x20)) 55 48
  let fresh := !s.jobIn && s.plan.shadow == .ready
  let xs := (List.range 48).map (fun n => if fresh then s.rd 60 0 (0xA00 + 8 * n) else s.xlat n)
  (xs.filter xValid).any (fun w =>
    let st := xMs w
    decide (1024 * fld (s.rd st 0x0F (0x040 + armed st 0x0F)) 28 24 < 1024 * bay + 384))

/-- The partner can be reached: some port that a link die's route to it lists is UP (R388). -/
def State.partnerUp (s : State) : Bool :=
  s.partner != 0xFFFF && (List.range 8).any (fun j => (stripePorts (s.route (48 + j) s.partner)).any s.portUp)

/-- The device identity key (R447). -/
def deviceKey : List Byte := shake256 57 (Config.idSeed ++ ascii [0x46, 0x4C, 0x50, 0x2D, 0x49, 0x44])

/-! ## GENESIS (R347, R348, R370) -/

/-- The ports of CKP_T2 that are up, in increasing number (R374). -/
def State.t2Ports (s : State) : List Nat :=
  [0, 1, 2, 3].filter (fun x => bitAt (s.rd 62 0x20 0x210) (44 + x) && !s.mem.farLost.contains x && s.field (56 + x) 0x1F 0x040 1 0 == 2)

def State.t2Keep (s : State) : Nat := s.field 62 0x20 0x210 51 48
def State.t2Base (s : State) : Nat := s.field 62 0x20 0x210 41 0

/-- Slots on the fullest port (R374). -/
def State.t2Q (s : State) : Nat := cdiv s.compSlots.length s.t2Ports.length

/-- The tier-2 sets fit the capacity of every port (R374). -/
def State.t2Fits (s : State) : Bool :=
  s.t2Ports.all (fun x => decide (s.t2Base + s.t2Keep * s.t2Q * s.bayBytes ≤ s.field (56 + x) 0x1F 0x048 41 0))

/-- The ledger of a job that begins at the genesis boundary (R347). -/
def State.openLedger (s : State) : State :=
  let r : StepRec := { step := -1, gen := s.plan.activeGen }
  { s with
    ldg := { s.ldg with
      job := true, recs := [r], reports := [], retained := [], genesis := 1, genesisDigest := [], ownNotices := [],
      base := -1, newestReleased := -2, newestSealed := -2, newestOpened := -1, swaps := [(0, s.plan.activeGen)] },
    ckp := { manifests := s.ckp.manifests } }

/-- Tier 2 is off for a job whose sets have no port or do not fit one (R370, R374). -/
def State.tier2Check (s : State) : State :=
  if s.t1Every ≠ 0 ∧ s.t2Every ≠ 0 ∧ (s.t2Ports.isEmpty ∨ !s.t2Fits) then
    (let t := { s with ckp := { s.ckp with tier2Off := true } }
     if s.t2Ports.isEmpty then t else t.raise (56 + (s.t2Ports.headD 0)) 0x0508 { typ := 0x12 })
  else s

/-- GENESIS, orders 1 and 2 of R347, or its rejection (R348, R370, R383). -/
def genesisWrite (p : Path) (s : State) : State :=
  if s.jobIn || s.field 60 0 0x380 15 15 == 1 || s.plan.shadow != .ready || !s.windowsOk (some 0) || s.ldg.initBad then s.ctlReject p rejState
  else if s.baysBad then s.ctlReject p rejRelation
  else
    let t := (s.raiseEpoch.exchangeAtGenesis).genesisPages.clearJob
    ((t.wr 62 0x20 0x070 t.jobId).openLedger).tier2Check

def execGenesis (p : Path) (s : State) : Out := ok (genesisWrite p s)

/-! ## Ingots (R365 to R368) -/

/-- The shape word of a tensor: that of the first operand of its slot's plan that starts at its base; otherwise one column
of tiles. -/
def State.tensorShape (s : State) (sid : Nat) (t : Tensor) (sh : Bool := false) : Nat :=
  let hits := (s.ops sid sh).flatMap (fun o => o.opnds.filter (fun d => aPlain d.addr == t.base && shTiles d.shape == t.tiles))
  match hits with
  | d :: _ => d.shape
  | [] => 32 * t.tiles * 2 ^ 40 + 32 * 2 ^ 16 + 2 ^ 10 + t.fmt

/-- A tensor as an ingot holds it. -/
structure DirEntry where
  id : Nat
  fmt : Nat
  liveFmt : Nat
  frozen : Bool
  shape : Nat
  rowLo : Nat
  colLo : Nat
  totRows : Nat
  totCols : Nat
  off : Nat
  /-- BYTES: of tiles and hallmarks for STATE, the stored size for FROZEN. -/
  size : Nat
  bytes : List Byte
  deriving DecidableEq, Repr

def DirEntry.encode (d : DirEntry) : List Byte :=
  leBytes 4 d.id ++ leBytes 1 d.fmt ++ leBytes 1 d.liveFmt ++ leBytes 1 (if d.frozen then 1 else 0)
    ++ leBytes 1 (shBatch d.shape) ++ leBytes 4 d.rowLo ++ leBytes 4 d.colLo ++ leBytes 4 (shRows d.shape)
    ++ leBytes 4 (shCols d.shape) ++ leBytes 4 d.totRows ++ leBytes 4 d.totCols ++ leBytes 8 d.off
    ++ leBytes 8 d.size ++ zeros 16

/-- A valid CKP_NARROW entry for a tensor: its target format and block axis (R376). -/
def State.narrowOf (s : State) (id : Nat) : Option (Nat × Nat) :=
  ((List.range 32).map (fun i => s.rd 62 0x20 (0x300 + 8 * i))).find? (fun w => bitAt w 63 && fld w 31 0 == id)
    |>.map (fun w => (fld w 39 36, fld w 32 32))

/-- Whether every value of the first format is exactly representable in the second (R61, R64, R376). -/
def fmtWithin (a b : Nat) : Bool :=
  match fmtSpec a, fmtSpec b with
  | some x, some y =>
    a == b || (!fmtIsMx b && decide (x.fBits ≤ y.fBits) &&
      (if fmtIsMx a then decide (11 ≤ y.eBits) || decide (x.bias + 127 ≤ y.bias) else decide (x.eBits ≤ y.eBits)
        && decide (x.qMin ≥ y.qMin)))
  | _, _ => a == b

/-- A tensor's tiles rewritten in another format (R376: RND 0, SAT 1), with hallmarks of tag step `st`. -/
def State.recode (s : State) (l : Loc) (shape id : Nat) (fmt blkax : Nat) (st : Step) : List Byte :=
  let w' := shape - shape % 16 + fmt
  let c : Cvt := { fmt := fmt, blkax := blkax, rnd := false, sat := true, seq := 0 }
  let body := (packTensor c false w' (fun b r k => fvTo64 (s.elemAt l shape b r k)) (fun _ _ _ => 0)).1
  let tb := tileBytes fmt
  body ++ (List.range (shTiles w')).flatMap (fun i => leBytes 4 (hallmark ((body.drop (i * tb)).take tb) id i st))

/-- The frozen list's entry of a tensor (R149). -/
def State.frozenDigest (s : State) (id : Nat) : List Byte :=
  match (s.frozenList false).find? (fun f => f.id == id) with
  | some f => f.digest
  | none => zeros 64

/-- The directory of a slot's ingot of step `st` in a tier, and whether a tensor is narrowed. -/
def State.dirOf (s : State) (sid : Nat) (st : Step) (tier : Nat) : List DirEntry × Bool :=
  let die := s.slotDie sid
  let narrowing := decide (tier = 2) && s.ckpF 7 6 == 2
  let add (acc : List DirEntry × Bool × Nat) (t : Tensor) : List DirEntry × Bool × Nat :=
    let (l, nar, at_) := acc
    let shape := s.tensorShape sid t
    let v := (s.partView sid t.id 0).toNat
    let live := t.fmt + shBlkax shape * 16
    let mk (off fmt : Nat) (bs : List Byte) : DirEntry :=
      { id := t.id, fmt := fmt, liveFmt := live, frozen := t.mode == 2, shape := shape, rowLo := v / 2 ^ 96,
        colLo := v / 2 ^ 64 % 2 ^ 32, totRows := v / 2 ^ 32 % 2 ^ 32, totCols := v % 2 ^ 32, off := off,
        size := if t.mode = 2 then t.bytes else bs.length, bytes := bs }
    if t.mode = 2 then (l ++ [mk at_ live (s.frozenDigest t.id)], nar, at_ + 64)
    else
      let off := (at_ + 4095) / 4096 * 4096
      let pp := if aSpace t.base = 1 then 2 else 0
      let loc := s.tileLoc die st t pp 0
      match (if narrowing then s.narrowOf t.id else none) with
      | some (f, ax) =>
        if fmtWithin f t.fmt then
          let bs := s.recode loc shape t.id f ax st
          (l ++ [mk off (f + ax * 16) bs], true, off + bs.length)
        else
          let bs := s.readLoc loc t.bytes ++ s.readLoc (s.hmLoc die st t pp 0) (4 * t.tiles)
          (l ++ [mk off live bs], nar, off + bs.length)
      | none =>
        let bs := s.readLoc loc t.bytes ++ s.readLoc (s.hmLoc die st t pp 0) (4 * t.tiles)
        (l ++ [mk off live bs], nar, off + bs.length)
  let r := ((s.tensors sid false).filter (fun t => t.mode == 1 || t.mode == 2)).foldl add ([], false, 0)
  (r.1, r.2.1)

/-- The body that a directory lays out. -/
def dirBody (l : List DirEntry) : List Byte :=
  l.foldl (fun b d => b ++ zeros (d.off - b.length) ++ d.bytes) []

/-- The coordinate with REPLICA 0 that stands for a slot's own in a deduplicated tier (R375), when it is another one. -/
def State.aliasOf (s : State) (sid tier : Nat) : Option Nat :=
  let c := s.iw sid false 0x28
  if tier = 2 ∧ s.ckpF 7 6 ≠ 0 ∧ c / 2 ^ 44 ≠ 0 then some (c % 2 ^ 44) else none

/-- An ingot (R366 to R368, R375). -/
def State.ingot (s : State) (sid : Nat) (st : Step) (tier : Nat) : List Byte :=
  let (dir, nar) := s.dirOf sid st tier
  let body := dirBody dir
  let al := s.aliasOf sid tier
  let sign := s.ckpF 5 5 == 1
  let flags := (if nar then 1 else 0) + (if sign then 2 else 0) + (if al.isSome then 4 else 0)
  let gen := match s.stepRec st with
    | some r => r.gen
    | none => s.plan.activeGen
  let h0 := ascii [0x46, 0x4C, 0x50, 0x49] ++ leBytes 2 1 ++ leBytes 1 tier ++ leBytes 1 flags ++ leBytes 8 s.jobId.toNat
    ++ leBytes 8 (stepWord st).toNat ++ leBytes 4 gen ++ leBytes 2 s.moduleId ++ leBytes 1 sid ++ zeros 1
    ++ leBytes 8 (s.iw sid false 0x28) ++ leBytes 8 (s.iw sid false 0x30) ++ leBytes 4 dir.length ++ zeros 4
    ++ leBytes 8 body.length
  let h1 := leBytes 8 (al.getD 0) ++ zeros 120
  let d := dir.flatMap DirEntry.encode
  let digest := digest64 (h0 ++ h1 ++ d ++ body)
  h0 ++ digest ++ h1 ++ d ++ (if al.isSome then [] else body)
    ++ (if sign then edSign deviceKey [] digest ++ zeros 14 else [])

/-- The stored length of an ingot whose header and directory start a byte string (R366, R368). -/
def ingotLen (h : List Byte) : Nat :=
  0x100 + 64 * natAt h 0x30 4 + (if natAt h 7 1 / 4 % 2 = 1 then 0 else natAt h 0x38 8) + (if natAt h 7 1 / 2 % 2 = 1 then 128 else 0)

def ingotDigest (h : List Byte) : List Byte := bytesAt h 0x40 64

/-- The DIGEST of an ingot agrees with its header, directory and body; the body of an ALIAS ingot is the one it stands for
(R366, R375). -/
def ingotGood (b : List Byte) : Bool :=
  let n := 0x100 + 64 * natAt b 0x30 4 + natAt b 0x38 8
  natAt b 0 4 == leNat (ascii [0x46, 0x4C, 0x50, 0x49])
    && digest64 (bytesAt b 0 64 ++ bytesAt b 0x80 (n - 0x80)) == ingotDigest b

/-- The ingot is an ALIAS: it has no body of its own (R375). -/
def ingotAlias (b : List Byte) : Bool := natAt b 7 1 / 4 % 2 == 1

/-- The STATE entries of an ingot: directory offset by index. -/
def ingotDir (b : List Byte) : List (List Byte) := (List.range (natAt b 0x30 4)).map (fun i => bytesAt b (0x100 + 64 * i) 64)

/-- The tiles of every STATE entry agree with the hallmarks stored behind them, whose tag step is the ingot's (R365, R379). -/
def ingotHallmarks (b : List Byte) : Bool :=
  let body := 0x100 + 64 * natAt b 0x30 4
  let st := wordStep (wordAt b 2)
  ((ingotDir b).filter (fun e => natAt e 6 1 == 0)).all (fun e =>
    let tb := tileBytes (natAt e 4 1 % 16)
    let n := natAt e 0x28 8 / (tb + 4)
    let off := body + natAt e 0x20 8
    (List.range n).all (fun i =>
      natAt b (off + n * tb + 4 * i) 4 == hallmark (bytesAt b (off + i * tb) tb) (natAt e 0 4) i st))

/-- The trailer of an ingot that this module wrote and signed verifies; any other's is kept for audit only (R368). -/
def State.ingotSigned (s : State) (b : List Byte) : Bool :=
  let n := 0x100 + 64 * natAt b 0x30 4 + (if ingotAlias b then 0 else natAt b 0x38 8)
  natAt b 7 1 / 2 % 2 == 0 || natAt b 0x1C 2 != s.moduleId
    || edVerify (edPublic deviceKey) [] (ingotDigest b) (bytesAt b n 114)

/-- Places one STATE entry into the pong of M, widened again when it was narrowed (R376, R380). -/
def State.placeEntry (s : State) (sid : Nat) (st : Step) (copy : Nat) (b e : List Byte) (sh : Bool := false) : State :=
  match (s.tensors sid sh).find? (fun t => t.id == natAt e 0 4 && t.mode == 1) with
  | none => s
  | some t =>
    let die := s.slotDie sid
    let body := 0x100 + 64 * natAt b 0x30 4
    let n := natAt e 0x28 8
    let bs := bytesAt b (body + natAt e 0x20 8) n
    let pp := if aSpace t.base = 1 then copy else 0
    if natAt e 4 1 = natAt e 5 1 then
      (s.writeLoc (s.tileLoc die st t pp 0) (bs.take t.bytes)).writeLoc (s.hmLoc die st t pp 0) (bytesAt bs t.bytes (4 * t.tiles))
    else
      let f := natAt e 4 1 % 16
      let shape := s.tensorShape sid t sh
      let w' := shape - shape % 16 + f
      let ax := natAt e 4 1 / 16 % 2
      let get (bb r k : Nat) : Word :=
        let i := tileIndex w' bb r k
        let x := tileElem f ax (bytesAt bs (i * tileBytes f) (tileBytes f)) r k
        fvTo64 (decodeElem f x.1 x.2)
      let c : Cvt := { fmt := t.fmt, blkax := shBlkax shape, rnd := false, sat := true, seq := 0 }
      let out := (packTensor c true shape get (fun _ _ _ => 0)).1
      let u := s.writeLoc (s.tileLoc die st t pp 0) out
      forN t.tiles (fun i v => v.tileSeal die st t pp i st) u

/-! ## Manifests (R369) -/

/-- A manifest of a tier and step over (slot, address, ingot digest). -/
def State.manifest (s : State) (tier : Nat) (st : Step) (l : List (Nat × Nat × List Byte)) : List Byte :=
  let gen := match s.stepRec st with
    | some r => r.gen
    | none => s.plan.activeGen
  let nmod := s.subtreeCount st
  let h := ascii [0x46, 0x4C, 0x50, 0x4D] ++ leBytes 2 1 ++ leBytes 1 tier ++ leBytes 1 l.length ++ leBytes 8 s.jobId.toNat
    ++ leBytes 8 (stepWord st).toNat ++ leBytes 4 gen ++ leBytes 2 s.moduleId ++ zeros 2 ++ leBytes 4 nmod ++ zeros 28
  let es := l.flatMap (fun e => leBytes 8 (s.iw e.1 false 0x28) ++ leBytes 8 (s.iw e.1 false 0x30) ++ leBytes 8 e.2.1
    ++ bytesAt e.2.2 0 64 ++ zeros 8)
  h ++ digest64 (h ++ es) ++ es

def manifestGood (m : List Byte) : Bool :=
  let n := natAt m 7 1
  natAt m 0 4 == leNat (ascii [0x46, 0x4C, 0x50, 0x4D])
    && digest64 (bytesAt m 0 64 ++ bytesAt m 0x80 (96 * n)) == bytesAt m 0x40 64
def manifestStep (m : List Byte) : Step := wordStep (wordAt m 2)
def manifestEntry (m : List Byte) (i : Nat) : List Byte := bytesAt m (0x80 + 96 * i) 96

/-- A logical SLOT address of a stack offset. -/
def slotAddr (sid off : Nat) : Nat := 2 ^ 60 + sid * 2 ^ 52 + off

/-- A set has completed in a tier (R369): the manifest is kept and INGOT_SET sent. -/
def State.setComplete (s : State) (tier : Nat) (st : Step) (m : List Byte) : State :=
  let t := { s with ckp := { s.ckp with
    manifests := s.ckp.manifests.filter (fun (e : Nat × Step × List Byte) => !(e.1 == tier && decide (e.2.1 = st))) ++ [(tier, st, m)] } }
  ((t.wr 62 0x20 (0x228 + 8 * tier) (stepWord st)).bump 62 0x20 (0xD00 + 8 * tier)).event 0x0012 tier (stepWord st) 0

/-! ## Tinning (R373) and the far tier (R374) -/

/-- XFER_ID of a tinning transfer: ingot of a slot, or 0x40 for the manifest. -/
def tinId (n : Nat) : Nat := (0xFFFF00 + n) * 2 ^ 40 + 2 ^ 35

/-- The segments of one tinning transfer. -/
def State.tinMsgs (s : State) (dst n off : Nat) (sid : Nat) (st : Step) (bs : List Byte) : List Msg :=
  (List.range (cdiv bs.length 65536)).map (fun i =>
    let d := (bs.drop (i * 65536)).take 65536
    { dst := dst, src := s.moduleId, kind := 1, gen := s.dieTag 48, step := st, xfer := tinId n, seg := i, len := d.length,
      addr := slotAddr sid (off + i * 65536), data := d, vc := 4 })

/-- The first tier-1 set of a job: the module and its partner meet, and a mismatch keeps tier 1 off with a FAULT event. R398
lists no code for it: the record has code 0x0000, class DEFERRED (DESIGN CHOICE, log entry 23). -/
def State.meetPartner (s : State) : State :=
  if s.ckp.met then s
  else
    let t := { s with ckp := { s.ckp with met := true }, free := s.free + 1 }
    if Config.partnerAgrees s.free then t
    else { t with ckp := { t.ckp with tier1Off := true } }.raiseAs t.slDie 0x0000 2 { typ := 0x20, inst := t.ldg.active }

/-- The partner's mirror bay that does not hold the newest complete mirror (R373). -/
def State.nextMirror (s : State) : Nat := if s.ckp.mirrorBay = 2 then 3 else 2

/-- Sends a tier-1 set: every slot's ingot as its tier-0 bay holds it, then the manifest (R373). -/
def State.sendMirror (s : State) (st : Step) : State :=
    let b := s.nextMirror
    let src (n : Nat) : List Byte :=
      let k := if (s.bay (s.slotStack n) 0).step = st ∧ (s.bay (s.slotStack n) 0).st = 2 then 0 else 1
      let pa := s.bayPa (s.slotStack n) k + 2 ^ 20
      s.ldN pa (ingotLen (s.ldN pa 256))
    let l := s.compSlots.map (fun n => (n, slotAddr n (s.bayOff (s.slotStack n) b + 2 ^ 20), ingotDigest (src n)))
    let man := s.manifest 1 st l
    let first := s.compSlots.headD 0
    let msgs := s.compSlots.flatMap (fun n => s.tinMsgs s.partner n (s.bayOff (s.slotStack n) b + 2 ^ 20) n st (src n))
      ++ s.tinMsgs s.partner 0x40 (s.bayOff (s.slotStack first) b) first st man
    let t := { s with ckp := { s.ckp with mirror := some (st, man) } }
    let t := forEach s.compSlots (fun n u =>
      let x := u.slotStack n
      let k := if (u.bay x 0).step = st ∧ (u.bay x 0).st = 2 then 0 else 1
      u.setBay x k { u.bay x k with busy := true }) t
    forEach msgs (fun m u =>
      ({ u with net := { u.net with segments := u.net.segments ++ [({ msg := m, sid := 63, op := m.seg, tag := u.dieTag 48 } : Segment)] } }).sendMsg 48 m) t

/-- Begins a tier-1 set, or skips it while another is still in progress (R373). -/
def State.startMirror (s : State) (st : Step) : State :=
  if s.t1Every = 0 ∨ s.partner = 0xFFFF ∨ s.ckp.tier1Off then s
  else if s.ckp.mirror.isSome then s.bump 62 0x20 0xD18
  else
    let t := s.meetPartner
    if t.ckp.tier1Off then t else t.sendMirror st

/-- The end of a tinning session: with its manifest answered DONE the set is complete in tier 1, and the pin moves;
a refused set is not complete, and its bays stay free (R373). -/
def State.endMirror (s : State) (good : Bool) : State :=
  match s.ckp.mirror with
  | none => s
  | some (st, man) =>
    let free (pin : Bool) (u : State) : State := forEach u.compSlots (fun n v =>
      forEach [0, 1] (fun k w =>
        let x := w.bay (w.slotStack n) k
        w.setBay (w.slotStack n) k { x with
          busy := if x.step = st then false else x.busy, pinned := if pin then decide (x.step = st) else x.pinned }) v) u
    let t := { s with ckp := { s.ckp with mirror := none } }
    if good then ({ free true t with ckp := { (free true t).ckp with mirrorBay := t.nextMirror } }).setComplete 1 st man
    else free false t

/-- The far-tier place of a slot's ingot at a ring position: port and offset (R374). -/
def State.t2Place (s : State) (i k : Nat) : Nat × Nat :=
  let ps := s.t2Ports
  let m := Nat.max 1 ps.length
  (ps.getD (i % m) 0, s.t2Base + (k * s.t2Q + i / m) * s.bayBytes)

/-- The slot's ingot of a step in its tier-0 bay. -/
def State.bayIngot (s : State) (sid : Nat) (st : Step) : Nat :=
  let x := s.slotStack sid
  s.bayPa x (if (s.bay x 0).step = st ∧ (s.bay x 0).st = 2 then 0 else 1) + 2 ^ 20

/-- The slot's persistent state as its tier-0 bay holds it: higher tiers read the bay, never the live region (R372). -/
def State.bayView (s : State) (sid : Nat) (st : Step) : State :=
  let pa := s.bayIngot sid st
  let b := s.ldN pa (ingotLen (s.ldN pa 256))
  forEach ((ingotDir b).filter (fun e => natAt e 6 1 == 0)) (fun e w => w.placeEntry sid st 2 b e) s

/-- Writes a tier-2 set at the next ring position (R374 to R376); poison is carried (R204). -/
def State.writeTier2 (s : State) (st : Step) : State :=
  if s.t1Every = 0 ∨ s.t2Every = 0 ∨ s.ckp.tier2Off ∨ s.t2Ports.isEmpty ∨ !s.t2Fits then s
  else
    let k := s.ckp.ring % Nat.max 1 s.t2Keep
    let place (n : Nat) : Nat × Nat := s.t2Place (s.compSlots.idxOf n) k
    let t := forEach s.compSlots (fun n u =>
      let (p, o) := place n
      let pa := u.bayIngot n st
      (u.writeLoc (.far p (o + 2 ^ 20)) ((u.bayView n st).ingot n st 2)).carryPoison (.far p (o + 2 ^ 20))
        (u.poisonOffs (.near pa) (ingotLen (u.ldN pa 256)))) s
    let l := s.compSlots.map (fun n =>
      let (p, o) := place n
      (n, 3 * 2 ^ 60 + p * 2 ^ 42 + o + 2 ^ 20, ingotDigest (t.readLoc (.far p (o + 2 ^ 20)) 256)))
    let man := s.manifest 2 st l
    let t := forEach s.compSlots (fun n u => let (p, o) := place n; u.writeLoc (.far p o) man) t
    ({ t with ckp := { t.ckp with ring := t.ckp.ring + 1 } }).setComplete 2 st man

/-! ## Tier 0 (R370 to R372) -/

/-- First byte of a block, as a module physical address. -/
def blockPa (k : Nat) : Nat := k / 2 ^ 15 * stackBytes + k % 2 ^ 15 * pageBytes

/-- Bytes moved by background activity of a stack (R218). -/
def State.bgBytes (s : State) (stack n : Nat) : State := s.bump stack 0x0E 0xC20 n

/-- The copy engine copies a block of the protected generation ahead of its order; the writes that waited for it proceed
(R372). -/
def State.copyBlock (s : State) (k : Nat) : State :=
  let b := s.served (blockPa k)
  let g := (k, (SMap.slice s.mem.stack b (b + pageBytes)).map (fun e => (e.1 - b, e.2)),
    (s.mem.poison.filter (fun g => decide (b ≤ 256 * g) && decide (256 * g < b + pageBytes))).map (fun g => 256 * g - b))
  let t := { s with ckp := { s.ckp with
    copied := SMap.set (fun _ => 0) s.ckp.copied k 1, guards := s.ckp.guards ++ [g], guardDue := NSet.del s.ckp.guardDue k } }
  ((t.bump 62 0x20 0xD20).bgBytes (k / 2 ^ 15) pageBytes).landHeld

/-- The memory as the tier-0 copy reads it: the blocks copied ahead as they were then. -/
def State.asProtected (s : State) : State :=
  forEach s.ckp.guards (fun g t =>
    let b := t.served (blockPa g.1)
    let po := t.mem.poison.filter (fun x => !(decide (b ≤ 256 * x) && decide (256 * x < b + pageBytes)))
    { t with mem := { t.mem with
      stack := moveBytes (SMap.clear t.mem.stack b (b + pageBytes)) g.2.1 0 b,
      poison := g.2.2.foldl (fun m d => NSet.add m ((b + d) / 256)) po } }) s

/-- The granules of an ingot of `n` directory entries, written at a location, take the poison of the tensors they came from
(R204). -/
def State.ingotPoison (s view : State) (sid : Nat) (st : Step) (l : Loc) : State :=
  let die := view.slotDie sid
  let dir := (view.dirOf sid st 0).1
  forEach (dir.filter (fun d => !d.frozen)) (fun d u =>
    match (view.tensors sid false).find? (fun t => t.id == d.id) with
    | none => u
    | some t =>
      u.carryPoison (l.add (0x100 + 64 * dir.length + d.off))
        (view.poisonOffs (view.tileLoc die st t (if aSpace t.base = 1 then 2 else 0) 0) t.bytes)) s

/-- A slot's ingot of step `st` is laid in bay `b` of its stack: its DIGEST is computed from the bay and every tile's hallmark
is checked, and a copy that fails is marked (R368, R370). -/
def State.sealCopy (s : State) (sid : Nat) (st : Step) (b : Nat) : State :=
  let x := s.slotStack sid
  let v := s.asProtected
  let die := s.slotDie sid
  let pp (t : Tensor) : Nat := if aSpace t.base = 1 then 2 else 0
  let bad := (s.carried sid).any (fun t => (List.range t.tiles).any (fun i =>
    v.poisonLoc (v.tileLoc die st t (pp t) i) (tileBytes t.fmt) || v.poisonLoc (v.hmLoc die st t (pp t) i) 4
      || !v.tileOk die st t (pp t) i st))
  let bs := v.ingot sid st 0
  let pa := s.bayPa x b + 2 ^ 20
  let t := ((s.stN pa bs).ingotPoison v sid st (.near pa)).bgBytes x bs.length
  let t := t.setBay x b { t.bay x b with st := if bad then 3 else 2 }
  let t := if bad then t.raiseAs die 0x0411 2 { typ := 0x07, inst := x } else t
  ({ t with ckp := { t.ckp with copiedSlots := NSet.add t.ckp.copiedSlots sid } }).landHeld

/-- The protected generation is released: the copy has run its course (R372). -/
def State.endProtect (s : State) : State :=
  { s with ckp := { s.ckp with protectedStep := none, copied := [], guards := [], guardDue := [] } }

/-- The bay of a slot's stack that holds its copy of step `st`. -/
def State.copyBay (s : State) (st : Step) (n : Nat) : Nat :=
  let y := s.bay (s.slotStack n) 0
  if y.step = st ∧ y.st = 2 then 0 else 1

/-- Every slot's tier-0 copy stands: the manifest completes the set, and the tiers above it that are due follow (R369). -/
def State.completeSet (s : State) (st : Step) : State :=
  let l := s.compSlots.map (fun n =>
    let o := s.bayOff (s.slotStack n) (s.copyBay st n) + 2 ^ 20
    (n, slotAddr n o, ingotDigest (s.ldN (s.slotStack n * stackBytes + o) 256)))
  let man := s.manifest 0 st l
  let t := forEach s.compSlots (fun n u => u.stN (u.bayPa (u.slotStack n) (s.copyBay st n)) man) s
  let t := t.endProtect.setComplete 0 st man
  let i1 : Nat := t.ckpF 23 16 * t.t1Every
  let t := if i1 ≠ 0 ∧ st % (i1 : Int) = 0 then t.startMirror st else t
  let i2 : Nat := i1 * t.t2Every
  if i2 ≠ 0 ∧ st % (i2 : Int) = 0 then t.writeTier2 st else t

/-- A copy of step `st` failed its check in some slot. -/
def State.copyFailed (s : State) (st : Step) : Bool :=
  s.compSlots.any (fun n => [0, 1].any (fun k => let y := s.bay (s.slotStack n) k; y.st == 3 && decide (y.step = st)))

/-- A slot's tier-0 copy is finished; the last slot's completes the set, but with a copy that failed the set is not complete
(R370). -/
def tier0Done (sid : Nat) (s : State) : State :=
  match s.ckp.protectedStep with
  | none => s
  | some st =>
    if !s.compSlots.contains sid || s.ckp.copiedSlots.contains sid || s.mem.copying.any (fun k => k / 2 ^ 15 == s.slotStack sid) then s
    else
      match [0, 1].find? (fun b => let y := s.bay (s.slotStack sid) b; y.st == 1 && decide (y.step = st)) with
      | none => s
      | some b =>
        let t := s.sealCopy sid st b
        if !t.compSlots.all (fun n => t.ckp.copiedSlots.contains n) then t
        else if t.copyFailed st then t.endProtect
        else t.completeSet st

def execTier0CopyDone (sid : Nat) (s : State) : Out := onUnit (decide (sid < 60)) (tier0Done sid s)

/-- GUARD_COPY (R372): a block of the protected generation that a PERSIST write meets is copied first; while its page is being
substituted the guard copy waits (R215). -/
def guardCopy (stack block : Nat) (s : State) : State :=
  let k := stack * 2 ^ 15 + block
  if s.ckp.protectedStep.isNone ∨ SMap.get (fun _ => 0) s.ckp.copied k = 1 then s
  else if s.mem.copying.contains k then { s with ckp := { s.ckp with guardDue := NSet.add s.ckp.guardDue k } }
  else s.copyBlock k

def execGuardCopy (stack block : Nat) (s : State) : Out := onUnit (decide (stack < 48 ∧ block < 24576)) (guardCopy stack block s)

/-! ## Restores (R377 to R382) -/

/-- A found copy of an ingot. -/
structure Found where
  tier : Nat
  loc : Loc
  deriving DecidableEq, Repr

/-- Header of the ingot at a location, when there is one. -/
def State.ingotAt (s : State) (l : Loc) : Option (List Byte) :=
  let h := s.readLoc l 256
  if natAt h 0 4 = leNat (ascii [0x46, 0x4C, 0x50, 0x49]) then some h else none

/-- Every place of the module that may hold an ingot: tier-0 bays, mirror bays, far-tier ring positions. A stack that cannot
be reached supplies none (R13). -/
def State.ingotPlaces (s : State) : List Found :=
  ((List.range 48).flatMap (fun st => [0, 1].filterMap (fun b =>
      if (s.bay st b).st = 3 || !s.stackReach st then none else some ⟨(s.bay st b).tier, .near (s.bayPa st b + 2 ^ 20)⟩)))
    ++ (List.range s.t2Keep).flatMap (fun k => (List.range s.compSlots.length).map (fun i =>
      let (p, o) := s.t2Place i k; ⟨2, .far p (o + 2 ^ 20)⟩))

/-- The source module whose sets are restored; none with CKP_SRC.NONE (R377). -/
def State.ckpSrc (s : State) : Option Nat :=
  let w := s.rd 62 0x20 0x218
  if bitAt w 16 then none else some (if fld w 15 0 = 0xFFFF then s.moduleId else fld w 15 0)

/-- A header agrees with a manifest entry in JOB_ID, STEP, GEN and coordinates (R377). -/
def headerMatches (man e h : List Byte) : Bool :=
  bytesAt h 8 8 == bytesAt man 8 8 && bytesAt h 0x10 8 == bytesAt man 0x10 8 && bytesAt h 0x18 4 == bytesAt man 0x18 4
    && bytesAt h 0x20 16 == bytesAt e 0 16

/-- The copies of a manifest entry's ingot in the module, lowest tier first; a poisoned copy is none. -/
def State.copiesOf (s : State) (man e : List Byte) : List Found :=
  s.ingotPlaces.filter (fun f => match s.ingotAt f.loc with
    | some h => headerMatches man e h && !s.poisonLoc f.loc (ingotLen h)
    | none => false)

/-- The whole ingot at a location. -/
def State.ingotBytesAt (s : State) (l : Loc) : List Byte := s.readLoc l (ingotLen (s.readLoc l 256))

/-- The body that stands for an ALIAS ingot's own: that of the ingot of ALIAS_OF of the same job and step (R375). -/
def State.aliasBody (s : State) (b : List Byte) : Option (List Byte) :=
  s.ingotPlaces.findSome? (fun f => match s.ingotAt f.loc with
    | none => none
    | some h =>
      if !ingotAlias h && natAt h 0x20 8 == natAt b 0x80 8 && bytesAt h 8 16 == bytesAt b 8 16 then
        some (bytesAt (s.ingotBytesAt f.loc) (0x100 + 64 * natAt h 0x30 4) (natAt h 0x38 8))
      else none)

/-- An ingot with the body that a restore places: an ALIAS ingot has that of ALIAS_OF; none when that is missing (R375). -/
def State.wholeIngot (s : State) (b : List Byte) : Option (List Byte) :=
  if ingotAlias b then (s.aliasBody b).map (fun body => bytesAt b 0 (0x100 + 64 * natAt b 0x30 4) ++ body) else some b

/-- The manifests the module finds for its source: in its tier-0 bays, its far tier and its ledger (R377). -/
def State.foundManifests (s : State) : List (List Byte) :=
  match s.ckpSrc with
  | none => []
  | some src =>
    let near := ((List.range 48).filter s.stackReach).flatMap (fun st => [0, 1].map (fun b => s.ldN (s.bayPa st b) (0x80 + 96 * natAt (s.ldN (s.bayPa st b) 8) 7 1)))
    let far := (List.range s.t2Keep).flatMap (fun k => (List.range s.compSlots.length).map (fun i =>
      let (p, o) := s.t2Place i k
      s.readLoc (.far p o) (0x80 + 96 * natAt (s.readLoc (.far p o) 8) 7 1)))
    ((near ++ far ++ s.ckp.manifests.map (fun m => m.2.2)).filter (fun m => manifestGood m && natAt m 0x1C 2 == src)).eraseDups

/-- A candidate step (R378). -/
structure Cand where
  step : Step
  nmod : Nat
  sources : Nat
  reason : Nat
  narrow : Bool
  deriving DecidableEq, Repr

/-- A tier-1 copy is held by the partner: its manifest is known, the headers read there agree with it, and the partner's bays
can be read (R373, R377, R388). -/
def State.tier1Held (s : State) (st : Step) : Bool :=
  s.partner != 0xFFFF && !s.ckp.partnerLost && !s.ckp.mirrorBad.contains st && s.ckp.manifests.any (fun m => m.1 == 1 && decide (m.2.1 = st))

/-- What the module's own sets make of a manifest: complete, or the lowest refusal code (R377, R379). -/
def State.judgeManifest (s : State) (m : List Byte) : Cand :=
  let st := manifestStep m
  let es := (List.range (natAt m 7 1)).map (manifestEntry m)
  let near (e : List Byte) : Bool := (s.copiesOf m e).any (fun f => f.tier == 0)
  let have_ (e : List Byte) : Bool := !(s.copiesOf m e).isEmpty || s.tier1Held st
  let narrow := es.any (fun e => !near e && !s.tier1Held st && (s.copiesOf m e).all (fun f =>
    natAt (s.readLoc f.loc 8) 7 1 % 2 == 1))
  let missing := es.any (fun e => !have_ e)
  let other (e : List Byte) : Bool := s.ingotPlaces.any (fun f => match s.ingotAt f.loc with
    | some h => bytesAt h 0x10 8 == bytesAt m 0x10 8 && bytesAt h 0x20 16 == bytesAt e 0 16
    | none => false)
  let split := missing && (s.ckp.mirrorBad.contains st || es.all (fun e => have_ e || other e))
  let job := wordAt m 1 != s.jobId
  let reason := if missing then (if split then 0x03 else 0x01) else if job then 0x04 else if narrow && s.ckpF 4 4 == 0 then 0x06 else 0
  { step := st, nmod := natAt m 0x20 4, sources := if missing || job then 0 else 1, reason := reason, narrow := narrow }

/-- A candidate whose placement failed in this restore is no source any more, for the reason it failed (R379, R380). -/
def State.excludeCand (s : State) (c : Cand) : Cand :=
  match s.ckp.excluded.find? (fun e => decide (e.1 = c.step)) with
  | some e => { c with sources := 0, reason := if c.reason = 0 ∨ e.2 < c.reason then e.2 else c.reason }
  | none => c

/-- The module's own candidates, newest first, one for each step. -/
def State.ownCands (s : State) : List Cand :=
  let l := s.foundManifests.map (fun m => s.excludeCand (s.judgeManifest m))
  let steps := (l.map (fun c => c.step)).eraseDups
  let best (st : Step) : Option Cand :=
    match l.find? (fun c => decide (c.step = st) && c.sources == 1) with
    | some c => some c
    | none => l.find? (fun c => decide (c.step = st))
  sortBy (fun a b => decide (b.step ≤ a.step)) (steps.filterMap best)

/-- Joins candidates of one step over a subtree (R378, R379). -/
def joinCands (l : List Cand) : List Cand :=
  let steps := (l.map (fun c => c.step)).eraseDups
  let one (st : Step) : Cand :=
    let cs := l.filter (fun c => decide (c.step = st))
    let nm := (cs.headD ⟨st, 0, 0, 0, false⟩).nmod
    let split := cs.any (fun c => c.nmod != nm)
    let rs := (cs.map (fun c => c.reason)).filter (· != 0) ++ (if split then [5] else [])
    { step := st, nmod := nm, sources := cs.foldl (fun a c => a + c.sources) 0,
      reason := rs.foldl (fun a r => if a = 0 ∨ r < a then r else a) 0, narrow := cs.any (fun c => c.narrow) }
  (sortBy (fun a b => decide (b.step ≤ a.step)) (steps.map one)).take 16

def Cand.bytes (c : Cand) : List Byte :=
  leBytes 8 (stepWord c.step).toNat ++ leBytes 4 c.nmod ++ leBytes 2 c.sources ++ leBytes 1 c.reason
    ++ leBytes 1 (if c.narrow then 1 else 0)
def candOf (b : List Byte) : Cand :=
  { step := wordStep (wordAt b 0), nmod := natAt b 8 4, sources := natAt b 12 2, reason := natAt b 14 1,
    narrow := natAt b 15 1 % 2 == 1 }

/-- The subtree's candidates. -/
def State.treeCands (s : State) : List Cand :=
  joinCands (s.ownCands ++ s.ckp.inventories.flatMap (fun i =>
    i.cand.map (fun c => ⟨c.1, c.2.1, c.2.2.1, c.2.2.2.1, c.2.2.2.2 == 1⟩)))

/-- Whether an ingot covers a slot's coordinates. -/
def State.isIngotOf (s : State) (sid : Nat) (h : List Byte) : Bool :=
  natAt h 0x20 8 == s.iw sid false 0x28 && natAt h 0x28 8 == s.iw sid false 0x30

/-- The verified copy of a slot's ingot of a step in the lowest tier: its DIGEST, its hallmarks and the module's own signature
hold, and no granule of it is poisoned (R379, R380). -/
def State.bestCopy (s : State) (sid : Nat) (st : Step) : Option (Found × List Byte) :=
  let good (f : Found) : Option (Found × List Byte) :=
    match s.ingotAt f.loc with
    | none => none
    | some h =>
      let raw := s.ingotBytesAt f.loc
      match s.wholeIngot raw with
      | none => none
      | some b =>
        if wordStep (wordAt h 2) = st ∧ wordAt h 1 = s.jobId ∧ s.isIngotOf sid h ∧ !s.poisonLoc f.loc (ingotLen h)
            ∧ ingotGood b ∧ ingotHallmarks b ∧ s.ingotSigned raw then some (f, b) else none
  s.ingotPlaces.findSome? good

/-- Why no copy of a slot's ingot of a step serves (R379): an ALIAS whose body does not match, or no copy that verifies. -/
def State.copyReason (s : State) (sid : Nat) (st : Step) : Nat :=
  let mine := s.ingotPlaces.filterMap (fun f => (s.ingotAt f.loc).filter (fun h => decide (wordStep (wordAt h 2) = st) && s.isIngotOf sid h))
  if !mine.isEmpty && mine.all ingotAlias then 7 else 2

/-- A slot of the plan whose coordinates some ingot of the step names (the same machine shape). -/
def State.sameShape (s : State) (sid : Nat) (st : Step) : Bool :=
  s.foundManifests.any (fun m => decide (manifestStep m = st)
    && (List.range (natAt m 7 1)).any (fun i => bytesAt (manifestEntry m i) 0 16 == leBytes 8 (s.iw sid false 0x28) ++ leBytes 8 (s.iw sid false 0x30)))

/-- Fetches a slot's tier-1 ingot from the partner's mirror bay into a tier-0 bay (R377, R380): the manifest gives its
address there. -/
def State.fetchMirror (s : State) (sid : Nat) (st : Step) (addr : Nat) : State :=
  let x := s.slotStack sid
  let b := if (s.bay x 0).pinned then 1 else 0
  let n := (s.ingot sid st 1).length
  let go (i : Nat) (t : State) : State :=
    let reply := slotAddr sid (t.bayOff x b + 2 ^ 20 + i * 65536)
    let m : Msg := { dst := t.partner, src := t.moduleId, kind := 2, gen := t.dieTag 48, step := st, xfer := tinId sid, seg := i,
                     len := 8, addr := addr + i * 65536, aux := Nat.min 65536 (n - i * 65536), data := leBytes 8 reply }
    t.sendMsg 48 m
  forN (cdiv n 65536) go (s.setBay x b ⟨1, st, 2, (s.bay x b).pinned, false⟩)

/-- RESTORE_PICK takes effect (R380): it is passed on, and the ingots that no tier of the module supplies are fetched from
the partner. -/
def State.picked (s : State) (st : Step) : State :=
  let t := forEach s.ldg.children (fun c u => u.ledgerMsg c 0x09 st []) s
  let t := { t with ckp := { t.ckp with restoring := 2, pick := st } }
  match t.ckp.manifests.find? (fun m => m.1 == 1 && decide (m.2.1 = st)) with
  | none => t
  | some (_, _, man) =>
    forEach (t.compSlots.filter (fun n => t.sameShape n st && (t.bestCopy n st).isNone)) (fun n u =>
      match ((List.range (natAt man 7 1)).map (manifestEntry man)).find? (fun e => bytesAt e 0 16
          == leBytes 8 (u.iw n false 0x28) ++ leBytes 8 (u.iw n false 0x30)) with
      | some e => u.fetchMirror n st (natAt e 0x10 8)
      | none => u) t

/-- Slots hold: rung 7 without a record (R378, R386). -/
def State.unrecoverable (s : State) : State :=
  let body := (List.range 3).flatMap (fun i => leBytes 8 (s.rd 62 0x20 (0x228 + 8 * i)).toNat)
  let t := s.closeFatal.event 0x0015 0 (s.rd 62 0x20 0x078) 0 body
  let t := { t with ckp := { t.ckp with restoring := 0 } }
  forEach t.usedSlots (fun n u => u.setSlot n { u.slot n with stopped := true }) t

/-- The root's choice (R378). -/
def State.rootPick (s : State) : State :=
  let cs := s.treeCands
  let okc (c : Cand) : Bool := c.sources == c.nmod && c.nmod != 0 && (!c.narrow || s.ckpF 4 4 == 1) && c.reason != 5
  let why (c : Cand) : Nat :=
    if c.reason ≠ 0 then c.reason else if c.narrow ∧ s.ckpF 4 4 = 0 then 6 else 8
  let refuse (c : Cand) (u : State) : State :=
    let v := (u.event 0x0014 (why c) (stepWord c.step) 0).bump 62 0x20 0xD28
    { v with ckp := { v.ckp with refused := v.ckp.refused + 1 } }
  match cs.find? okc with
  | none => (forEach cs refuse s).unrecoverable
  | some p => (forEach (cs.filter (fun c => decide (p.step < c.step))) refuse s).picked p.step

/-- A GET of a restore's inventory to the partner: `n` names it, `len` bytes at `off` of its stack of a slot (R377). -/
def State.askMirror (s : State) (n sid off len : Nat) : State :=
  let m : Msg := { dst := s.partner, src := s.moduleId, kind := 2, gen := s.dieTag 48, xfer := tinId n, len := 8,
                   addr := slotAddr sid off, aux := len, data := leBytes 8 (slotAddr sid off) }
  ({ s with ckp := { s.ckp with asked := NSet.add s.ckp.asked n } }).sendMsg 48 m

/-- The inventory starts: the manifests in the partner's mirror bays are asked for, when the source is not NONE and the partner
can be reached (R377). -/
def State.inventoryStart (s : State) : State :=
  let t := { s with ckp := { s.ckp with
    restoring := 1, inventories := [], tiersUsed := 0, narrowUsed := false, asked := [], askMs := 0, askedStep := [], mirrorBad := [],
    partnerLost := s.ckp.partnerLost || !s.partnerUp } }
  if t.ckp.partnerLost ∨ t.ckpSrc.isNone then t
  else
    let n := t.compSlots.headD 0
    forEach [2, 3] (fun b u => u.askMirror (0x50 + b) n (u.bayOff (u.slotStack n) b) (0x80 + 96 * 48)) t

/-- Sends the subtree's inventory once the partner and every child have reported (R377, R378). -/
def State.inventoryDue (s : State) : State :=
  if s.ckp.restoring ≠ 1 ∨ !s.ckp.asked.isEmpty ∨ s.ckp.inventories.length < s.sealChildren then s
  else if s.isRoot then s.rootPick
  else s.ledgerMsg s.sealParent 0x08 0 (s.treeCands.flatMap Cand.bytes)

/-- The partner's answer to GET `n` of the inventory: a manifest, whose ingot headers are then read, or one of those headers
(R377). -/
def State.mirrorAnswer (s : State) (n : Nat) (bs : List Byte) : State :=
  let s := { s with ckp := { s.ckp with asked := NSet.del s.ckp.asked n } }
  if n < 0x60 then
    let man := bytesAt bs 0 (0x80 + 96 * natAt bs 7 1)
    if manifestGood man ∧ natAt man 6 1 = 1 ∧ some (natAt man 0x1C 2) = s.ckpSrc ∧ natAt man 7 1 ≤ 48 then
      let st := manifestStep man
      let t := { s with ckp := { s.ckp with
        askedStep := s.ckp.askedStep ++ [(n - 0x50, st)],
        manifests := s.ckp.manifests.filter (fun (e : Nat × Step × List Byte) => !(e.1 == 1 && decide (e.2.1 = st))) ++ [(1, st, man)] } }
      (forN (natAt man 7 1) (fun i u =>
        let a := natAt (manifestEntry man i) 0x10 8
        u.askMirror (if n = 0x52 then 0x60 + i else 0x90 + i) (aSlot a) (aOff a) 256) t).inventoryDue
    else s.inventoryDue
  else
    let i := if n < 0x90 then n - 0x60 else n - 0x90
    let bay := if n < 0x90 then 2 else 3
    match s.ckp.manifests.find? (fun m => m.1 == 1 && s.ckp.askedStep.contains (bay, m.2.1)) with
    | some m =>
      if headerMatches m.2.2 (manifestEntry m.2.2 i) bs then s.inventoryDue
      else ({ s with ckp := { s.ckp with mirrorBad := s.ckp.mirrorBad ++ [m.2.1] } }).inventoryDue
    | none => s.inventoryDue

/-- A millisecond of an inventory that waits for the partner: after 1 s, or with every port to it DOWN, the mirror session is
lost and the inventory goes on without the partner's bays (R378, R388). -/
def State.inventoryTick (s : State) : State :=
  if s.ckp.asked.isEmpty then s
  else if s.partnerUp ∧ s.ckp.askMs < 999 then { s with ckp := { s.ckp with askMs := s.ckp.askMs + 1 } }
  else ({ s with ckp := { s.ckp with asked := [], partnerLost := true } }).inventoryDue

/-- INVENTORY from a child. -/
def State.ldgInventory (s : State) (m : Msg) : State :=
  let cs := (List.range (m.data.length / 16)).map (fun i => candOf (bytesAt m.data (16 * i) 16))
  let i : Inventory := { module := m.src,
                         cand := cs.map (fun c => (c.step, c.nmod, c.sources, c.reason, if c.narrow then 1 else 0)) }
  let t := { s with ckp := { s.ckp with inventories := s.ckp.inventories.filter (fun (x : Inventory) => x.module != m.src) ++ [i] } }
  ({ t with ldg := { t.ldg with children := NSet.add t.ldg.children m.src } }).inventoryDue

/-- RESTORE_PICK from the parent. -/
def State.ldgPick (s : State) (m : Msg) : State := if s.ckp.restoring = 0 then s else s.picked m.step

/-- CKP_CTL.RESTORE (R252, R377, R488), or its rejection (R370). Without a job the shadow set becomes active as at
genesis; the ladder's restore keeps the sets. -/
def restoreWrite (s : State) : State :=
  if s.baysBad then s.reject 62 0x20 0x220 rejRelation
  else if s.field 60 0 0x380 15 15 = 1 then s.reject 62 0x20 0x220 rejState
  else if !s.jobIn && s.plan.shadow != .ready && s.plan.activeGen == 0 then s.reject 62 0x20 0x220 rejState
  else
    let t := s.raiseEpoch
    let t := if !t.jobIn && t.plan.shadow == .ready then t.exchangeAtGenesis else t
    let t := t.genesisPages.clearJob
    let t := t.wr 62 0x20 0x070 t.jobId
    let sw := if s.jobIn then t.ldg.swaps else [(0, t.plan.activeGen)]
    let t := { t with ldg := { t.ldg with
      job := true, recs := [], reports := [], retained := [], genesis := 0, ownNotices := [], swaps := sw } }
    let c := { t.ckp with
      excluded := [], pick := -1, refused := 0, partnerLost := false, met := s.jobIn && t.ckp.met,
      tier1Off := s.jobIn && t.ckp.tier1Off,
      protectedStep := none, copied := [], guards := [], guardDue := [], copiedSlots := [], mirror := none }
    ({ t with ckp := c }).inventoryStart.inventoryDue

def execRestore (p : Path) (s : State) : Out :=
  ok (if p = .mgmt then s.reject 62 0x20 0x220 rejAccess else restoreWrite s)

/-- Placement of M is complete (R380, R381), or a needed ingot has no verified copy and the restore starts again without
M; when the partner that held it was lost meanwhile, without the partner's bays (R388). -/
def placementDone (s : State) : State :=
  if s.ckp.restoring ≠ 2 then s
  else
    let st := s.ckp.pick
    let want := s.compSlots.filter (fun n => s.ckpSrc.isSome && s.sameShape n st)
    if !want.all (fun n => (s.bestCopy n st).isSome) then
      let why := ((want.filter (fun n => (s.bestCopy n st).isNone)).map (fun n => s.copyReason n st)).foldl Nat.min 7
      let lost := s.ckp.manifests.any (fun m => m.1 == 1 && decide (m.2.1 = st)) && !s.ckp.partnerLost && !s.partnerUp
      let c := if lost then { s.ckp with partnerLost := true } else { s.ckp with excluded := s.ckp.excluded ++ [(st, why)] }
      ({ s with ckp := c }).inventoryStart.inventoryDue
    else
      let put (n : Nat) (u : State) : State :=
        match u.bestCopy n st with
        | none => u
        | some (f, b) =>
          let v := forEach ((ingotDir b).filter (fun e => natAt e 6 1 == 0)) (fun e w => w.placeEntry n st 2 b e) u
          { v with ckp := { v.ckp with
            tiersUsed := Nat.lor v.ckp.tiersUsed (2 ^ f.tier), narrowUsed := v.ckp.narrowUsed || natAt b 7 1 % 2 == 1 } }
      let t := forEach want put s
      let gen := t.genOf st
      let r : StepRec := { step := st, gen := gen, phase := .released, sent := true }
      let t := { t with ldg := { t.ldg with
        recs := [r], base := st, newestReleased := st, newestSealed := st, newestOpened := st,
        defers := t.ldg.defers.filter (fun d => decide (d.step ≤ st)) } }
      let t := forEach t.usedSlots (fun n u =>
        u.setSlot n { phase := .computed, step := st, passed := st, gen := gen, migrated := (u.slot n).migrated }) t
      let stat := inFld 63 63 1 + inFld 62 62 (if t.ckp.narrowUsed then 1 else 0) + inFld 55 48 (Nat.min 255 t.ckp.refused)
        + inFld 2 0 t.ckp.tiersUsed
      let t := ((t.wr 62 0x20 0x240 (stepWord st)).wr 62 0x20 0x248 (BitVec.ofNat 64 stat)).wr 62 0x20 0x078 (stepWord st)
      let t := t.wr 62 0x20 0x0A8 (BitVec.ofNat 64 t.ldg.defers.length)
      let t := { t with ckp := { t.ckp with
        restoring := 0, narrowStep := if t.ckp.narrowUsed then some st else none } }
      t.event 0x0013 0 (stepWord st) (BitVec.ofNat 64 stat)

def execRestorePlacementDone (s : State) : Out := ok (placementDone s)

/-! ## Spares (R384, R385) -/

/-- A compute die that is out of service. -/
def State.dieOut (s : State) (die : Nat) : Bool :=
  s.stu.outDies.contains die || s.flt.fenced.contains die || s.flt.outOfService.contains (.die die)

/-- The in-service designated spare nearest to the alternate die of a stack, the lower number on a tie (R384). -/
def State.pickSpare (s : State) (st : Nat) : Option Nat :=
  let l := sortBy (fun a b => decide (a ≤ b)) (s.stu.spares.filter (fun d => !s.dieOut d && (s.dieSlot d).isNone))
  l.foldl (fun best d => match best with
    | none => some d
    | some b => if hops d (altDie st) < hops b (altDie st) then some d else some b) none

/-- PATH of a substituted slot: through the memory PHY of the stack's own die when that die's PD.1 and PD.3 are powered and it
is not fenced, and else through the fabric port (R34, R384). -/
def State.subPath (s : State) (st : Nat) : Nat := if s.ownPhy st then 2 else 1

/-- Copies the swapped values of the slot's core and vector-unit pages to the spare (R490). -/
def State.copyPages (s : State) (src dst : Nat) : State :=
  forEach [0x01, 0x02, 0x03, 0x04, 0x09, 0x0A, 0x0B, 0x0C] (fun blk t =>
    forEach (swappedOffs src blk) (fun o u =>
      (u.wr dst blk o (u.rd src blk o)).wr dst blk (o + 0x800) (u.rd src blk (o + 0x800))) t) s

/-- No spare remains for a slot: rung 7 for its partition (R42, R384, R387). -/
def State.noSpare (s : State) (sid : Nat) : State :=
  let r := s.slot sid
  let body := (List.range 3).flatMap (fun i => leBytes 8 (s.rd 62 0x20 (0x228 + 8 * i)).toNat)
  let t := s.setSlot sid { r with stopped := true, refused := true }
  let t := if r.moveDue then t.event 0x0005 (slotKind sid * 256 + slotNum sid) (stepWord (r.step + 1)) (BitVec.ofNat 64 s.plan.activeGen) else t
  t.closeFatal.event 0x0015 0 (s.rd 62 0x20 0x078) 0 body

/-- A die named by a shadow translation has left service: a pending swap is cancelled (R56). -/
def State.cancelSwapFor (s : State) : State :=
  if (List.range 48).any (fun n => let x := s.rd 60 0 (0xA00 + 8 * n); xValid x && s.dieOut (xCd x)) then s.cancelSwap 3 else s

/-- A spare that has taken a slot is a designated spare no longer; all its domains are powered (R384, R385 order 2). -/
def State.takeSpare (s : State) (spare : Nat) : State :=
  let t := { s with stu := { s.stu with spares := s.stu.spares.filter (fun d => d != spare) } }
  (t.setSvc spare 2).setPd spare (pdRun spare) 0

/-- A slot runs through its stack's own die, and that die has been fenced or has lost its PHY (R215). -/
def State.viaLost (s : State) (sid : Nat) : Bool :=
  decide (sid < 48) && s.slotUsed sid && xPath (s.xlat sid) == 2 && !s.dieOut (s.slotDie sid) && !s.ownPhy (s.slotStack sid)
    && s.stackReach (s.slotStack sid)

/-- PATH switches to ALT_PORT as part of the substitution under way (R35, R215). -/
def State.turnAlt (s : State) (sid : Nat) : State :=
  let w := s.xlat sid
  s.wr 60 0 (0x200 + 8 * sid) (setFld (setFld w 21 20 1) 47 40 (fld w 47 40 + 1))

/-- Stack recovery (R386, rungs 5 and 6): a slot whose stack cannot be reached, or is lost, takes a spare and that spare's
stack with PATH NEAR; its images are asked for again (R52), and the job rolls back. -/
def State.recoverStack (s : State) (sid spare : Nat) : State :=
  let w := s.xlat sid
  let st := s.slotStack sid
  let w' := setFld (setFld (setFld (setFld w 37 32 spare) 29 24 spare) 21 20 0) 47 40 (fld w 47 40 + 1)
  let s := ((s.dropObjs (s.slotDie sid)).copyPages (s.slotDie sid) spare).wr 60 0 (0x200 + 8 * sid) w'
  let s := s.takeSpare spare
  let s := forEach [0, 1, 2, 3] (fun b u => u.setBay st b { u.bay st b with st := 3 }) s
  let r := s.slot sid
  let s := s.setSlot sid { r with moveDue := false, migrated := false, sinceMig := 0, substituting := false, stopped := false,
                                  frozenOk := false }
  let s := (s.askReload sid s.plan.activeGen 0).cancelSwapFor
  if s.jobIn then restoreWrite s else s

/-- SPARE_SUBSTITUTION (R385, orders 1 to 5). -/
def substitute (sid : Nat) (s : State) : State :=
  let die := s.slotDie sid
  let r := s.slot sid
  if s.viaLost sid then s.turnAlt sid
  else if !(decide (sid < 48)) || !s.slotUsed sid || !(s.dieOut die || (r.moveDue && (r.phase == .idle || r.phase == .computed))) then s
  else
    let st := s.slotStack sid
    match s.pickSpare st with
    | none => s.noSpare sid
    | some spare =>
      if !s.stackReach st then s.recoverStack sid spare
      else
      let w := s.xlat sid
      let w' := setFld (setFld (setFld w 37 32 spare) 21 20 (s.subPath st)) 47 40 (fld w 47 40 + 1)
      let told := s.ldg.ownNotices.any (fun n => n.1 == sid && decide (n.2.1 = r.step))
      let open_ := s.jobIn && (r.phase == .opened || r.phase == .replaying)
      let s := if open_ then (if r.phase = .opened then s.toReplaying sid else s) else s
      let s := if open_ then s.notice sid r.step 3000 0 (!told) else s
      let s := (s.dropObjs die).copyPages die spare
      let s := s.wr 60 0 (0x200 + 8 * sid) w'
      let s := s.takeSpare spare
      let s := s.setSlot sid { s.slot sid with moveDue := false, migrated := false, sinceMig := 0, substituting := true, stopped := false }
      s.cancelSwapFor

def execSpareSubstitution (sid : Nat) (s : State) : Out := onUnit (decide (sid < 60)) (substitute sid s)

/-- MIGRATION_DONE (R385 order 6); the copy waits for a page substitution that it meets (R215). -/
def migrationDone (sid : Nat) (s : State) : State :=
  let r := s.slot sid
  if r.substituting && !s.mem.copying.any (fun k => k / 2 ^ 15 == s.slotStack sid) then s.setSlot sid { r with migrated := true } else s

def execMigrationDone (sid : Nat) (s : State) : Out := onUnit (decide (sid < 60)) (migrationDone sid s)

/-- Copies a range of one stack's bytes and poison to another stack, each through its own substitution table (R204, R208). -/
def State.copyStack (s : State) (src dst lo hi : Nat) : State :=
  let has (st pa : Nat) : Bool :=
    pa / stackBytes == st && decide (lo ≤ s.mapOff pa) && decide (s.mapOff pa < hi)
  let put (pa : Nat) : Nat := s.served (dst * stackBytes + s.mapOff pa)
  let m := layBytes (s.mem.stack.filter (fun e => !has dst e.1)) (s.mem.stack.filter (fun e => has src e.1)) put
  let po := (s.mem.poison.filter (fun g => has src (256 * g))).map (fun g => put (256 * g) / 256)
  let keep := s.mem.poison.filter (fun g => !has dst (256 * g))
  let t := (s.setStack m).bgBytes src (hi - lo)
  { t with mem := { t.mem with poison := po.foldl NSet.add keep } }

/-- XLAT_NEAR_SWITCH (R385 order 7): the live region and the crucible now stand in the spare's stack, and the translation
turns NEAR. -/
def State.xlatNear (s : State) (sid : Nat) : State :=
  let w := s.xlat sid
  let src := xMs w
  let dst := xCd w
  let t := s.copyStack src dst 0 (s.liveBytes src + s.crucGib src * 2 ^ 30)
  let t := { t with ldg := { t.ldg with retained := t.ldg.retained.map (fun (r : Retained) =>
    if r.sid = sid then { r with off := r.off % stackBytes + dst * stackBytes } else r) } }
  let t := t.wr 60 0 (0x200 + 8 * sid) (setFld (setFld (setFld w 29 24 dst) 21 20 0) 47 40 (fld w 47 40 + 1))
  t.setSlot sid { t.slot sid with migrated := false, substituting := false, sinceMig := 0, frozenOk := false }

end Sys2Proof.Machine
end

