-- ==== Sys2Proof/Machine/Window.lean ====
section
/-!
DEFINITION. Windows of the control node's memory and the requests that move their entries: the window table (R295, R296),
WINDOW addresses (R280), and DMA_READ and DMA_WRITE frames (R285, R290).
-/

namespace Sys2Proof.Machine

/-! ## The window table -/

def State.winBase (s : State) (w : Nat) : Nat := (s.rd 54 0x1E (0x100 + 24 * w)).toNat
def State.winCfg (s : State) (w : Nat) : Word := s.rd 54 0x1E (0x108 + 24 * w)

/-- Bytes of an entry of a window, and its ring entries. -/
def State.entryBytes (s : State) (w : Nat) : Nat := fld (s.winCfg w) 27 0
def State.ringEntries (s : State) (w : Nat) : Nat := fld (s.winCfg w) 55 32

/-- Byte offset of the entry with sequence number `q`: its slot of the ring is `q` mod ENTRIES. -/
def State.entryOff (s : State) (w q : Nat) : Nat := q % s.ringEntries w * s.entryBytes w

/-- A WINDOW logical address (R280). -/
def windowAddr (w off : Nat) : Word := BitVec.ofNat 64 (4 * 2 ^ 60 + inFld 59 55 w + inFld 43 0 off)

/-- In confidential mode DMA frames go to SHARED windows only (R290). -/
def State.winShared (s : State) (w : Nat) : Bool := !s.sec.conf || bitAt (s.winCfg w) 61

/-! ## DMA requests (R285) -/

/-- The control port of a link slot's die. -/
def slotPath (sid : Nat) : Path := if sid = 55 then .cpB else .cpA

def otherPath (p : Path) : Path := if p = .cpA then .cpB else .cpA

/-- The port on which a slot's requests go: its own, or the other one while its own is not UP. -/
def State.dmaPath (s : State) (sid : Nat) : Path :=
  let p := slotPath sid
  if !s.portUp (pathPort p) && s.portUp (pathPort (otherPath p)) then otherPath p else p

/-- The frame of a request. -/
def State.dmaFrame (s : State) (d : Dma) : Frame :=
  { typ := if d.write then 7 else 5, tag := d.tag, addr := s.winBase d.win + d.off, aux := if d.write then 0 else d.bytes, len := d.data.length, data := d.data }

/-- Sends a request, when its port can send and its window may be used. -/
def State.sendDma (s : State) (d : Dma) : State :=
  if s.portOpen d.port && s.winShared d.win then s.sendFrame d.port (s.dmaFrame d) else s

/-- A new request of an op, with a tag that has bit 31 set (R276). -/
def State.issueDma (s : State) (d : Dma) : State :=
  let r : Dma := { d with tag := 2 ^ 31 + s.ctl.nextTag % 2 ^ 31, port := s.dmaPath d.sid }
  let t := { s with ctl := { s.ctl with dma := s.ctl.dma ++ [r], nextTag := s.ctl.nextTag + 1 } }
  t.sendDma r

/-- Two records of one pull or push. -/
def Pull.same (a b : Pull) : Bool := a.sid == b.sid && a.op == b.op && a.step == b.step && a.q == b.q && a.init == b.init

def State.dropPull (s : State) (p : Pull) : State :=
  { s with ctl := { s.ctl with pulls := s.ctl.pulls.filter (fun (x : Pull) => !x.same p) } }

def State.setPull (s : State) (p : Pull) : State :=
  { s with ctl := { s.ctl with pulls := s.ctl.pulls.map (fun (x : Pull) => if x.same p then p else x) } }

/-- The request for `n` bytes at an offset of a pull's entry. -/
def State.readEntry (s : State) (p : Pull) (off n : Nat) : State :=
  s.issueDma { tag := 0, port := .cpA, write := false, win := p.win, off := s.entryOff p.win p.q + off, bytes := n, data := [],
               sid := p.sid, op := p.op }

/-- Reads a pull's 32-byte entry header. -/
def State.readHeader (s : State) (p : Pull) : State := (s.setPull { p with stage := .header }).readEntry p 0 32

/-- A pull begins with its first header read (R283). -/
def State.startPull (s : State) (p : Pull) : State :=
  ({ s with ctl := { s.ctl with pulls := s.ctl.pulls.filter (fun (x : Pull) => !x.same p) ++ [p] } }).readHeader p

end Sys2Proof.Machine
end

