-- ==== Sys2Proof/Machine/Memory.lean ====
section
/-!
DEFINITION. Row failures, remapping and retirement (R206 to R208), recovery of poisoned granules (R209), self-refresh
(R211) and the CXL ports (R213, R214).
-/

namespace Sys2Proof.Machine

/-! ## Rows (R206, R207) -/

def rowDflt (_ : Nat) : RowPhase := .clean
def rowKey (stack page sel : Nat) : Nat := stack * 2 ^ 26 + page * 2 ^ 11 + sel
def State.row (s : State) (k : Nat) : RowPhase := SMap.get rowDflt s.mem.rows k
def State.setRow (s : State) (k : Nat) (r : RowPhase) : State :=
  { s with mem := { s.mem with rows := SMap.set rowDflt s.mem.rows k r } }

/-- Bank-and-pseudo-channel selector of a stack offset: bank in bits [10:6], pseudo-channel below (R187). -/
def rowSel (off : Nat) : Nat :=
  let page := off / 2 ^ 21
  let pcx := off / 2 ^ 8 % 64
  off / 2 ^ 16 % 32 * 64 + Nat.xor pcx (page % 64)

def RowPhase.remapped? : RowPhase → Bool
  | .remapped => true
  | .remappedWatched _ => true
  | .retired e => e
  | _ => false

/-- A physical page is out of use (R207, R208). -/
def State.pageRetired (s : State) (stack page : Nat) : Bool := s.mem.retired.contains (stack * 2 ^ 15 + page)

/-- Where a row stands: every row of a page out of use is retired. -/
def State.rowState (s : State) (stack page sel : Nat) : RowPhase :=
  let r := s.row (rowKey stack page sel)
  if s.pageRetired stack page then .retired r.remapped? else r

/-- A remap entry is free: at most 64 per pseudo-channel and 4,096 per stack, those of retired rows among them (R207). -/
def State.remapFree (s : State) (stack sel : Nat) : Bool :=
  let l := (SMap.slice s.mem.rows (stack * 2 ^ 26) ((stack + 1) * 2 ^ 26)).filter (fun e => e.2.remapped?)
  decide (l.length < 4096) && decide ((l.filter (fun e => e.1 % 64 == sel % 64)).length < 64)

/-- The stack base page of a stack. -/
def State.msbBump (s : State) (stack off : Nat) : State := s.bump stack 0x0F off

/-- A fault of a stack, at its cell's die (R397). -/
def State.stackFault (s : State) (stack code : Nat) (detail : Word := 0) : State :=
  s.raise stack code { typ := 0x07, inst := stack, detail := detail }

/-- A row is remapped (R207). -/
def State.remapRow (s : State) (stack page sel : Nat) : State :=
  let t := (s.setRow (rowKey stack page sel) .remapped).msbBump stack 0xC10
  (t.setField stack 0x0F 0x050 12 0 (t.field stack 0x0F 0x050 12 0 + 1)).stackFault stack 0x0502

/-- Pages 24,512 to 24,575 (R189). -/
def poolFirst : Nat := 24512

/-- The pool pages that serve no page and are not themselves out of use, in increasing number. -/
def State.poolFree (s : State) (stack : Nat) : List Nat :=
  ((List.range 64).map (· + poolFirst)).filter (fun p =>
    !(s.mem.subst.any (fun e => e.1 / 2 ^ 15 == stack && e.2 == p)) && !s.pageRetired stack p)

/-- The page's data is lost: the pool has no free page. DEGRADED is set, and the stack's slot moves to a spare at its next step
boundary (R208). -/
def State.pageLost (s : State) (stack lp : Nat) : State :=
  let b := s.served (stack * stackBytes + lp * pageBytes)
  let t := s.setStack (SMap.clear s.mem.stack b (b + pageBytes))
  let t := { t with mem := { t.mem with lost := NSet.add t.mem.lost (stack * 2 ^ 15 + lp) } }
  let t := (t.setField stack 0x0F 0x050 48 48 1).stackFault stack 0x0504
  onSome ((List.range 48).find? (fun n => xValid (t.xlat n) && xMs (t.xlat n) == stack))
    (fun n u => u.setSlot n { u.slot n with moveDue := true }) t

/-- The row fails for good: its page leaves use, and is copied to the pool, or lost when every free pool page is spoken for
(R207, R208). -/
def State.retireRow (s : State) (stack page sel : Nat) : State :=
  let k := rowKey stack page sel
  let lp := s.servedPage stack page
  let t := s.setRow k (.retired (s.row k).remapped?)
  let t := { t with mem := { t.mem with retired := NSet.add t.mem.retired (stack * 2 ^ 15 + page) } }
  let due := (t.mem.copying.filter (fun k => k / 2 ^ 15 == stack && k != stack * 2 ^ 15 + lp)).length
  if due < (t.poolFree stack).length then
    { t with mem := { t.mem with copying := NSet.add t.mem.copying (stack * 2 ^ 15 + lp) } }
  else t.pageLost stack lp

/-- Nothing of the stack's slot is on its way: no stream-tracker entry names the stack, no reply for it is outstanding, and the
slot stands at a step boundary (R211). -/
def State.stackQuiet (s : State) (stack : Nat) : Bool :=
  let here (a : Nat) : Bool := aSpace a == 1 && s.slotUsed (aSlot a) && s.slotStack (aSlot a) == stack
  let still (n : Nat) : Bool := !(xValid (s.xlat n) && xMs (s.xlat n) == stack) ||
    (let r := s.slot n; r.phase == .idle || r.phase == .computed)
  (List.range 48).all still && !s.net.tracker.any (fun x => here x.target)
    && !s.net.fetches.any (fun f => f.2.2.2 != 0 && here ((s.opAt f.1 false f.2.1).opnd 0).addr)

/-- A stack enters self-refresh, where MCH_CTL allows it and nothing is on its way; during a page copy the entry waits for the
copy (R211, R215). -/
def State.sleepStack (s : State) (stack : Nat) : State :=
  if s.field stack 0x0E 0x040 0 0 ≠ 1 ∨ !s.stackQuiet stack then s
  else if s.mem.copying.any (fun k => k / 2 ^ 15 == stack) then
    { s with mem := { s.mem with sleepDue := NSet.add s.mem.sleepDue stack } }
  else
    ({ s with mem := { s.mem with
      asleep := NSet.add s.mem.asleep stack, sleepDue := NSet.del s.mem.sleepDue stack } }).setField stack 0x0E 0x048 1 1 1

/-- A page of the address map is served by page `pool` of its stack from now on: its data and its poison move, and the
substitution is counted and reported (R208, R210). -/
def State.substPage (s : State) (stack page pool : Nat) : State :=
  let k := stack * 2 ^ 15 + page
  let old := match s.mem.subst.find? (fun e => e.1 == k) with
    | some e => e.2
    | none => page
  let a := stack * stackBytes + old * pageBytes
  let b := stack * stackBytes + pool * pageBytes
  let bs := SMap.slice s.mem.stack a (a + pageBytes)
  let m := SMap.clear (SMap.clear s.mem.stack a (a + pageBytes)) b (b + pageBytes)
  let po := (s.mem.poison.filter (fun g => !(decide (b ≤ 256 * g) && decide (256 * g < b + pageBytes)))).map (fun g =>
    if a ≤ 256 * g ∧ 256 * g < a + pageBytes then g - a / 256 + b / 256 else g)
  let t := s.setStack (moveBytes m bs a b)
  let t := { t with mem := { t.mem with
    poison := po.foldl NSet.add [], copying := NSet.del t.mem.copying k, subst := SMap.put t.mem.subst k pool } }
  let t := (t.msbBump stack 0xC18).bgBytes stack pageBytes
  let used := t.field stack 0x0F 0x050 38 32 + 1
  ((t.setField stack 0x0F 0x050 38 32 used).stackFault stack 0x0503).event 0x0030 stack 0 (BitVec.ofNat 64 used)

/-- The page copy to the pool is finished: the substitution table serves the page from its pool page (R208). A guard copy and a
sleep entry that waited for it follow (R215). -/
def pageCopyDone (stack page : Nat) (s : State) : State :=
  let k := stack * 2 ^ 15 + page
  if !s.mem.copying.contains k then s
  else match s.poolFree stack with
    | [] => ({ s with mem := { s.mem with copying := NSet.del s.mem.copying k } }).pageLost stack page
    | pool :: _ =>
      let t := s.substPage stack page pool
      let t := if t.ckp.guardDue.contains k then t.copyBlock k else t
      if t.mem.sleepDue.contains stack then t.sleepStack stack else t

def execPageCopyDone (stack page : Nat) (s : State) : Out :=
  onUnit (decide (stack < 48 ∧ page < 24576)) (pageCopyDone stack page s)

/-- A corrected read of a row (R206, R207). -/
def State.rowCorrected (s : State) (stack page sel symbol : Nat) : State :=
  let k := rowKey stack page sel
  match s.rowState stack page sel with
  | .clean => s.setRow k (.watched symbol)
  | .watched _ => s.setRow k (.watched symbol)
  | .remapped => s.setRow k (.remappedWatched symbol)
  | .remappedWatched _ => s.setRow k (.remappedWatched symbol)
  | .retired _ => s

/-- A row has failed (R206, R207). -/
def State.rowFailed (s : State) (stack page sel : Nat) : State :=
  match s.rowState stack page sel with
  | .clean => if s.remapFree stack sel then s.remapRow stack page sel else s.retireRow stack page sel
  | .watched _ => if s.remapFree stack sel then s.remapRow stack page sel else s.retireRow stack page sel
  | .remapped => s.retireRow stack page sel
  | .remappedWatched _ => s.retireRow stack page sel
  | .retired _ => s

/-- A corrected granule read is counted and logged as CORRECTED (R206, R216). -/
def State.countCorrected (s : State) (stack : Nat) : State := (s.msbBump stack 0xC00).stackFault stack 0x0500

/-- VERIFY_READ (R206, R207): the verify read of a watched row, clean or with a corrected symbol; a sleeping stack's background
work pauses (R211). -/
def verifyRead (stack page sel : Nat) (symbol : Option Nat) (s : State) : State :=
  let k := rowKey stack page sel
  if s.mem.asleep.contains stack then s
  else match s.rowState stack page sel, symbol with
  | .watched _, none => s.setRow k .clean
  | .watched x, some y =>
    let t := s.countCorrected stack
    if x = y then t.rowFailed stack page sel else t.rowCorrected stack page sel y
  | .remappedWatched _, none => s.setRow k .remapped
  | .remappedWatched x, some y =>
    let t := s.countCorrected stack
    if x = y then t.rowFailed stack page sel else t.rowCorrected stack page sel y
  | _, _ => s

def execVerifyRead (stack page rowSel : Nat) (symbol : Option Nat) (s : State) : Out :=
  onUnit (decide (stack < 48 ∧ page < 24576 ∧ rowSel < 2048)) (verifyRead stack page rowSel symbol s)

/-! ## Poison (R203, R209) -/

/-- The slot that a stack serves. -/
def State.stackSlot (s : State) (stack : Nat) : Option Nat :=
  (List.range 48).find? (fun n => xValid (s.xlat n) && xMs (s.xlat n) == stack)

/-- The persistent tensor copy, tiles or hallmarks, that holds a stack offset: copy 0 or 1 (R191, R306). -/
def State.persistCopy (s : State) (sid off : Nat) : Option Nat :=
  let ps := s.pstride (s.slotStack sid)
  if ps = 0 then none
  else
    let hit (c : Nat) : Bool := (s.carried sid).any (fun t =>
      (aSpace t.base == 1 && decide (aOff t.base + c * ps ≤ off) && decide (off < aOff t.base + c * ps + t.bytes))
        || (aSpace t.hm == 1 && decide (aOff t.hm + c * ps ≤ off) && decide (off < aOff t.hm + c * ps + 4 * t.tiles)))
    [0, 1].find? hit

/-- Discards the saved contexts of a die (R209). -/
def State.dropContexts (s : State) (die : Nat) : State :=
  { s with units := { s.units with cores := s.units.cores.map (fun e =>
      if e.1 / 4 = die then (e.1, { e.2 with ctx := none }) else e) } }

/-- Fetches retained inputs of a crucible range again: a GET's segment from its sender, a pulled entry from its window
(R209, R284). The step input of another op came from its own module: its record is dropped, and the replay of the slot's share
has the senders deliver it again from their retention. -/
def State.refetch (s : State) (pa : Nat) : State :=
  forEach (s.ldg.retained.filter (fun r => decide (r.off < pa + 256) && decide (pa < r.off + r.len))) (fun r t =>
    match r.kind, r.msg with
    | 2, some h =>
      let lsid := sidOf (h.xfer / 2 ^ 35 % 4) (h.xfer / 2 ^ 37 % 8)
      let o := t.opAt lsid false r.op
      let m : Msg := { dst := h.src, src := t.moduleId, kind := 2, gen := t.dieTag (t.slotDie lsid), step := r.step,
                       xfer := h.xfer, seg := r.seg, len := 8, addr := o.p 1 + r.seg * 65536, aux := r.len,
                       data := leBytes 8 h.addr }
      t.sendMsg (t.slotDie lsid) m
    | _, _ =>
      if r.kind = 0 ∧ 48 ≤ r.seg then
        (let o := t.opAt r.seg false r.op
         if o.cls ≠ 0x0F then t
         else
           let p : Pull := { sid := r.seg, op := r.op, win := fld (o.pword 0) 63 59,
                             step := r.step,
                             q := o.p 1 + r.step.toNat * fld (o.pword 0) 31 0 }
           t.startPull p)
      else if r.kind = 0 ∨ r.kind = 3 then
        ({ t with ldg := { t.ldg with retained := t.ldg.retained.filter (fun x => x != r) } }).replayShare r.sid r.step
      else t) s

/-- Marks the ingot copy of a bay invalid (R209). -/
def State.badBay (s : State) (stack off : Nat) : State :=
  onSome ([0, 1, 2, 3].find? (fun b => decide (s.bayOff stack b ≤ off) && decide (off < s.bayOff stack b + s.bayBytes)))
    (fun b t => t.setBay stack b { t.bay stack b with st := 3 }) s

/-- The poison of a granule is cleared: what it held has been written again. -/
def State.clearPoison (s : State) (pa : Nat) : State :=
  { s with mem := { s.mem with poison := NSet.del s.mem.poison (s.served pa / 256) } }

/-- POISON_RECOVERY (R209): what is done for a poisoned granule at a physical address, by the area in which it lies. A stack
that serves no slot holds bays and a service area only. The service area's remap log and touchstone entries are the tables of
the state itself, which stand for the flash record (R210): rebuilding an entry writes it from them (log entry 7). -/
def State.poisonRecovery (s : State) (pa : Nat) : State :=
  let stack := pa / stackBytes
  let off := s.mapOff pa
  let live := s.liveBytes stack
  let spare (u : State) : State := if off < u.spareOff stack + 2 ^ 28 then u.clearPoison (stack * stackBytes + off) else u.badBay stack off
  if live + s.crucGib stack * 2 ^ 30 ≤ off then spare s
  else match s.stackSlot stack with
  | none => s
  | some sid =>
    let r := s.slot sid
    if off < live - 2 ^ 28 - 17 * 2 ^ 20 then
      match s.persistCopy sid off with
      | none => s.replaySlot sid 25
      | some c =>
        if r.phase = .idle ∨ c ≠ ppCopy 1 r.step then s.replaySlot sid 25
        else if r.step - 1 ≤ s.ldg.newestSealed then (if s.jobIn then restoreWrite s else s)
        else s.replayModule sid (r.step - 1) 25
    else if off < live - 2 ^ 28 then (s.dropContexts (s.slotDie sid)).replaySlot sid 25
    else if off < live then
      s.askReload sid s.plan.activeGen 0
    else s.refetch (stack * stackBytes + off)

/-- The logical address that a fault of a stack offset names (R398). -/
def State.logicalOf (s : State) (pa : Nat) : Word :=
  match s.stackSlot (pa / stackBytes) with
  | some sid => BitVec.ofNat 64 (slotAddr sid (pa % stackBytes))
  | none => 0

/-- The address of the first poisoned granule of a run. -/
def State.firstPoison (s : State) (pa n : Nat) : Nat :=
  match (List.range (n / 256 + 2)).find? (fun i => decide (256 * (pa / 256 + i) < pa + n) && s.poisoned (256 * (pa / 256 + i))) with
  | some i => 256 * (pa / 256 + i)
  | none => pa

/-- A read meets a poisoned granule (R203, R209). -/
def State.poisonMet (s : State) (pa : Nat) : State :=
  let g := pa / 256 * 256
  (s.stackFault (pa / stackBytes) 0x0501 (s.logicalOf g)).poisonRecovery g

/-- A granule is found uncorrectable: poisoned, its row fails, and it is recovered (R203, R206 to R209). -/
def State.uncorrectable (s : State) (pa : Nat) : State :=
  let stack := pa / stackBytes
  let off := pa % stackBytes
  let t := { s with mem := { s.mem with poison := NSet.add s.mem.poison (pa / 256) } }
  let t := (t.msbBump stack 0xC08).rowFailed stack (off / pageBytes) (rowSel off)
  (t.stackFault stack 0x0501 (t.logicalOf pa)).poisonRecovery pa

/-- BURNISH_READ (R202, R206): a scrub read of one granule at a physical address. What a foreground read finds wrong with a
granule is delivered by this command for that granule, ahead of the read (DESIGN CHOICE, log entry 8): the pass advances only
at the page it has reached. A sleeping stack's pass pauses (R211). -/
def burnishRead (pa : Nat) (symbol : Option Nat) (bad : Bool) (s : State) : State :=
  let stack := pa / stackBytes
  let off := pa % stackBytes
  let page := off / pageBytes
  let next := (page + 1) % 24576
  if s.mem.asleep.contains stack then s
  else
    let t := s.bgBytes stack 256
    let t := if off % pageBytes / 256 = pageBytes / 256 - 1 ∧ (t.rd stack 0x0F 0xC28).toNat = page then
      (let t := t.wr stack 0x0F 0xC28 (BitVec.ofNat 64 next)
       if next = 0 then t.msbBump stack 0xC20 else t) else t
    if bad then t.uncorrectable (pa / 256 * 256)
    else if t.mem.poison.contains (pa / 256) then
      (t.stackFault stack 0x0501 (t.logicalOf pa)).poisonRecovery (pa / 256 * 256)
    else match symbol with
      | none => t
      | some y => (t.countCorrected stack).rowCorrected stack page (rowSel off) y

def execBurnishRead (addr : Nat) (symbol : Option Nat) (uncorrectable : Bool) (s : State) : Out :=
  onUnit (decide (addr < 48 * stackBytes)) (burnishRead addr symbol uncorrectable s)

/-! ## Self-refresh (R211) -/

def execSelfRefreshEntry (stack : Nat) (s : State) : Out := onUnit (decide (stack < 48)) (s.sleepStack stack)

def execSelfRefreshWake (stack : Nat) (s : State) : Out := onUnit (decide (stack < 48)) (s.wakeStack stack)

/-! ## CXL ports (R214, R499) -/

def hubOf (xp : Nat) : Nat := 56 + xp

/-- The CXL port that a FAR_READ or FAR_WRITE names (R501). -/
def Op.farPort (o : Op) : Nat := if aSpace (o.opnd 0).addr = 3 then aPort (o.opnd 0).addr else aPort (o.opnd 1).addr

/-- A far-tier failure: the first retrains the port and retries, the second makes the range unavailable (R214). -/
def State.farFail (s : State) (xp : Nat) : State :=
  let d := hubOf xp
  let t := s.raise d 0x0508 { typ := 0x12, inst := xp }
  if s.mem.farLost.contains xp then t
  else if s.mem.farRetried.contains xp then
    let t := { t with mem := { t.mem with farLost := NSet.add t.mem.farLost xp } }
    let t := { t with ckp := { t.ckp with manifests := t.ckp.manifests.filter (fun m => m.1 != 2) } }
    (t.setField d 0x1F 0x040 1 0 3).event 0x0032 xp 0 0
  else
    let t := { t with mem := { t.mem with
      farRetried := NSet.add t.mem.farRetried xp,
      farOps := t.mem.farOps.map (fun (f : Nat × Nat × Bool) =>
        (f.1, f.2.1, f.2.2 || (s.opAt f.1 false f.2.1).farPort == xp)) } }
    (t.bump d 0x1F 0xC20).setField d 0x1F 0x040 1 0 2

def cxlRequestTimeout (xp : Nat) (s : State) : State := (s.bump (hubOf xp) 0x1F 0xC10).farFail xp
def execCxlRequestTimeout (xp : Nat) (s : State) : Out := onUnit (decide (xp < 4)) (cxlRequestTimeout xp s)
def execCxlLinkDown (xp : Nat) (s : State) : Out := onUnit (decide (xp < 4)) ((s.setField (hubOf xp) 0x1F 0x040 1 0 0).farFail xp)

/-- CXL_CTL.RETRAIN, written by management firmware only (R499). -/
def cxlRetrain (p : Path) (xp : Nat) (s : State) : State :=
  let d := hubOf xp
  if p ≠ .firmware then s.reject d 0x1F 0x050 rejAccess
  else if s.mem.farLost.contains xp then s.reject d 0x1F 0x050 rejState
  else (s.bump d 0x1F 0xC20).setField d 0x1F 0x040 1 0 2

def execCxlRetrain (p : Path) (xp : Nat) (s : State) : Out := onUnit (decide (xp < 4)) (cxlRetrain p xp s)

end Sys2Proof.Machine
end

