-- ==== Sys2Proof/Machine/Power.lean ====
section
/-!
DEFINITION. Voltages and bins, power domains, dies leaving service, and sleep (R420 to R423, R430, R434, R435, R408, R411).
-/

namespace Sys2Proof.Machine

/-! ## Voltages and bins (R420, R430) -/

/-- PWR_GUARD.MV and PWR_THERM.WARN_C in force at a die (R435). -/
def State.guardOf (s : State) (die : Nat) : Nat := SMap.get (fun _ => 15) s.pwr.guardMv die
def State.warnOf (s : State) (die : Nat) : Nat := SMap.get (fun _ => 95) s.pwr.warnC die

/-- At a step boundary a die takes the settings as written (R435). -/
def State.takeSettings (s : State) (die : Nat) : State :=
  { s with pwr := { s.pwr with
    guardMv := SMap.set (fun _ => 15) s.pwr.guardMv die (s.field 60 0x22 0x088 5 0),
    warnC := SMap.set (fun _ => 95) s.pwr.warnC die (s.field 60 0x22 0x090 6 0) } }

/-- The VDD_CORE target of a die for a bin (R430). -/
def State.binMv (s : State) (die bin : Nat) : Nat := Config.vfFuse die bin + s.guardOf die

/-- The commanded VDD_CORE of a die. -/
def State.volts (s : State) (die : Nat) : Nat := SMap.get (fun _ => 0) s.pwr.volts die

/-- A new AVSBus write to a rail: VDD_CORE of a die, or VDD_SRAM of quadrant q at rail 48 + q (R293, R420). -/
def State.avsWrite (s : State) (rail mv : Nat) : State :=
  let z : Nat → Nat := fun _ => 0
  ({ s with pwr := { s.pwr with volts := SMap.set z s.pwr.volts rail mv, avsTries := SMap.set z s.pwr.avsTries rail 0 } }).send
    (.avs rail mv)

/-- Commands a VDD_CORE target; one outside 600 to 850 mV is refused before it is sent (R293). -/
def State.command (s : State) (die mv : Nat) : State :=
  if mv < 600 ∨ 850 < mv then s
  else s.avsWrite die mv

/-- Switches a compute die's VDD_CORE rail off (R408). -/
def State.railOff (s : State) (die : Nat) : State :=
  s.avsWrite die 0

/-- A bin is excluded for a die; a slot whose plan states it moves at its next step boundary (R42). -/
def State.excludeBin (s : State) (die bin : Nat) : State :=
  let t := { s with pwr := { s.pwr with excluded := NSet.add s.pwr.excluded (4 * die + bin) } }
  match t.dieSlot die with
  | some sid => if t.hBin sid false = bin then t.setSlot sid { t.slot sid with moveDue := true } else t
  | none => t

/-! ## Power domains and service (R421 to R423, R491) -/

/-- STU_STAT.OUT_DIES (R476). -/
def State.showOut (s : State) : State := s.setField 60 0 0x380 39 32 (((List.range 48).filter s.dieOut).length % 256)

/-- A compute die leaves service: its slot takes a spare by substitution, and a pending swap that names it is cancelled
(R56, R384). -/
def State.dieLeaves (s : State) (die : Nat) : State :=
  let t := { s with stu := { s.stu with
    outDies := NSet.add s.stu.outDies die, spares := s.stu.spares.filter (fun d => d != die) } }
  let t := t.outOfService (.die die)
  let t := if t.field die 0 0x040 3 0 = 4 then t else t.setSvc die 5
  t.cancelSwapFor.showOut

/-- Fences a die at the fabric: every die's FAB_ROUTE switches, and a compute die that no route reaches any more is out of
service as well (R198, R199). -/
def State.fence (s : State) (die : Nat) : State :=
  let t := { s with flt := { s.flt with fenced := NSet.add s.flt.fenced die } }
  let t := (t.setSvc die 4).setPd die 1 0
  if die < 48 then
    (let t := ((t.edgesDown die).switchRoutes).portsDown die 0
     let lost := (List.range 48).filter (fun d => unreachable t.fencedDies d && !t.dieOut d)
     forEach lost (fun d u => u.dieLeaves d) t)
  else t

/-- A compute die is fenced, its rail is switched off, DIE_FENCED is recorded, and it leaves service (R408). -/
def State.fenceDie (s : State) (die : Nat) : State :=
  (((s.fence die).railOff die).raise die 0x0311 { typ := 0x01 }).dieLeaves die

/-! ## Sleep (R434) -/

def State.pwrStat (s : State) : Nat := s.field 60 0x22 0x0A0 1 0
def State.setPwrStat (s : State) (v : Nat) : State := s.setField 60 0x22 0x0A0 1 0 v

/-- The compute dies that sleep: powered and not fenced. -/
def State.sleepers (s : State) : List Nat :=
  (List.range 48).filter (fun d => !s.flt.fenced.contains d && !s.flt.outOfService.contains (.die d))

/-- The module sleeps; each stack that may enters self-refresh (R211, R434). -/
def State.fallAsleep (s : State) : State :=
  let t := forEach s.sleepers (fun d u => (u.setPd d 1 pdRetention).command d 600) s
  let t := forEach [48, 49, 50, 51] (fun r u => u.avsWrite r 620) t
  (forN 48 (fun st u => u.sleepStack st) t).setPwrStat 2

/-- The module wakes: rails and domains return, and the stacks leave self-refresh. -/
def State.wakeUp (s : State) : State :=
  let t := forEach [48, 49, 50, 51] (fun r u => u.avsWrite r 750) s
  let t := forEach t.sleepers (fun d u => (u.command d (u.binMv d (SMap.get (fun _ => 2) u.pwr.bins d))).pdService d) t
  (forN 48 (fun st u => u.wakeStack st) t).setPwrStat 0

/-- PWR_CTL.WAKE, or a DATA message for a sleeping slot: during entry the module wakes once entry is complete (R436). -/
def State.wakeModule (s : State) : State :=
  if s.pwrStat = 2 then s.wakeUp else if s.pwrStat = 1 then s.setPwrStat 3 else s

/-- SLEEP (R434). -/
def sleepReq (s : State) : State := if s.pwrStat = 0 then s.setPwrStat 1 else s

def execSleep (_ : Path) (s : State) : Out := ok (sleepReq s)
def execWake (_ : Path) (s : State) : Out := ok s.wakeModule

/-- SLEEP_ENTRY (R434): every slot stands at a step boundary and no module-step is REPLAYING. -/
def sleepEntry (s : State) : State :=
  let quiet := s.usedSlots.all (fun n => (s.slot n).phase == .idle || (s.slot n).phase == .computed)
    && s.ldg.recs.all (fun r => r.phase != .replaying)
  if (s.pwrStat = 1 ∨ s.pwrStat = 3) ∧ quiet then
    (if s.pwrStat = 3 then s.fallAsleep.wakeUp else s.fallAsleep)
  else s

def execSleepEntry (s : State) : Out := ok (sleepEntry s)

end Sys2Proof.Machine
end

