-- ==== Sys2Proof/Machine/Messages.lean ====
section
/-!
DEFINITION. Messages between modules as they arrive (R244 to R254): forwarding, the sequence rule of VC.3, resends and
down-lists, WRITE, FETCH, FETCH_DATA, COMPLETE, ARRIVE and RELEASE, and the LEDGER messages (R340).
-/

namespace Sys2Proof.Machine

/-! ## Kinds, virtual channels, tags -/

/-- The VCs on which a kind may travel (R245). -/
def kindVcs (k : Nat) : List Nat :=
  if k = 1 then [0, 2, 4] else if k = 2 then [0] else if k = 3 ∨ k = 4 then [1] else if k = 5 ∨ k = 6 ∨ k = 7 then [3] else []

/-- The issuing die that a message names, as `tags` numbers it (R246, R268): the link slot of a transfer's XFER_ID, the
link die of an arriving child node. -/
def issuerKey (m : Msg) : Option Nat :=
  if m.kind = 1 ∨ m.kind = 2 then some (tagKey m.src (m.xfer / 2 ^ 35 % 4) (m.xfer / 2 ^ 37 % 8))
  else if m.kind = 5 ∧ (SyncRef.mk m.aux).scope = 3 then some (tagKey m.src 1 (nodeDie (SyncRef.mk m.aux).obj - 48))
  else none

/-- A message is dross when its tag differs from the newest that a REPLAY notice has named for its issuer (R410). -/
def State.isDross (s : State) (m : Msg) : Bool :=
  match issuerKey m with
  | none => false
  | some k => let t := SMap.get (fun _ => 0) s.net.tags k; t != 0 && t != m.gen

/-! ## WRITE (R245, R246, R264 to R266, R351, R356, R358) -/

/-- The address lies in a mirror bay of the slot's stack (R373). -/
def State.inMirror (s : State) (m : Msg) : Bool :=
  let st := s.slotStack (aSlot m.addr)
  let off := aOff m.addr
  aSpace m.addr == 1 && decide (aSlot m.addr < 48) && xValid (s.xlat (aSlot m.addr)) && m.vc == 4
    && decide (s.bayOff st 2 ≤ off) && decide (off + m.len ≤ s.bayOff st 2 + 2 * s.bayBytes)

/-- The mirror bay that a tinning segment names. -/
def State.mirrorOf (s : State) (m : Msg) : Nat :=
  if aOff m.addr < s.bayOff (s.slotStack (aSlot m.addr)) 3 then 2 else 3

/-- Every ingot that a manifest in a mirror bay names has arrived there with the DIGEST that the manifest states. -/
def State.mirrorWhole (s : State) (man : List Byte) : Bool :=
  manifestGood man && (List.range (natAt man 7 1)).all (fun i =>
    let e := manifestEntry man i
    let a := natAt e 0x10 8
    let b := s.ldN (s.slotStack (aSlot a) * stackBytes + aOff a) 256
    ingotDigest b == bytesAt e 0x18 64 && ingotGood (s.ldN (s.slotStack (aSlot a) * stackBytes + aOff a) (ingotLen b)))

/-- A tinning segment at the receiving module (R373): written into the mirror bay; with the last segment of the manifest the
mirror is verified and kept, or the segment is refused. -/
def State.tinWrite (s : State) (die : Nat) (m : Msg) : State :=
  let st := s.slotStack (aSlot m.addr)
  let b := s.mirrorOf m
  let t := s.stN (st * stackBytes + aOff m.addr) (Msg.body m)
  let t := t.setBay st b ⟨1, m.step, 1, false, false⟩
  if m.xfer ≠ tinId 0x40 then t.answer die m 0
  else
    let pa := st * stackBytes + t.bayOff st b
    let n := 0x80 + 96 * natAt (t.ldN pa 128) 7 1
    if aOff m.addr + m.len < t.bayOff st b + n then t.answer die m 0
    else
      let man := t.ldN pa n
      if t.mirrorWhole man then
        let u := forEach t.compSlots (fun k v => v.setBay (v.slotStack k) b { v.bay (v.slotStack k) b with st := 2 }) t
        u.answer die m 0
      else t.answer die m 3

/-- A WRITE for a slot of this module; it wakes a sleeping module (R434). -/
def State.takeWrite (s : State) (die : Nat) (m : Msg) : State :=
  let sid := aSlot m.addr
  let s := if sid < 48 then s.wakeModule else s
  let r := s.slot sid
  if s.inMirror m then s.tinWrite die m
  else if 65536 < m.len then s.answer die m 3
  else if aSpace m.addr = 1 ∧ s.slotUsed sid ∧ sid < 48 ∧ !s.slotReach sid then s.answer die m 1
  else if r.phase = .replaying then s.answer die m 1
  else if s.net.seen.contains (m.src, m.xfer, sid * 2 ^ 32 + m.seg, m.step) then s.answer die m 0
  else if m.sync = 0 then (if s.canLand m then (s.land m).landed die m else s.answer die m 3)
  else
    let k := s.msgKey die m
    let o := s.obj k
    let open_ := o.sid != 64 && decide ((s.slot o.sid).step = m.step)
    let zero := m.aux % 2 == 1
    if open_ && o.deferral == 2 && !zero then s.answer die m 1
    else if open_ && o.deferral == 1 && !zero then s.answer die m 2
    else if !s.canLand m ∧ s.classify k m.step (SyncRef.mk m.sync).gen ≠ .unarmed then s.answer die m 3
    else s.sync [.arrive
      { key := k, step := m.step, gen := (SyncRef.mk m.sync).gen, amount := m.len, isData := true, first := m.seg == 0,
        msg := some m, die := die }]

/-! ## FETCH and FETCH_DATA (R245, R254) -/

/-- A FETCH is answered with the bytes at its address; a poisoned read is an uncorrectable error instead (R203, R212), and
while the stack cannot be reached there is no answer (R193). -/
def State.takeFetch (s : State) (die : Nat) (m : Msg) : State :=
  let n := m.aux
  let loc := s.resolve die m.step m.addr
  let okAddr := (aSpace m.addr == 1 && decide (aSlot m.addr < 48) && xValid (s.xlat (aSlot m.addr))) || aSpace m.addr == 3
  if n = 0 ∨ 65536 < n ∨ m.len ≠ 8 ∨ !okAddr then s.answer die m 3
  else if aSpace m.addr = 1 ∧ !s.slotReach (aSlot m.addr) then s
  else if s.poisonLoc loc n then
    match loc with
    | .near pa => s.poisonMet (s.firstPoison pa n)
    | .far p _ => (s.bump (hubOf p) 0x1F 0xC18).raise (hubOf p) 0x0501 { typ := 0x12, inst := p, detail := BitVec.ofNat 64 m.addr }
    | _ => s
  else
    (s.access die m.addr loc n false).sendMsg die
      { dst := m.src, src := s.moduleId, kind := 3, gen := s.dieTag die, step := m.step, xfer := m.xfer, seg := m.seg, len := n,
        addr := natAt m.data 0 8, sync := m.sync, data := s.readLoc loc n, vc := 1 }

/-- The link slot of a transfer's XFER_ID, and its op (R246). -/
def xferSid (x : Nat) : Nat := sidOf (x / 2 ^ 35 % 4) (x / 2 ^ 37 % 8)
def xferOp (x : Nat) : Nat := x / 2 ^ 40 % 2 ^ 24

/-- A FETCH_DATA: the reply to a GET, counted against its LOCAL_SYNC; the reply that restores a retained input (R209); the
partner's answer to a restore's inventory (R377); or a piece of an ingot fetched for a restore (R380). Another is dross. -/
def State.takeFetchData (s : State) (die : Nat) (m : Msg) : State :=
  let sid := aSlot m.addr
  let lsid := xferSid m.xfer
  let op := xferOp m.xfer
  let r : SyncRef := ⟨m.sync⟩
  let waits := s.net.fetches.any (fun f => f.1 == lsid && f.2.1 == op && decide (m.len ≤ f.2.2.2) && f.2.2.2 != 0)
  let kept := s.ldg.retained.find? (fun x => x.kind == 2 && x.sid == sid && x.step == m.step && x.op == op && x.seg == m.seg)
  let tin := xferOp m.xfer - 0xFFFF00
  if s.ckp.restoring = 1 ∧ m.sync = 0 ∧ s.ckp.asked.contains tin ∧ m.src = s.partner then s.mirrorAnswer tin (Msg.body m)
  else if s.ckp.restoring = 2 ∧ m.sync = 0 ∧ 0xFFFF00 ≤ xferOp m.xfer then
    s.stN (s.slotStack sid * stackBytes + aOff m.addr) (Msg.body m)
  else if m.sync = 0 then
    match kept with
    | some x => s.stN x.off (Msg.body m)
    | none => s.countDross die
  else if !waits || !s.canLand m then s.countDross die
  else
    let k := if r.scope = 2 then objKey (s.slotDie lsid) 2 0 r.obj else s.msgKey die m
    s.sync [.arrive
      { key := k, step := m.step, gen := r.gen, amount := m.len, isData := true, first := m.seg == 0, msg := some m, die := die,
        op := op }]

/-! ## COMPLETE (R245, R246, R254, R373) -/

/-- Every segment of an op has been answered DONE or STALE: the PUT is answered (R254, R333). -/
def State.putAnswered (s : State) (sid op : Nat) (st : Step) : State :=
  if s.net.segments.any (fun g => g.sid == sid && g.op == op && decide (g.msg.step = st)) then s
  else match s.stepRec st with
    | none => s
    | some r => (s.setRec { r with puts := r.puts.filter (fun e => e != (sid, op)) }).progress

/-- COMPLETE for a segment of this module: RETRY marks it for a resend; the others end its stream-tracker entry. -/
def State.takeComplete (s : State) (die : Nat) (m : Msg) : State :=
  let st := m.aux % 256
  let hit (g : Segment) : Bool :=
    !g.done && !g.retry && g.msg.xfer == m.xfer && g.msg.seg == m.seg && g.msg.dst == m.src && decide (g.msg.step = m.step)
  match s.net.segments.find? hit with
  | none => s.countDross die
  | some g =>
    let set (f : List Segment) : State := { s with net := { s.net with segments := f } }
    let ended (t : State) : State := t.untrack (fun x => x.sid == g.sid && x.op == g.op && x.seg == m.seg)
    let rest := s.net.segments.eraseP hit
    if g.sid ≠ 63 ∧ g.tag ≠ s.dieTag (s.slotDie g.sid) then (set rest).countDross die
    else if st = 1 then set (rest ++ [{ g with retry := true }])
    else if g.sid = 63 then
      (if st ≠ 0 then (set (rest.filter (fun x => x.sid != 63))).endMirror false
       else if rest.any (fun x => x.sid == 63) then set rest else (set rest).endMirror true)
    else if st = 0 ∨ st = 2 then (ended (set rest)).putAnswered g.sid g.op m.step
    else ended (set (rest ++ [{ g with done := true }]))

/-! ## ARRIVE, RELEASE and LEDGER -/

/-- ARRIVE: a remote signal, or the arrival of a child node with its release reference (R245, R268). -/
def State.takeArrive (s : State) (die : Nat) (m : Msg) : State :=
  let r : SyncRef := ⟨m.sync⟩
  let child : Option NodeChild := if r.scope = 3 then some ⟨m.src, m.aux, 64, m.gen⟩ else none
  s.sync [.arrive { key := s.msgKey die m, step := m.step, gen := r.gen, amount := 1, isData := false, child := child, die := die }]

/-- RELEASE: a release of a node, or the signal that releases a barrier op (R245, R268). -/
def State.takeRelease (s : State) (die : Nat) (m : Msg) : State :=
  let r : SyncRef := ⟨m.sync⟩
  if r.scope = 3 then s.sync [.release (s.msgKey die m) m.step r.gen]
  else s.sync [.arrive { key := s.msgKey die m, step := m.step, gen := r.gen, amount := 1, isData := false, die := die }]

/-- A LEDGER message by its type (R340, R378). -/
def State.takeLedger (s : State) (m : Msg) : State :=
  let t := m.aux % 256
  if m.aux / 256 ≠ 0 then s
  else if t = 1 then s.ldgChecked m
  else if t = 2 then s.ldgUncheck m
  else if t = 3 then s.ldgSeal m
  else if t = 4 then s.ldgReplay m
  else if t = 5 then s.ldgReopen m
  else if t = 6 then s.ldgDeferReq m
  else if t = 7 then s.ldgDefer m
  else if t = 8 then s.ldgInventory m
  else if t = 9 then s.ldgPick m
  else s

/-- A VC.3 message whose turn has come. -/
def State.vc3Deliver (s : State) (die : Nat) (m : Msg) : State :=
  if s.isDross m then s.countDross die
  else if m.kind = 5 then s.takeArrive die m
  else if m.kind = 6 then s.takeRelease die m
  else s.takeLedger m

/-! ## The sequence rule of VC.3 (R252) -/

def State.pair (s : State) (src : Nat) : PairState := SMap.get pairDflt s.net.pairs src
def State.setPair (s : State) (src : Nat) (p : PairState) : State :=
  { s with net := { s.net with pairs := SMap.set pairDflt s.net.pairs src p } }

/-- Delivers the next message and every held one that follows it; at most 65 in one go. -/
def vc3Run : Nat → Nat → Msg → State → State
  | 0, _, _, s => s
  | n + 1, die, m, s =>
    let p := s.pair m.src
    let t := (s.setPair m.src { p with next := (p.next + 1) % 2 ^ 24 }).vc3Deliver die m
    let p := t.pair m.src
    match p.early.find? (fun e => e.2.seg % 2 ^ 24 == p.next) with
    | none => t
    | some e => vc3Run n e.1 e.2 (t.setPair m.src { p with early := p.early.filter (fun x => x.2.seg % 2 ^ 24 != p.next) })

/-- The receiving state of a source after a message of an epoch arrives, or none when the message is older (R252). -/
def PairState.heard (p : PairState) (e : Nat) : Option PairState :=
  if e = 0 then none
  else if p.epoch = 0 then some { p with epoch := e, next := 0, early := [] }
  else
    let d := (e + 255 - p.epoch) % 255
    if d = 0 then some p else if d ≤ 127 then some { p with epoch := e, next := 0, early := [] } else none

/-- A VC.3 message arrives. -/
def State.vc3 (s : State) (die : Nat) (m : Msg) : State :=
  match (s.pair m.src).heard (m.seg / 2 ^ 24 % 256) with
  | none => s
  | some p =>
    let s := s.setPair m.src p
    let d := (m.seg % 2 ^ 24 + 2 ^ 24 - p.next) % 2 ^ 24
    if d = 0 then vc3Run 65 die m s
    else if d < 2 ^ 23 ∧ p.early.length < 64 ∧ !p.early.any (fun e => e.2.seg % 2 ^ 24 == m.seg % 2 ^ 24) then
      s.setPair m.src { p with early := p.early ++ [(die, m)] }
    else s

/-! ## Delivery -/

/-- A message for this module, past R253. -/
def State.accept (s : State) (die : Nat) (m : Msg) : State :=
  if m.vc = 3 then s.vc3 die m
  else if s.isDross m then s.countDross die
  else if m.kind = 1 then s.takeWrite die m
  else if m.kind = 2 then s.takeFetch die m
  else if m.kind = 3 then s.takeFetchData die m
  else s.takeComplete die m

/-- A message forwarded to its module (R248). -/
def State.forward (s : State) (die : Nat) (m : Msg) : State :=
  if m.hops = 0 then s.raise die 0x0110 { typ := 0x01 } else s.sendMsg die { m with hops := m.hops - 1 }

/-- The down-list of a port, when one is held. -/
def State.downList (s : State) (p : Nat) : Option (List (Nat × Nat × Nat)) :=
  (s.net.downLists.find? (fun e => e.1 == p)).map (fun e => e.2)

/-- A RESEND message against the down-list of its ORIG_PORT (R253): a duplicate is discarded and answered DONE. -/
def State.judgeResend (s : State) (die : Nat) (m : Msg) (l : List (Nat × Nat × Nat)) : State :=
  if l.contains (m.xfer, m.src, m.seg) then (if m.kind = 1 then s.answer die m 0 else s) else s.accept die m

def origPort (m : Msg) : Nat := m.flags / 4 % 64

/-- A message arrives at a link die (R245, R248, R253). -/
def State.deliver (s : State) (die : Nat) (m : Msg) : State :=
  if m.dst ≠ s.moduleId then s.forward die m
  else if !(kindVcs m.kind).contains m.vc then s.answer die m 3
  else if m.flags % 2 = 1 ∧ m.vc ≠ 3 then
    match s.downList (origPort m) with
    | some l => s.judgeResend die m l
    | none => { s with net := { s.net with held := s.net.held ++ [(die, m)] } }
  else s.accept die m

/-- A message of a kind, or of a reserved kind, at a link die. -/
def onMsg (kind die : Nat) (m : Msg) (s : State) : Out :=
  onUnit (decide (48 ≤ die ∧ die < 56)) (if m.kind = kind ∨ m.kind = 0 ∨ 7 < m.kind then s.deliver die m else s)

def execWrite (die : Nat) (m : Msg) (s : State) : Out := onMsg 1 die m s
def execFetch (die : Nat) (m : Msg) (s : State) : Out := onMsg 2 die m s
def execFetchData (die : Nat) (m : Msg) (s : State) : Out := onMsg 3 die m s
def execComplete (die : Nat) (m : Msg) (s : State) : Out := onMsg 4 die m s
def execArrive (die : Nat) (m : Msg) (s : State) : Out := onMsg 5 die m s
def execRelease (die : Nat) (m : Msg) (s : State) : Out := onMsg 6 die m s

/-- A LEDGER message of a type, delivered at the link die that carries the ledger's traffic. -/
def onLedger (typ : Nat) (m : Msg) (s : State) : Out :=
  ok (if m.kind = 7 ∧ m.aux % 256 = typ then s.deliver ledgerDie m else s)

def execChecked (m : Msg) (s : State) : Out := onLedger 1 m s
def execUncheck (m : Msg) (s : State) : Out := onLedger 2 m s
def execSeal (m : Msg) (s : State) : Out := onLedger 3 m s
def execReplay (m : Msg) (s : State) : Out := onLedger 4 m s
def execReopen (m : Msg) (s : State) : Out := onLedger 5 m s
def execDeferReq (m : Msg) (s : State) : Out := onLedger 6 m s
def execDefer (m : Msg) (s : State) : Out := onLedger 7 m s
def execInventory (m : Msg) (s : State) : Out := onLedger 8 m s
def execRestorePick (m : Msg) (s : State) : Out := onLedger 9 m s

/-! ## Timers -/

/-- SEGMENT_RETRY_RESEND (R266): a segment answered RETRY is sent again after 20 microseconds. -/
def segmentResend (xfer seg : Nat) (s : State) : State :=
  let hit (g : Segment) : Bool := g.retry && g.msg.xfer == xfer && g.msg.seg == seg
  match s.net.segments.find? hit with
  | none => s
  | some g =>
    let t := { s with net := { s.net with segments := s.net.segments.eraseP hit ++ [{ g with retry := false }] } }
    t.sendMsg (if g.sid = 63 then 48 else s.slotDie g.sid) g.msg

def execSegmentRetryResend (xfer seg : Nat) (s : State) : Out := ok (segmentResend xfer seg s)

/-- ROUTE_WAIT_TIMEOUT (R249, R250): messages have waited 1 ms for a port. -/
def routeWait (die : Nat) (s : State) : State :=
  let t := s.flushWaiting
  if t.net.waiting.any (fun e => e.1 == die) then t.raise die 0x0111 { typ := 0x01 } else t

def execRouteWaitTimeout (die : Nat) (s : State) : Out := onUnit (decide (48 ≤ die ∧ die < 56)) (routeWait die s)

/-- VC3_GAP_TIMEOUT (R252): early messages have been held for 10 ms behind a gap. -/
def vc3Gap (src : Nat) (s : State) : State :=
  match (s.pair src).early with
  | [] => s
  | e :: _ => s.raise e.1 0x0112 { typ := 0x01 }

def execVc3GapTimeout (src : Nat) (s : State) : Out := ok (vc3Gap src s)

/-- DOWN_LIST (R253): the link die of a DOWN port sends every link die the list of the messages that the port accepted
within its last 2,048 flits; held RESEND messages are judged against it. -/
def sendDownList (p : Nat) (s : State) : State :=
  if s.portPhase p ≠ 0 ∨ s.dieGone (brzDie p) then s
  else
    let now := (s.port p).rxTotal
    let l := ((SMap.get (fun _ => []) s.net.accepted p).filter (fun e => decide (now < e.1 + 2048))).map (fun e => e.2)
    let mine := s.net.held.filter (fun e => origPort e.2 == p)
    let t := { s with net := { s.net with
      downLists := SMap.put s.net.downLists p l, held := s.net.held.filter (fun e => origPort e.2 != p) } }
    forEach mine (fun e u => u.judgeResend e.1 e.2 l) t

def execDownList (port : Nat) (s : State) : Out := onUnit (decide (port < 48)) (sendDownList port s)

/-- The slot that a message is for: the one its DST_ADDR names, or the one whose transfer a COMPLETE answers. -/
def destSlot (m : Msg) : Option Nat :=
  if m.kind = 4 then some (xferSid m.xfer) else if aSpace m.addr = 1 then some (aSlot m.addr) else none

/-- RESEND_HOLD_TIMEOUT (R253): no down-list within 1 ms of the message; it is discarded, and the destination slot's share
of STEP is replayed. -/
def resendHold (die : Nat) (s : State) : State :=
  match s.net.held.find? (fun e => e.1 == die) with
  | none => s
  | some (_, m) =>
    let t := { s with net := { s.net with held := s.net.held.eraseP (fun e => e.1 == die) } }
    match destSlot m with
    | some sid => t.replayShare sid m.step
    | none => t

def execResendHoldTimeout (die : Nat) (s : State) : Out := onUnit (decide (48 ≤ die ∧ die < 56)) (resendHold die s)

/-- DIE_RT_DATA_WRITE (R247, R491): management firmware writes the entry that its DIE_RT_SEL names. -/
def routeWrite (p : Path) (die : Nat) (v : Word) (s : State) : State :=
  match s.checkWrite p die 0 0x108 v with
  | some r => s.reject die 0 0x108 r
  | none =>
    let k := die * 2 ^ 16 + (s.sel p die 0 0x100).toNat % 2 ^ 16
    let r := SMap.set (fun _ => BitVec.ofNat 64 (2 ^ 64 - 1)) s.net.routes k v
    ({ s with net := { s.net with routes := r } }).flushWaiting

def execDieRtDataWrite (p : Path) (die : Nat) (v : Word) (s : State) : Out :=
  onUnit (decide (48 ≤ die ∧ die < 56)) (routeWrite p die v s)

end Sys2Proof.Machine
end

