-- ==== Sys2Proof/Machine/Run.lean ====
section
/-!
DEFINITION. The run of an op (R38 to R41, R192): when it may start, what it reads and retains (R308, R335), its draws
(R77), how it writes outputs, and its completion with its flag word and signals (R121, R162, R174, R264).
-/

namespace Sys2Proof.Machine

/-! ## Start -/

/-- The op of an open slot-step that may act: the slot has the step open and is not stopped (R392). -/
def State.liveOp (s : State) (sid op : Nat) : Option Op :=
  let r := s.slot sid
  if r.phase = .opened ∧ !r.stopped ∧ op < s.hOpCount sid false then some (s.opAt sid false op) else none

/-- The op has raised a fault for which its die's collector has no place yet: its unit is held until one is free (R396). -/
def State.recordWaits (s : State) (sid op : Nat) : Bool :=
  ((SMap.get (fun _ => []) s.flt.collectors (s.slotDie sid)).drop 32).any (fun r => r.op == op && r.part == sid)

/-- The op of a command, when it is of the command's class and opcode and its unit is not held. -/
def State.opOf (s : State) (sid op cls opcode : Nat) : Option Op :=
  match s.liveOp sid op with
  | none => none
  | some o => if o.cls = cls ∧ o.opcode = opcode ∧ !s.recordWaits sid op then some o else none

/-- An op has started (R40). -/
def OpRun.started (r : OpRun) : Bool := r.phase == .running || r.phase == .computed || r.phase == .done

/-- Two ops hold overlapping accumulator or operand-buffer ranges of one core (R113, R114). -/
def rangesMeet (a b : Op) : Bool :=
  let acc (o : Op) : Nat × Nat := (fld (o.pword 2) 51 32, fld (o.pword 2) 19 0)
  let buf (o : Op) : Nat × Nat := (fld (o.pword 3) 44 32, fld (o.pword 3) 28 16)
  let meet (x y : Nat × Nat) : Bool := decide (x.1 < y.1 + y.2) && decide (y.1 < x.1 + x.2)
  meet (acc a) (acc b) || meet (buf a) (buf b)

/-- The ops before an op that hold it back: those of its class on its unit that have not started (R40), and matrix ops of
its core on overlapping ranges that have not completed (R113, R114). -/
def State.heldBack (s : State) (sid : Nat) (o : Op) : Bool :=
  (s.ops sid false).any (fun x => decide (x.index < o.index) && x.cls == o.cls && x.unit == o.unit
    && (!(s.opRun sid x.index).started || (o.cls == 0 && rangesMeet x o && (s.opRun sid x.index).phase != .done)))

/-- Every wait of an op is complete. -/
def Op.allReleased (o : Op) (r : OpRun) : Bool := o.waits.all (fun i => r.released / 2 ^ i % 2 == 1)

/-- An op that is not held back begins to wait: its waiters register and its barrier arrival leaves (R263, R269). -/
def State.issue (s : State) (sid : Nat) (o : Op) : State :=
  let r := s.opRun sid o.index
  if r.phase ≠ .idle ∨ s.heldBack sid o then s
  else
    let t := s.setOp sid o.index { r with phase := .waiting }
    t.sync (t.barrierActs sid o ++ t.waitActs sid o)

/-- A core of a slot, counted over the module. -/
def State.coreOf (s : State) (sid : Nat) (o : Op) : Nat := 4 * s.slotDie sid + o.unit % 4

/-! ## Reading -/

/-- The compute slot in whose crucible an op's retained input lies (R335). -/
def inputHome (sid : Nat) (o : Op) : Nat := if sid < 48 then sid else aSlot (o.opnd 0).addr

/-- The retained copy of an op's step input. -/
def State.keptInput (s : State) (sid : Nat) (o : Op) : Option Retained :=
  s.retainedOf (s.slot sid).step o.index sid 0 (fun r => r.sid == inputHome sid o)

/-- Where operand `i` is read: a replay reads the crucible copy of a retained input (R335, R350). -/
def State.operandLoc (s : State) (sid : Nat) (o : Op) (i : Nat) : Loc :=
  match (if o.retain ∧ i = 0 then s.keptInput sid o else none) with
  | some r => .near r.off
  | none => s.resolve (s.slotDie sid) (s.slot sid).step (o.opnd i).addr

def Op.inIdx (o : Op) : List Nat := (List.range o.nopnd).filter (fun i => !o.outIdx.contains i)

/-- Operand `i` is read from its source, not from a crucible copy. -/
def State.fromSource (s : State) (sid : Nat) (o : Op) (i : Nat) : Bool := !(o.retain && i == 0 && (s.keptInput sid o).isSome)

/-- The tiles of operand `i` whose hallmarks disagree, at its source or in its crucible copy (R308, R309). -/
def State.badOperand (s : State) (sid : Nat) (o : Op) (i : Nat) : List (Tensor × Nat) :=
  let a := (o.opnd i).addr
  if o.noEntry i then []
  else match (if o.retain ∧ i = 0 then s.keptInput sid o else none) with
    | some r => s.badKept (s.slot sid).step (s.tensors sid false) a (o.bytes i) r.off r.marks
    | none =>
      if o.outIdx.contains i then [] else s.badTiles (s.slotDie sid) (s.slot sid).step (s.tensors sid false) a (o.bytes i)

/-- The hallmarks of the tiles of operand `i`, as a crucible copy keeps them. -/
def State.operandMarks (s : State) (sid : Nat) (o : Op) (i : Nat) : List Nat :=
  if o.noEntry i then []
  else s.tileMarks (s.slotDie sid) (s.slot sid).step (s.tensors sid false) (o.opnd i).addr (o.bytes i)

/-- The first poisoned granule of a range at a location. -/
def State.poisonAt (s : State) (l : Loc) (n : Nat) : Option Loc :=
  ((s.poisonOffs l n).head?).map (fun d => l.add d)

/-- A poisoned granule among an op's inputs, the hallmark words that it reads with them, or the digest that a VERIFY reads
(R203). -/
def State.poisonInput (s : State) (sid : Nat) (o : Op) : Option Loc :=
  let die := s.slotDie sid
  let st := (s.slot sid).step
  let aux := s.resolve die st (o.p 3)
  if o.cls = 7 ∧ o.opcode = 3 ∧ s.poisonLoc aux (o.kp 63 56) then s.poisonAt aux (o.kp 63 56)
  else o.inIdx.findSome? (fun i =>
    let a := (o.opnd i).addr
    let l := s.operandLoc sid o i
    if s.poisonLoc l (o.bytes i) then s.poisonAt l (o.bytes i)
    else if !s.fromSource sid o i || o.noEntry i || aSpace a == 2 then none
    else match findTensor (s.tensors sid false) a (o.bytes i) with
      | none => none
      | some t => (t.touched (aPlain a) (o.bytes i)).findSome? (fun k =>
          let h := s.hmLoc die st t (ppOf a) k
          if s.poisonLoc h 4 then some h else none))

/-- An op meets poison: near memory is recovered (R209); a poisoned far read is an uncorrectable error of its hub, counted at
the port (R203, R212, R499). -/
def State.poisonHit (s : State) (sid : Nat) (o : Op) (l : Loc) : State :=
  match l with
  | .near pa => s.poisonMet pa
  | .far p off =>
    ((s.bump (hubOf p) 0x1F 0xC18).raise (hubOf p) 0x0501
      { typ := 0x12, inst := p, op := o.index, detail := BitVec.ofNat 64 (3 * 2 ^ 60 + p * 2 ^ 42 + off / 256 * 256) }).replayShare sid
        (s.slot sid).step
  | _ => s

/-- Every stack that an op's operands name answers by the way the translation gives (R193). -/
def State.operandsReach (s : State) (o : Op) : Bool :=
  o.opnds.all (fun d => aSpace d.addr != 1 || s.slotReach (aSlot d.addr))

/-- The reads of an op's operands: the stacks wake and the bytes are counted. -/
def State.readInputs (s : State) (sid : Nat) (o : Op) : State :=
  forEach o.inIdx (fun i t =>
    t.access (t.slotDie sid) (o.opnd i).addr (t.operandLoc sid o i) (o.bytes i) false) s

/-- Retains a step input as the op reads it (R335). A PULL's or GET's input is retained when it has arrived. -/
def State.retainInput (s : State) (sid : Nat) (o : Op) : State :=
  if o.retain ∧ o.inIdx.contains 0 ∧ (s.keptInput sid o).isNone then
    s.retain (inputHome sid o) (s.slot sid).step o.index sid 0 (s.readLoc (s.operandLoc sid o 0) (o.bytes 0)) none
      (s.operandMarks sid o 0)
  else s

/-- The requests of an op to memory and over the fabric (R44): one for each operand, and in the vector unit one for each
operand of every strand group (R153). A transfer's are those of its messages, and a SYNC or audit has none. -/
def State.opTracks (s : State) (sid : Nat) (o : Op) : List Track :=
  let die := s.slotDie sid
  let n := if o.cls = 1 then o.kp 45 37 else 1
  if o.cls = 0x0B ∨ 0x0E ≤ o.cls then []
  else (List.range n).flatMap (fun g => (List.range o.nopnd).map (fun i =>
    { die := die, unit := o.unit, sid := sid, op := o.index, seg := g * 16 + i, target := (o.opnd i).addr, count := o.bytes i,
      tag := s.dieTag die }))

/-- The context of the core that an op runs on is saved: no op of it starts before the restore (R120, R143, R164). -/
def State.coreSaved (s : State) (sid : Nat) (o : Op) : Bool :=
  decide (o.unit < 4) && decide (sid < 48) && decide (o.cls ≤ 2) && (s.core (s.coreOf sid o)).ctx.isSome

/-- An op starts: its inputs are read, checked and retained. It waits while a stack that it names cannot be reached (R193), or
its die has no stream-tracker entry free (R45). With a poisoned input it is recovered instead (R209); with a
hallmark mismatch the op waits for the tile to be read once more (R309). -/
def State.begin' (s : State) (sid : Nat) (o : Op) : State × Bool :=
  let s := s.issue sid o
  let r := s.opRun sid o.index
  if r.phase ≠ .waiting ∨ !o.allReleased r ∨ s.heldBack sid o ∨ !s.operandsReach o ∨ s.coreSaved sid o then (s, false)
  else match s.poisonInput sid o with
    | some l => (s.poisonHit sid o l, false)
    | none =>
      if (List.range o.nopnd).any (fun i => !(s.badOperand sid o i).isEmpty) then (s, false)
      else if !s.trackRoom (s.slotDie sid) (s.opTracks sid o).length then (s, false)
      else
        let t := (((s.readInputs sid o).retainInput sid o).track (s.opTracks sid o)).setOp sid o.index { r with phase := .running }
        let t := if o.unit < 4 ∧ sid < 48 ∧ (t.core (t.coreOf sid o)).declared then t.setDeclared (t.coreOf sid o) false else t
        (t, true)

/-! ## Values and draws -/

/-- The logical tensor ID of operand `i` (R306). -/
def State.tensorId (s : State) (sid : Nat) (o : Op) (i : Nat) : Nat :=
  match findTensor (s.tensors sid false) (o.opnd i).addr (o.bytes i) with
  | some t => t.id
  | none => (Config.dsmTensor s.jobId.toNat (s.coordBase sid) (s.coordExt sid) o.index).toNat

/-- The tile of its tensor at which operand `i` starts (R306, R307). -/
def State.firstTile (s : State) (sid : Nat) (o : Op) (i : Nat) : Nat :=
  match findTensor (s.tensors sid false) (o.opnd i).addr (o.bytes i) with
  | some t => (aPlain (o.opnd i).addr - t.base) / tileBytes t.fmt
  | none => 0

/-- ROW and COL of element (r, c) of matrix `b` of the part of a tensor that starts at tile `t`, in the logical view that the
plan of the slot's coordinates declares (R77). -/
def State.viewOf (s : State) (sid id t b r c : Nat) : Nat × Nat :=
  let v := (s.partView sid id t).toNat
  (v / 2 ^ 96 + b * (v / 2 ^ 32 % 2 ^ 32) + r, v / 2 ^ 64 % 2 ^ 32 + c)

def State.drawKey (s : State) (sid id : Nat) : DrawKey := { job := s.jobId, step := (s.slot sid).step, tensor := id }

/-- The draws of an op's main output (R77); none is taken without RND. -/
def State.drawsOf (s : State) (sid : Nat) (o : Op) (i : Nat) : Nat → Nat → Nat → BitVec 32 :=
  if o.cvt.rnd then
    let id := s.tensorId sid o i
    let t := s.firstTile sid o i
    let k := s.drawKey sid id
    fun b r c => let p := s.viewOf sid id t b r c; draw k p.1 p.2 o.cvt.seq
  else fun _ _ _ => 0

/-- The binary64 value of element (r, c) of matrix `b` of operand `i`, TRANS applied (R72, R107). -/
def State.inVal (s : State) (sid : Nat) (o : Op) (i b r c : Nat) : Word :=
  fvTo64 (s.elemT (s.operandLoc sid o i) (o.opnd i).shape b r c)

/-- The bytes of a whole operand. -/
def State.inBytes (s : State) (sid : Nat) (o : Op) (i : Nat) : List Byte := s.readLoc (s.operandLoc sid o i) (o.bytes i)

/-! ## Writing -/

def State.putOut (s : State) (sid : Nat) (o : Op) (i : Nat) (bs : List Byte) : State := s.putAt sid o i 0 bs

/-- The last output of an op is written, and its requests end. -/
def State.finish (s : State) (sid : Nat) (o : Op) (flags : Nat) : State :=
  let r := s.opRun sid o.index
  let t := if o.cls = 0x0B then s else s.untrack (fun x => x.sid == sid && x.op == o.index)
  t.setOp sid o.index { r with phase := .computed, flags := Nat.lor r.flags flags }

/-- A tensor of values written as output `i` under the op's CVT; answers the conversion flags. -/
def State.putTensor (s : State) (sid : Nat) (o : Op) (i : Nat) (raw : Bool) (val : Nat → Nat → Nat → Word) : State × CvtFlags :=
  let p := packTensor o.cvt raw (o.opnd i).shape val (s.drawsOf sid o i)
  (s.putOut sid o i p.1, p.2)

/-- Control word of an output written as unrounded binary64. -/
def cvt64 : Cvt := { fmt := 11, blkax := 0, rnd := false, sat := false, seq := 0 }

/-- A binary64 tensor written unrounded as output `i`. -/
def State.putRaw (s : State) (sid : Nat) (o : Op) (i : Nat) (val : Nat → Nat → Nat → Word) : State :=
  s.putOut sid o i (packTensor cvt64 true (o.opnd i).shape val (fun _ _ _ => 0)).1

/-- The values of a tensor of a shape, by matrix, row and column. -/
def gridOf (w : Nat) : List (Nat × Nat × Nat) :=
  (List.range (shBatch w)).flatMap (fun b => (List.range (shRows w)).flatMap (fun r => (List.range (shCols w)).map (fun c => (b, r, c))))

def flagBit (b : Bool) (n : Nat) : Nat := if b then 2 ^ n else 0

/-! ## Completion -/

/-- The page, flag and first-op registers that an op's flags go to (R121, R162, R174); none for other units. -/
def flagPage (sid : Nat) (o : Op) : Option (Nat × Nat × Nat) :=
  if o.cls = 0 then some (0x01 + o.unit, 0x048, 0x050)
  else if o.cls = 1 then some (0x09 + o.unit, 0x040, 0x048)
  else if 3 ≤ o.cls ∧ o.cls ≤ 9 ∧ sid < 48 then some (0x0D, 0x048, 0x050)
  else none

/-- ORs an op's flags into its unit's register, and records the first op that set one. -/
def State.raiseFlags (s : State) (sid : Nat) (o : Op) (flags : Nat) : State :=
  match flagPage sid o with
  | none => s
  | some (blk, off, first) =>
    let die := s.slotDie sid
    let t := s.wr die blk off (s.rd die blk off ||| BitVec.ofNat 64 flags)
    if flags ≠ 0 ∧ t.field die blk first 63 63 = 0 then
      t.wr die blk first (BitVec.ofNat 64 (2 ^ 63 + (stepWord (s.slot sid).step).toNat % 2 ^ 32 * 2 ^ 24 + o.index))
    else t

/-- Writes an op's flag word at FLAG_ADDR. -/
def State.flagWord (s : State) (sid : Nat) (o : Op) (flags : Nat) : State :=
  if o.flagAddr = 0 then s
  else s.writeLoc (s.resolve (s.slotDie sid) (s.slot sid).step o.flagAddr) (leBytes 2 flags)

/-- A transfer op has nothing on its way (R254). -/
def State.transferEnded (s : State) (sid : Nat) (o : Op) : Bool :=
  if o.cls ≠ 0x0B then true
  else if o.opcode = 1 then
    !(s.net.segments.any (fun g => g.sid == sid && g.op == o.index && decide (g.msg.step = (s.slot sid).step)))
  else s.net.fetches.all (fun f => !(f.1 == sid && f.2.1 == o.index) || f.2.2.2 == 0)

/-- Some op of a core is running. -/
def State.coreBusy (s : State) (sid : Nat) (u : Nat) : Bool :=
  (s.ops sid false).any (fun x => x.unit == u && decide (x.cls ≤ 2) && (s.opRun sid x.index).phase == .running)

/-- Strands resident on a core: 32 for each group of its running vector ops (R153). -/
def State.resident (s : State) (sid u : Nat) : Nat :=
  ((s.ops sid false).filter (fun x => x.unit == u && x.cls == 1
      && ((s.opRun sid x.index).phase == .running || (s.opRun sid x.index).phase == .computed))).foldl
    (fun a x => a + 32 * x.kp 45 37) 0

/-- Shows the resident strands of a core, and their peak (R181). -/
def State.showStrands (s : State) (sid u : Nat) : State :=
  let die := s.slotDie sid
  let n := s.resident sid u
  let t := s.setField die (0x09 + u) 0x050 13 0 n
  t.setField die (0x09 + u) 0x050 29 16 (Nat.max n (t.field die (0x09 + u) 0x050 29 16))

/-! ## Ramps (R118, R119, R424) -/

/-- A core asks its quadrant's governor for a grant (R424). -/
def State.askGrant (s : State) (core : Nat) : State :=
  { s with pwr := { s.pwr with waiting := NSet.add s.pwr.waiting core } }

/-- A matrix op starts, and the core takes COR_RAMP as it now stands (R122): after an idle of 512 cycles or more the core ramps
in the modes that ramp; a taper turns back into a ramp; a gap ends at full rate (R118). -/
def State.rampStart (s : State) (core : Nat) : State :=
  let s := s.setCore core { s.core core with rampCfg := s.rd (arrDie core) (corBlk core) 0x040, fill := 0 }
  let x := s.core core
  let ramps := s.rampMode core = 1 ∨ s.rampMode core = 3
  if x.ramp = 0 then
    let t := (s.askGrant core).setCore core { x with ramp := if ramps then 1 else 2 }
    if ramps then t.bump (arrDie core) (corBlk core) 0xC10 else t
  else if x.ramp = 4 then s.setCore core { x with ramp := 1 }
  else s.setCore core { x with ramp := 2 }

/-- A matrix op is ready to start: each of its waits is complete (R118). -/
def State.opReady (s : State) (sid : Nat) (x : Op) : Bool :=
  let r := s.opRun sid x.index
  (r.phase == .waiting && x.allReleased r) || (r.phase == .idle && x.waits.isEmpty)

/-- A core's last matrix op has completed and another is ready: fill bridges the gap in the modes that fill, unless the core
holds a declared wait (R118, R119). -/
def State.rampGap (s : State) (sid : Nat) (o : Op) : State :=
  let core := s.coreOf sid o
  let ms := (s.ops sid false).filter (fun x => x.cls == 0 && x.unit == o.unit)
  let busy := ms.any (fun x => (s.opRun sid x.index).phase == .running)
  let next := ms.any (s.opReady sid)
  let fills := s.rampMode core == 2 || s.rampMode core == 3
  if o.cls ≠ 0 ∨ busy then s
  else if next && fills && !(s.core core).declared then
    (s.setCore core { s.core core with ramp := 3, fill := fld (s.core core).rampCfg 11 8 }).fillRows core
  else s.setCore core { s.core core with ramp := 2 }

/-- OP_COMPLETE (R41, R121, R162, R174, R264): flags and flag word are written, then the op's signals and byte counts go
out; the op is no suspect any more (R403). -/
def opComplete (sid op : Nat) (s : State) : State :=
  match s.liveOp sid op with
  | none => s
  | some o =>
    let r := s.opRun sid op
    if r.phase ≠ .computed ∨ !s.transferEnded sid o ∨ o.cls = 0x10 ∨ s.holdsWrites sid op then s
    else
      let t := (s.raiseFlags sid o r.flags).flagWord sid o r.flags
      let t := (t.setOp sid op { r with phase := .done }).rampGap sid o
      let t := if o.cls = 1 then t.showStrands sid o.unit else t
      let t := { t with
        flt := { t.flt with suspects := t.flt.suspects.filter (fun x => x != (sid, op)) },
        net := { t.net with fetches := t.net.fetches.filter (fun f => !(f.1 == sid && f.2.1 == op)) } }
      (t.sync (t.signalActs sid o)).progress

def execOpComplete (sid op : Nat) (s : State) : Out := onUnit (decide (sid < 60)) (opComplete sid op s)

end Sys2Proof.Machine
end

