-- ==== Sys2Proof/Machine/Arrays.lean ====
section
/-!
DEFINITION. Physical arrays: the map of logical arrays (R104, R128), array states and checker strikes (R315, R316, R318),
restrictions (R323, R324), condition histograms (R322), and the touchstone library (R319, R320).
-/

namespace Sys2Proof.Machine

/-! ## Registers of the array-group page -/

def arrBlk (core : Nat) : Nat := 0x05 + core % 4

/-- ARY_STATE[a].STATE (R128). -/
def State.aryState (s : State) (core a : Nat) : Nat := s.field (arrDie core) (arrBlk core) (0x040 + 8 * a) 2 0
def State.setAryState (s : State) (core a v : Nat) : State := s.setField (arrDie core) (arrBlk core) (0x040 + 8 * a) 2 0 v

def aryDflt (_ : Nat) : ArrayRec := {}
def State.array (s : State) (core a : Nat) : ArrayRec := SMap.get aryDflt s.units.arrays (core * 8 + a)
def State.setArray (s : State) (core a : Nat) (r : ArrayRec) : State :=
  let t := { s with units := { s.units with arrays := SMap.set aryDflt s.units.arrays (core * 8 + a) r } }
  t.setField (arrDie core) (arrBlk core) (0x040 + 8 * a) 15 8 r.marks.length

/-- Adds to a counter of the array-group page. -/
def State.aryBump (s : State) (core off : Nat) : State := s.bump (arrDie core) (arrBlk core) off

/-- The physical array of a logical array (R104, R128). -/
def State.physOf (s : State) (core l : Nat) : Nat := s.field (arrDie core) (arrBlk core) 0x078 (3 * l + 2) (3 * l)
def State.setPhys (s : State) (core l a : Nat) : State := s.setField (arrDie core) (arrBlk core) 0x078 (3 * l + 2) (3 * l) a

/-- The logical array that a physical array serves. -/
def State.logOf (s : State) (core a : Nat) : Option Nat := (List.range 6).find? (fun l => s.physOf core l == a)

/-- Thresholds and windows of ASY_CTL (R327). -/
def State.quarTh (s : State) (core : Nat) : Nat := s.field (arrDie core) (arrBlk core) 0x080 7 4
def State.chkTh (s : State) (core : Nat) : Nat := s.field (arrDie core) (arrBlk core) 0x080 11 8
def State.forceDual (s : State) (core : Nat) : Bool := s.field (arrDie core) (arrBlk core) 0x080 16 16 == 1

/-- Strikes and state of an array's checker (R327). -/
def State.strikes (s : State) (core a : Nat) : Nat := s.field (arrDie core) (arrBlk core) 0x088 (4 * a + 31) (4 * a + 28)
def State.checker (s : State) (core a : Nat) : Nat := s.field (arrDie core) (arrBlk core) 0x088 (2 * a + 1) (2 * a)
def State.setStrikes (s : State) (core a n st : Nat) : State :=
  let t := s.setField (arrDie core) (arrBlk core) 0x088 (4 * a + 31) (4 * a + 28) n
  t.setField (arrDie core) (arrBlk core) 0x088 (2 * a + 1) (2 * a) st

/-- A core's standby array can serve: it is neither quarantined nor replacing another (R104, R313). -/
def State.standbyFree (s : State) (core : Nat) : Bool := s.aryState core 6 != 2 && s.aryState core 6 != 4

/-- The cores whose standby arrays serve a core's assays, in order (R104, R313). -/
def State.standbys (s : State) (core : Nat) : List Nat :=
  ((List.range 4).map (fun i => core / 4 * 4 + (core + i) % 4)).filter s.standbyFree

/-- The slot of a die moves to a spare at its next step boundary (R104, R315, R318). -/
def State.moveSlot (s : State) (die : Nat) : State :=
  match s.dieSlot die with
  | some sid => s.setSlot sid { s.slot sid with moveDue := true }
  | none => s

/-- The number of checkers of a core that are retired. -/
def State.retiredChecks (s : State) (core : Nat) : Nat := ((List.range 7).filter (fun a => s.checker core a == 2)).length

/-- A core with a retired checker whose standby array no longer serves it, or with a second one retired, has its slot moved to
a spare (R318). -/
def State.dualLost (s : State) (core : Nat) : State :=
  let n := s.retiredChecks core
  if 2 ≤ n ∨ (n = 1 ∧ !s.standbyFree core) then s.moveSlot (arrDie core) else s

/-- A logical array is mapped to A.6 (R104, R316); when A.6 cannot serve, the core's slot moves. -/
def State.mapToStandby (s : State) (core a : Nat) : State :=
  match s.logOf core a with
  | none => s
  | some l =>
    if a = 6 ∨ !s.standbyFree core ∨ s.aryState core 6 = 3 then s.moveSlot (arrDie core)
    else
      let t := s.setArray core 6 { s.array core 6 with before := s.aryState core 6 }
      ((t.setPhys core l 6).setAryState core 6 4).dualLost core

/-- A logical array served by A.6 is mapped back to the replaced array (R104, R316). -/
def State.mapBack (s : State) (core a : Nat) : State :=
  match s.logOf core 6 with
  | some l =>
    if s.aryState core 6 = 4 ∧ l = a then
      ((s.setPhys core l a).setAryState core 6 (s.array core 6).before).setArray core a { s.array core a with back := false }
    else s
  | none => s

/-- ARY_MAP has been written by management firmware (R128): A.6 that now serves a logical array reads REPLACING, and one that
serves none any more returns to its state before. -/
def State.mapWritten (s : State) (core : Nat) (old new : Word) : State :=
  let has (w : Word) : Bool := (List.range 6).any (fun l => fld w (3 * l + 2) (3 * l) == 6)
  if has new && !has old then
    (s.setArray core 6 { s.array core 6 with before := s.aryState core 6 }).setAryState core 6 4
  else if has old && !has new && s.aryState core 6 == 4 then s.setAryState core 6 (s.array core 6).before
  else s

/-! ## Histograms (R322) -/

def tempBand (t : Int) : Nat := if t < 40 then 0 else if 105 ≤ t then 14 else ((t - 40) / 5).toNat + 1
def vddBand (v : Nat) : Nat := if v < 600 then 32 else Nat.min 10 ((v - 600) / 25) + 33

def State.histBump (s : State) (core a band : Nat) : State :=
  let k := (core * 8 + a) * 2 ^ 20 + band
  let z : Nat → Nat := fun _ => 0
  { s with units := { s.units with histogram := SMap.set z s.units.histogram k (SMap.get z s.units.histogram k + 1) } }

/-- A confirmed fault is counted in the array's bands. -/
def State.histogram (s : State) (core a : Nat) (c : Cond) (bin : Nat) : State :=
  (((s.histBump core a (tempBand c.temp)).histBump core a (vddBand c.vdd)).histBump core a (64 + bin)).histBump core a
    (96 + c.activity)

/-- The bin of a die. -/
def State.dieBin (s : State) (die : Nat) : Nat := SMap.get (fun _ => 2) s.pwr.bins die

/-! ## Confirmed faults (R315, R316, R323) -/

/-- ARY_RESTRICT[a]: BINS_OK, TEMP_MAX, ACT_MAX (R327). -/
def restrictOff (a : Nat) : Nat := 0x0C0 + 8 * a
def State.restrict (s : State) (core a hi lo v : Nat) : State := s.setField (arrDie core) (arrBlk core) (restrictOff a) hi lo v
def State.restrictOf (s : State) (core a hi lo : Nat) : Nat := s.field (arrDie core) (arrBlk core) (restrictOff a) hi lo
def State.unrestrict (s : State) (core a : Nat) : State :=
  ((s.restrict core a 55 52 0xF).restrict core a 47 40 105).restrict core a 35 32 8

/-- The conditions lie within an array's restriction (R324). -/
def State.within (s : State) (core a : Nat) (temp : Int) (bin act : Nat) : Bool :=
  decide (temp ≤ (s.restrictOf core a 47 40 : Int)) && s.restrictOf core a 55 52 / 2 ^ bin % 2 == 1
    && decide (act ≤ s.restrictOf core a 35 32)

/-- The restriction of clustered faults, if they cluster: the field of ARY_RESTRICT and its value (R323). The hours of
fault-free operation outside each band are free values. -/
def clusterOf (marks : List FaultMark) (binsOk free : Nat) : Option (Nat × Nat × Nat) :=
  let cool (i : Nat) : Bool := decide (10 ≤ Config.coolHours (free + i))
  let lowT := (marks.map (fun m => tempBand m.temp)).foldl Nat.min 99
  let tmax := 40 + 5 * (lowT - 1) - 1
  let bins := marks.map (fun m => m.bin)
  let lowA := (marks.map (fun m => m.activity)).foldl Nat.min 99
  if 1 ≤ lowT ∧ 60 ≤ tmax ∧ cool 0 then some (47, 40, tmax)
  else if bins.all (fun b => b == bins.headD 0) ∧ cool 1 then some (55, 52, binsOk - binsOk / 2 ^ bins.headD 0 % 2 * 2 ^ bins.headD 0)
  else if 2 ≤ lowA ∧ cool 2 then some (35, 32, lowA - 1)
  else none

/-- A confirmed fault of an array (R316). -/
def State.confirmFault (s : State) (core a : Nat) (c : Cond) : State :=
  let bin := s.dieBin (arrDie core)
  let r := s.array core a
  let st := s.aryState core a
  let marks := r.marks ++ [⟨c.temp, bin, c.activity⟩]
  let n := marks.length
  let t := (s.histogram core a c bin).setArray core a { r with marks := marks, passes := 0 }
  if st = 0 then t.setAryState core a 1
  else if st = 1 then
    if n < s.quarTh core then t
    else
      let u := { t with free := t.free + 3 }
      match clusterOf marks (t.restrictOf core a 55 52) t.free with
      | some (hi, lo, v) => (u.setAryState core a 3).restrict core a hi lo v
      | none => ((u.setAryState core a 2).mapToStandby core a).dualLost core
  else if st = 3 then
    if s.within core a c.temp bin c.activity then ((t.setAryState core a 2).unrestrict core a).mapToStandby core a else t
  else if st = 4 then
    if n < s.quarTh core then t else (t.setAryState core a 2).moveSlot (arrDie core)
  else t

/-- A checker strike (R316, R318). -/
def State.strike (s : State) (core a : Nat) : State :=
  let n := Nat.min 15 (s.strikes core a + 1)
  if n < s.chkTh core ∧ s.checker core a ≠ 2 then s.setStrikes core a n 1
  else if s.aryState core a = 2 then s.setStrikes core a n 1
  else (s.setStrikes core a n 2).dualLost core

/-- A die becomes SUSPECT; a second decision within the window takes it out of service at its slot's next boundary
(R315). -/
def State.suspectDie (s : State) (die : Nat) : State :=
  if s.stu.suspectDies.contains die then
    ({ s with stu := { s.stu with outDies := NSet.add s.stu.outDies die } }).moveSlot die
  else { s with stu := { s.stu with suspectDies := NSet.add s.stu.suspectDies die } }

/-- A restricted array whose conditions leave its restriction is mapped to A.6; otherwise it may be mapped back at the next
step boundary (R324). -/
def State.holdRestriction (s : State) (core a : Nat) (temp : Int) (act : Nat) : State :=
  if s.aryState core a ≠ 3 then s
  else
    let tmax : Int := (s.restrictOf core a 47 40 : Int)
    let amax := s.restrictOf core a 35 32
    if tmax < temp ∨ amax < act then (s.setArray core a { s.array core a with back := false }).mapToStandby core a
    else if temp + 3 ≤ tmax ∧ act ≤ amax then s.setArray core a { s.array core a with back := true }
    else s

/-! ## The touchstone library (R319, R320) -/

/-- What a touchstone entry holds of its failing chunk. -/
structure Capture where
  kind : Nat
  fmt : Nat
  core : Nat
  array : Nat
  op : Nat
  cond : Cond
  pack : Nat
  len : Nat
  row : List Byte
  slice : List Byte
  sums : List LaneResult
  entryIn : Word := 0
  entryOut : Word := 0
  deriving DecidableEq, Repr

/-- The bit mask of lanes that took the g = 5 result. -/
def repeatMask (rs : List LaneResult) : Nat := (rs.reverse).foldl (fun m r => 2 * m + (if r.repeated then 1 else 0)) 0

/-- Bytes 0x100 to 0x3FFF of an entry. -/
def Capture.body (c : Capture) : List Byte :=
  bytesAt c.row 0 256 ++ bytesAt c.slice 0 0x2200
    ++ bytesAt (c.sums.flatMap (fun r => leBytes 4 (BitVec.ofInt 32 r.sum).toNat)) 0 512
    ++ bytesAt (c.sums.flatMap (fun r => leBytes 2 (BitVec.ofInt 16 r.top).toNat)) 0 256
    ++ leBytes 16 (repeatMask c.sums) ++ leBytes 16 c.entryIn.toNat ++ leBytes 16 c.entryOut.toNat ++ zeros 6352

/-- An entry from its header (bytes 0 to 0x3F) and body, with its digest (R320). -/
def entryOf (head body : List Byte) : List Byte :=
  let tail := zeros 128 ++ body
  head ++ shake256 64 (head ++ tail) ++ tail

/-- The header of a captured entry. -/
def State.entryHead (s : State) (c : Capture) (idx hits : Nat) (step last : Word) : List Byte :=
  leBytes 2 idx ++ leBytes 1 c.kind ++ leBytes 1 c.fmt ++ leBytes 2 s.moduleId
    ++ leBytes 2 (arrDie c.core * 2 ^ 10 + c.core % 4 * 2 ^ 8 + c.array * 2 ^ 5) ++ leBytes 8 step.toNat
    ++ leBytes 4 c.op ++ leBytes 2 (BitVec.ofInt 16 c.cond.temp).toNat ++ leBytes 2 c.cond.vdd
    ++ leBytes 1 (s.dieBin (arrDie c.core)) ++ leBytes 1 c.cond.activity ++ leBytes 1 c.pack ++ leBytes 1 c.len
    ++ leBytes 4 hits ++ leBytes 8 last.toNat ++ zeros 24

/-- The lowest index that the library does not use; the entry whose last failure is oldest when it is full. -/
def libraryIndex (l : List Touchstone) : Nat :=
  if l.length < 4096 then ((List.range 4096).find? (fun i => !l.any (fun e => e.index == i))).getD 0
  else ((l.foldl (fun (b : Option Touchstone) e =>
    match b with
    | none => some e
    | some x => if natAt e.bytes 0x20 8 < natAt x.bytes 0x20 8 then some e else some x) none).map (fun e => e.index)).getD 0

/-- Puts an entry into the library. -/
def State.putEntry (s : State) (idx : Nat) (bs : List Byte) : State :=
  { s with units := { s.units with library := s.units.library.filter (fun e => e.index != idx) ++ [⟨idx, bs⟩] } }

/-- Captures a failing chunk (R319): an entry that matches from byte 0x100 upwards counts one more hit instead. Answers the
entry when it is new (R502), and its index. -/
def State.capture (s : State) (sid : Nat) (c : Capture) : State × List Byte × Nat :=
  let step := s.stepOf sid
  let body := c.body
  match s.units.library.find? (fun e => e.bytes.drop 0x100 == body) with
  | some e =>
    let head := e.bytes.take 0x1C ++ leBytes 4 (natAt e.bytes 0x1C 4 + 1) ++ leBytes 8 step.toNat ++ zeros 24
    let bs := entryOf head body
    (s.putEntry e.index bs, [], e.index)
  | none =>
    let i := libraryIndex s.units.library
    let bs := entryOf (s.entryHead c i 1 step step) body
    (s.putEntry i bs, bs, i)

end Sys2Proof.Machine
end

