-- ==== Sys2Proof/Machine/Matrix.lean ====
section
/-!
DEFINITION. Class-0x00 ops (R109 to R115): entries of the accumulator buffer, chunks as units of work (R100), PRODUCT in
fast and strict mode, K_FOLD and ACC_WRITE.
-/

namespace Sys2Proof.Machine

/-! ## Entries (R92, R113) -/

def accDflt (_ : Nat) : AccEntry := {}

/-- The entry of lane number `lin` of an op's allocation. A PRODUCT's lanes fit its allocation (R113); a K_FOLD or ACC_WRITE
with more lanes than ACC_LEN, for which the spec states no need, goes round its allocation again (DESIGN CHOICE, log entry 9). -/
def accKey (core base len lin : Nat) : Nat := core * 2 ^ 19 + base + lin % Nat.max 1 len

def State.acc (s : State) (k : Nat) : AccEntry := SMap.get accDflt s.units.acc k
def State.setAcc (s : State) (k : Nat) (e : AccEntry) : State :=
  { s with units := { s.units with acc := SMap.set accDflt s.units.acc k e } }

/-- Rows, columns and batch of a matrix op's result, and its reduction length. -/
structure MatDims where
  m : Nat
  n : Nat
  batch : Nat
  k : Nat
  deriving DecidableEq, Repr

def Op.matDims (o : Op) : MatDims :=
  let w := (o.opnd 0).shape
  if o.opcode = 1 then ⟨shR w, shC (o.opnd 1).shape, shBatch w, shC w⟩
  else ⟨shR w, shC w, shBatch w, 0⟩

/-- Rows of a row group, and the number of row groups of a matrix (R112). -/
def Op.rowGrp (o : Op) : Nat := fld (o.pword 3) 63 48
def Op.groups (o : Op) : Nat := cdiv o.matDims.m o.rowGrp

/-- The matrices that run at once, and those whose entries are kept apart (R113, R115). -/
def Op.roundSize (o : Op) : Nat := Nat.max 1 (Nat.min (problems o.pack) o.matDims.batch)
def Op.entryMats (o : Op) : Nat := if o.keep ∧ o.pack ≠ 0 then Nat.max 1 o.matDims.batch else o.roundSize

/-- The number of element (i, j) of matrix `b` among an op's lanes: by matrix, row and column. In a PRODUCT the row groups that
run at once, one on each array, take the places in turn, and later ones reuse them (R113). Which lane takes which entry is
not stated (DESIGN CHOICE, log entry 9). -/
def Op.lane (o : Op) (b i j : Nat) : Nat :=
  let d := o.matDims
  if o.opcode ≠ 1 then (b * d.m + i) * d.n + j
  else
    let rg := Nat.min o.rowGrp d.m
    let n := popcount o.arrays
    ((b % o.entryMats) * Nat.min d.m (n * rg) + (i / rg % n * rg + i % rg)) * d.n + j

/-- The entry of element (i, j) of matrix `b` of an op's result. -/
def State.laneKey (s : State) (sid : Nat) (o : Op) (b i j : Nat) : Nat :=
  accKey (s.coreOf sid o) (fld (o.pword 2) 51 32) (fld (o.pword 2) 19 0) (o.lane b i j)

/-- The position of the accumulate-input operand (R111). -/
def Op.accOpnd (o : Op) : Nat := if o.keep then 2 else 3

/-- The elements of an op's result, by matrix, row and column. -/
def MatDims.all (d : MatDims) : List (Nat × Nat × Nat) :=
  (List.range d.batch).flatMap (fun b => (List.range d.m).flatMap (fun i => (List.range d.n).map (fun j => (b, i, j))))

/-- The entries of some elements of an op are given the value that its partition starts from, and become unwritten (R92, R94,
R47). -/
def State.initEntries (s : State) (sid : Nat) (o : Op) (l : List (Nat × Nat × Nat)) : State :=
  forEach l (fun p t =>
    let k := s.laneKey sid o p.1 p.2.1 p.2.2
    let v := if o.accIn = 2 then (s.acc k).val
      else if o.accIn = 1 then s.inVal sid o o.accOpnd p.1 p.2.1 p.2.2
      else 0
    t.setAcc k { val := v, unwritten := true }) s

/-! ## Lanes and chunks (R84, R92, R115) -/

/-- The op's operands are staged in its operand-buffer allocation, as far as they fit: stationary first (R103, R112, R114). -/
def State.stage (s : State) (sid : Nat) (o : Op) : State :=
  let core := s.coreOf sid o
  let off := fld (o.pword 3) 44 32 * 4096
  let len := fld (o.pword 3) 28 16 * 4096
  let x : Staged := { core := core, off := off, len := len, bytes := (s.inBytes sid o 1 ++ s.inBytes sid o 0).take len }
  let meets (y : Staged) : Bool := y.core == core && decide (y.off < off + len) && decide (off < y.off + y.len)
  { s with units := { s.units with obuf := s.units.obuf.filter (fun y => !meets y) ++ [x] } }

/-- A PRODUCT starts: its inputs are read and staged, and its core ramps. -/
def State.startProduct (s : State) (sid : Nat) (o : Op) : State :=
  let (t, go) := s.begin' sid o
  if go then (t.stage sid o).rampStart (s.coreOf sid o) else t

/-- The number of chunks of an op: those of its partition; groups of 32 positions in strict mode (R93, R302). -/
def Op.chunkCount (o : Op) : Nat := if o.strict then cdiv o.matDims.k 32 else kpChunks o.kpart

/-- The positions of the op's chunk number `c` (R84, R93). -/
def Op.chunkPos (o : Op) (c : Nat) : List Nat :=
  let lo := 32 * (c + (if o.strict then 0 else kpLo o.kpart))
  ((List.range 32).map (· + lo)).filter (fun k => decide (k < o.matDims.k))

/-- The columns of an N-slice (R115). -/
def Op.sliceCols (o : Op) (slice : Nat) : List Nat :=
  let w := nSlice o.pack
  ((List.range w).map (· + slice * w)).filter (fun j => decide (j < o.matDims.n))

/-- The number of N-slices of an op. -/
def Op.slices (o : Op) : Nat := cdiv o.matDims.n (nSlice o.pack)

/-- Chunks of a K-slice, and the first chunk of the op that lies in the K-slice of its chunk `c` (R115). -/
def Op.sliceChunks (o : Op) : Nat := if o.strict then 4 else kSlice (shFmt (o.opnd 0).shape) o.pack / 32
def Op.sliceStart (o : Op) (c : Nat) : Nat :=
  let lo := if o.strict then 0 else kpLo o.kpart
  (lo + c) / o.sliceChunks * o.sliceChunks - lo

/-- The codes of a lane's operands at the positions of a chunk. -/
def State.dotPos (s : State) (sid : Nat) (o : Op) (b i j c : Nat) : List DotPos :=
  let la := s.operandLoc sid o 0
  let lb := s.operandLoc sid o 1
  (o.chunkPos c).map (fun k =>
    let x := s.codeT la (o.opnd 0).shape b i k
    let y := s.codeT lb (o.opnd 1).shape b k j
    ⟨x.1, x.2, y.1, y.2⟩)

/-- The binary32 code of an entry that holds a strict-mode accumulator. -/
def code32 (w : Word) : Nat := (cvtElem { fmt := 10, blkax := 0, rnd := false, sat := false, seq := 0 } 0 (val64 w)).1

/-- One lane of one chunk as the array delivers it, with the strict-mode flags it raises. -/
def State.runLane (s : State) (sid : Nat) (o : Op) (b i j c : Nat) (u : Option LaneUpset) : LaneOut × StrictFlags :=
  let ps := s.dotPos sid o b i j c
  if o.strict then
    let r := strictDot (code32 (s.acc (s.laneKey sid o b i j)).val) (ps.map (fun p => (p.a, p.b)))
    let e := (u.map (fun (x : LaneUpset) => x.promo)).getD 0
    ({ res := { sum := r.1, top := 0, repeated := false, special := 4, promo := e }, bad := false,
       promoBad := decide (e % 31 ≠ 0) || ((u.map (fun (x : LaneUpset) => x.dup)).getD false) }, r.2)
  else (laneRun (shFmt (o.opnd 0).shape) ps u, {})

/-- All lanes of one chunk of one row. -/
def State.runChunk (s : State) (sid : Nat) (o : Op) (row slice c : Nat) (us : List LaneUpset) : List (LaneOut × StrictFlags) :=
  let m := o.matDims.m
  let cols := o.sliceCols slice
  (List.range cols.length).map (fun l => s.runLane sid o (row / m) (row % m) (cols.getD l 0) c (upsetOf us l))

/-- Promotes one result per lane of a chunk (R90, R92); answers PROMO_OVF. -/
def State.promoteRow (s : State) (sid : Nat) (o : Op) (row slice : Nat) (rs : List LaneResult) : State × Bool :=
  let m := o.matDims.m
  let cols := o.sliceCols slice
  (List.range cols.length).foldl (fun t l =>
    let k := s.laneKey sid o (row / m) (row % m) (cols.getD l 0)
    let e := t.1.acc k
    let p := promote e.val (rs.getD l { sum := 0, top := 0, repeated := false })
    (t.1.setAcc k { e with val := p.1 }, t.2 || p.2)) (s, false)

def chunkKey (row slice : Nat) : Nat := row * 2 ^ 20 + slice
def OpRun.chunksDone (r : OpRun) (row slice : Nat) : Nat := SMap.get (fun _ => 0) r.chunks (chunkKey row slice)

/-! ## Arrays of an op (R104, R112) -/

/-- The set logical arrays of an op, in order. -/
def Op.logicals (o : Op) : List Nat := (List.range 6).filter (fun l => o.arrays / 2 ^ l % 2 == 1)

/-- Row group of a row, and the logical array of a row group (R112). -/
def Op.rowGroup (o : Op) (row : Nat) : Nat := row % o.matDims.m / o.rowGrp
def Op.logicalOf (o : Op) (row : Nat) : Nat := o.logicals.getD (o.rowGroup row % o.logicals.length) 0

/-- A row group of a matrix is the unit that an array runs from its first load to its outputs: where it stands among the op's
chunks, 0 not begun, 1 + a on physical array a, 8 written. -/
def unitKey (b g : Nat) : Nat := 2 ^ 60 + b * 2 ^ 24 + g
def OpRun.unit (r : OpRun) (b g : Nat) : Nat := SMap.get (fun _ => 0) r.chunks (unitKey b g)
def State.setUnit (s : State) (sid : Nat) (o : Op) (b g v : Nat) : State :=
  let r := s.opRun sid o.index
  s.setOp sid o.index { r with chunks := SMap.set (fun _ => 0) r.chunks (unitKey b g) v }

/-- The units of an op in the order in which they run: rounds of the batch, row groups, the matrices of a round (R112, R115). -/
def Op.units (o : Op) : List (Nat × Nat) :=
  (List.range (cdiv o.matDims.batch o.roundSize)).flatMap (fun r =>
    (List.range o.groups).flatMap (fun g =>
      ((List.range o.roundSize).map (fun p => (r * o.roundSize + p, g))).filter (fun u => decide (u.1 < o.matDims.batch))))

/-- The units that an array finishes before it starts another: those of earlier rounds, and the earlier row groups of its
round (R112). -/
def Op.unitsBefore (o : Op) (b g : Nat) : List (Nat × Nat) :=
  let n := o.logicals.length
  o.units.filter (fun u => u.2 % n == g % n
    && (decide (u.1 / o.roundSize < b / o.roundSize) || (u.1 / o.roundSize == b / o.roundSize && decide (u.2 < g))))

/-- The rows of a unit, numbered over the whole batch, and its elements. -/
def Op.unitRows (o : Op) (b g : Nat) : List Nat :=
  let m := o.matDims.m
  ((List.range o.rowGrp).map (· + g * o.rowGrp)).filterMap (fun i => if i < m then some (b * m + i) else none)
def Op.unitElems (o : Op) (b g : Nat) : List (Nat × Nat × Nat) :=
  (o.unitRows b g).flatMap (fun r => (List.range o.matDims.n).map (fun j => (b, r % o.matDims.m, j)))

/-- The physical array on which a row runs: a row group that has begun stays on its array (R104, R122). -/
def State.arrayOf (s : State) (sid : Nat) (o : Op) (row : Nat) : Nat :=
  match (s.opRun sid o.index).unit (row / o.matDims.m) (o.rowGroup row) with
  | 0 => s.physOf (s.coreOf sid o) (o.logicalOf row)
  | a + 1 => a

/-- A unit begins: it takes the physical array that serves its logical one, and its entries start (R92, R104, R113). -/
def State.beginUnit (s : State) (sid : Nat) (o : Op) (b g : Nat) : State :=
  if (s.opRun sid o.index).unit b g ≠ 0 then s
  else (s.initEntries sid o (o.unitElems b g)).setUnit sid o b g (s.arrayOf sid o (b * o.matDims.m + g * o.rowGrp) + 1)

/-- The cycles in which a valid row meets an array: one for each K-slice of the row's stream against an N-slice, sixteen in
strict mode (R117). -/
def Op.newSlice (o : Op) (c : Nat) : Nat := if o.sliceStart c = c then (if o.strict then 16 else 1) else 0

/-- A chunk runs on an array: cycles, repeats and bubbles are counted; a repeat costs one more cycle, and the bubbles are a free
count (R98, R116, R124, R127). -/
def State.countChunk (s : State) (core a : Nat) (cyc : Nat) (rep : Bool) : State :=
  let t := s.bump (arrDie core) (corBlk core) 0xC00 (cyc + (if rep then 1 else 0))
  let t := t.bump (arrDie core) (arrBlk core) (0xC40 + 8 * a) (Config.counter t.free (8 + a)).toNat
  let t := { t with free := t.free + 1 }
  if rep then t.aryBump core (0xC00 + 8 * a) else t

/-! ## Outputs -/

/-- NAN_OUT and INF_OUT of a list of entries (R101). -/
def outFlags (vs : List Word) : Nat := flagBit (vs.any isNan64) 6 + flagBit (vs.any isInf64) 7

/-- Flags join those of an op. -/
def State.addFlags (s : State) (sid : Nat) (o : Op) (f : Nat) : State :=
  let r := s.opRun sid o.index
  s.setOp sid o.index { r with flags := Nat.lor r.flags f }

/-- Entries whose values have been written out are unwritten no more (R47, R113). -/
def State.entriesWritten (s : State) (sid : Nat) (o : Op) (l : List (Nat × Nat × Nat)) : State :=
  forEach l (fun p u =>
    let k := s.laneKey sid o p.1 p.2.1 p.2.2
    u.setAcc k { u.acc k with unwritten := false }) s

/-- A unit of a PRODUCT is finished: with KEEP its entries stay in the buffer; else they are written under CVT, tile by tile
(R70, R112, R113). NAN_OUT and INF_OUT are taken from the entries, with KEEP as well, where no output is written (DESIGN
CHOICE, log entry 10). A binary64 output is the entry itself and sets no conversion flag (R74). -/
def State.writeUnit (s : State) (sid : Nat) (o : Op) (b g : Nat) : State :=
  let els := o.unitElems b g
  let val (x i j : Nat) : Word := (s.acc (s.laneKey sid o x i j)).val
  let t := (s.addFlags sid o (outFlags (els.map (fun p => val p.1 p.2.1 p.2.2)))).setUnit sid o b g 8
  if o.keep then t
  else
    let w := (o.opnd 2).shape
    let dr := s.drawsOf sid o 2
    let rows := cdiv (o.unitRows b g).length 32
    let tile (i : Nat) : Nat := b * shTiles1 w + (g * o.rowGrp / 32 + i / shTc w) * shTc w + i % shTc w
    let t := forN (rows * shTc w) (fun i u =>
      let p := tensorTile o.cvt true w val dr (tile i)
      (u.putAt sid o 2 (tile i * tileBytes (shFmt w)) p.1).addFlags sid o (flagBit p.2.ovf 8 ||| flagBit p.2.nan 9)) t
    t.entriesWritten sid o els

/-- Every row of a unit has finished every chunk of its N-slices below `sl`, and `c` chunks of slice `sl`. -/
def State.unitAt (s : State) (sid : Nat) (o : Op) (b g sl c : Nat) : Bool :=
  let r := s.opRun sid o.index
  (o.unitRows b g).all (fun row =>
    (List.range sl).all (fun x => decide (o.chunkCount ≤ r.chunksDone row x)) && decide (c ≤ r.chunksDone row sl))

/-- One chunk of a row is promoted and counted, its flags join the op's, and a finished unit is written. -/
def State.takeChunk (s : State) (sid : Nat) (o : Op) (row slice : Nat) (rs : List LaneResult) (fl : StrictFlags) : State :=
  let (t, ovf) := s.promoteRow sid o row slice rs
  let r := t.opRun sid o.index
  let n := r.chunksDone row slice
  let t := t.setOp sid o.index { r with
    chunks := SMap.set (fun _ => 0) r.chunks (chunkKey row slice) (n + 1),
    flags := Nat.lor r.flags (flagBit ovf 5 + fl.bits) }
  let b := row / o.matDims.m
  let g := o.rowGroup row
  if n + 1 = o.chunkCount ∧ t.unitAt sid o b g o.slices 0 then t.writeUnit sid o b g else t

/-! ## PRODUCT (R83 to R102, R109 to R115) -/

/-- Some chunk of the op is disputed and not decided. -/
def State.disputed (s : State) (sid op : Nat) : Bool := s.units.disputes.any (fun d => d.sid == sid && d.op == op)

/-- The next chunk of a row's slice, formed soundly. -/
def State.soundChunk (s : State) (sid : Nat) (o : Op) (row slice : Nat) : State :=
  let c := (s.opRun sid o.index).chunksDone row slice
  let rs := s.runChunk sid o row slice c []
  let fl := rs.foldl (fun f x => f.or x.2) ({} : StrictFlags)
  let t := s.countChunk (s.coreOf sid o) (s.arrayOf sid o row) (o.newSlice c) (rs.any (fun x => x.1.res.repeated))
  t.takeChunk sid o row slice (rs.map (fun x => x.1.res)) fl

/-- What is left of a unit: N-slices in increasing order, and each stationary load streamed once against the row group, chunk
after chunk (R115). -/
def State.runUnit (s : State) (sid : Nat) (o : Op) (b g : Nat) : State :=
  if (s.opRun sid o.index).unit b g = 8 then s
  else
    forN o.slices (fun sl t => forN o.chunkCount (fun c u => forEach (o.unitRows b g) (fun row v =>
      if (v.opRun sid o.index).chunksDone row sl = c then v.soundChunk sid o row sl else v) u) t) (s.beginUnit sid o b g)

/-- The result of a K_FOLD or ACC_WRITE is complete: it stays in the buffer with KEEP, or is written under CVT, which leaves
the entries written (R47, R70, R101, R113). -/
def State.matrixOut (s : State) (sid : Nat) (o : Op) (out : Option Nat) (flags : Nat) (val : Nat → Nat → Nat → Word) : State :=
  let all := o.matDims.all
  let nf := Nat.lor flags (outFlags (all.map (fun p => val p.1 p.2.1 p.2.2)))
  match out with
  | none => s.finish sid o nf
  | some i =>
    let (t, cf) := s.putTensor sid o i true val
    (t.entriesWritten sid o all).finish sid o (nf ||| flagBit cf.ovf 8 ||| flagBit cf.nan 9)

/-- PRODUCT: starts the op if it has not started, and, unless a chunk is disputed, forms every chunk that no CHUNK command
has formed, unit by unit, and completes. -/
def product (sid op : Nat) (s : State) : State :=
  match s.opOf sid op 0 1 with
  | none => s
  | some o =>
    let t := s.startProduct sid o
    if (t.opRun sid op).phase ≠ .running ∨ t.disputed sid op ∨ (t.core (t.coreOf sid o)).ctx.isSome then t
    else (forEach o.units (fun u v => v.runUnit sid o u.1 u.2) t).finish sid o 0

def execProduct (sid op : Nat) (s : State) : Out := onUnit (decide (sid < 60)) (product sid op s)

/-! ## CHUNK (R100, R300, R318) -/

/-- An array's chunks are also computed on a standby array (R318). -/
def State.dual (s : State) (core a : Nat) : Bool := s.checker core a == 2 || s.forceDual core

/-- The capture of a chunk (R319). With a disputed promotion or strict group the failing lane stands as lane 0. -/
def State.captureOf (s : State) (sid : Nat) (o : Op) (row slice c kind core a : Nat) (cond : Cond) (lane : Nat)
    (sums : List LaneResult) : Capture :=
  let d := o.matDims
  let b := row / d.m
  let i := row % d.m
  let f := shFmt (o.opnd 0).shape
  let one := decide (kind = 2 ∨ kind = 3)
  let cols := if one then [(o.sliceCols slice).getD lane 0] else o.sliceCols slice
  let sums := if one then [sums.getD lane { sum := 0, top := 0, repeated := false }] else sums
  let la := s.operandLoc sid o 0
  let lb := s.operandLoc sid o 1
  let ks := o.chunkPos c
  let packEls (xs : List Nat) : List Byte :=
    leBytes (cdiv (fmtBits f * xs.length) 8) (xs.foldr (fun x acc => x + 2 ^ fmtBits f * acc) 0)
  let rowEls := ks.map (fun k => s.codeT la (o.opnd 0).shape b i k)
  let colEl (k j : Nat) : Nat × Nat := s.codeT lb (o.opnd 1).shape b k j
  let pad (l : List Nat) (n : Nat) : List Nat := l ++ List.replicate (n - l.length) 0
  let els := (List.range 32).flatMap (fun x => match ks[x]? with
    | none => List.replicate 128 0
    | some k => pad (cols.map (fun j => (colEl k j).1)) 128)
  let scales := if fmtIsMx f then cols.map (fun j => BitVec.ofNat 8 ((colEl (ks.headD 0) j).2)) else []
  let e := (s.acc (s.laneKey sid o b i (cols.headD 0))).val
  { kind := kind, fmt := f, core := core, array := a, op := o.index, cond := cond, pack := o.pack, len := ks.length,
    row := packEls (pad (rowEls.map Prod.fst) 32)
      ++ (if fmtIsMx f then [BitVec.ofNat 8 ((rowEls.headD (0, 0)).2)] else []),
    slice := packEls els ++ scales,
    sums := sums, entryIn := if one then e else 0,
    entryOut := if one then (promote e (sums.headD { sum := 0, top := 0, repeated := false })).1 else 0 }

/-- The site of an error record of an array (R322, R397, R398). -/
def arraySite (core a op : Nat) (cond : Cond) (entry : List Byte) (idx : Nat) : Site :=
  { typ := 0x03, inst := core % 4, sub := a, op := op, cond := cond, entry := entry,
    detail := BitVec.ofNat 64 (idx % 4096) }

/-- The next chunk of a row and N-slice may run now: no chunk of the row is disputed (R100), its array has finished its earlier
units (R112), and the row group has passed the earlier N-slices and K-slices (R115). -/
def State.chunkTurn (s : State) (sid : Nat) (o : Op) (row slice : Nat) : Bool :=
  let r := s.opRun sid o.index
  let d := o.matDims
  let b := row / d.m
  let g := o.rowGroup row
  let n := r.chunksDone row slice
  r.phase == .running && decide (row < d.batch * d.m) && decide (slice < o.slices) && decide (n < o.chunkCount)
    && !(s.core (s.coreOf sid o)).ctx.isSome
    && !s.units.disputes.any (fun x => x.sid == sid && x.op == o.index && x.row == row)
    && (o.unitsBefore b g).all (fun u => r.unit u.1 u.2 == 8) && s.unitAt sid o b g slice (o.sliceStart n)

/-- An operand of the op lies in the die's DSM, so that what a lane reads comes from there (R166). -/
def State.readsDsm (s : State) (sid : Nat) (o : Op) : Bool :=
  [0, 1].any (fun i => match s.operandLoc sid o i with
    | .dsm _ _ => true
    | _ => false)

/-- The bits of a word that a chunk reads from the DSM or from a buffer are upset: one is corrected, and logged where the word is
of the DSM (R166); two are PARTITION_FATAL, and the share is replayed (R166, R304). -/
def State.bufferUpset (s : State) (sid : Nat) (o : Op) (core : Nat) (us : List LaneUpset) (c : Cond) : Option State :=
  let dsm := s.readsDsm sid o
  let site : Site := { typ := if dsm then 0x01 else 0x02, inst := if dsm then 0 else core % 4, op := o.index, cond := c }
  if us.any (fun u => decide (2 ≤ u.buf)) then some (s.raise (arrDie core) (if dsm then 0x0506 else 0x0507) site)
  else none

/-- CHUNK: the array forms, checks and promotes the next chunk of one row and N-slice. A disagreement of its checker makes
the chunk disputed and holds the row; with dual execution a difference is settled by a third computation on a neighbouring core's standby array, which agrees with
the second; with no such array in service no value is shared by two, and the share is replayed (R318). -/
def chunk (sid op row slice : Nat) (us : List LaneUpset) (c : Cond) (s : State) : State :=
  match s.opOf sid op 0 1 with
  | none => s
  | some o =>
    let t := s.startProduct sid o
    let core := t.coreOf sid o
    if !t.chunkTurn sid o row slice then t
    else match t.bufferUpset sid o core us c with
    | some u => u
    | none =>
      let t := if us.any (fun u => u.buf == 1) && t.readsDsm sid o then t.raise (arrDie core) 0x0505 { typ := 0x01, op := op, cond := c } else t
      let t := t.beginUnit sid o (row / o.matDims.m) (o.rowGroup row)
      let n := (t.opRun sid op).chunksDone row slice
      let a := t.arrayOf sid o row
      let outs := t.runChunk sid o row slice n us
      let rs := outs.map (fun x => x.1.res)
      let fl := outs.foldl (fun f x => f.or x.2) ({} : StrictFlags)
      let t := t.countChunk core a (o.newSlice n) (rs.any (fun x => x.repeated))
      if t.checker core a ≠ 2 ∧ outs.any (fun x => x.1.bad || x.1.promoBad) then
        let u := t.aryBump core 0xCE0
        { u with units := { u.units with disputes := u.units.disputes ++
          [{ core := core, array := a, sid := sid, op := op, row := row, colTile := slice, chunk := n, original := rs }] } }
      else if t.dual core a then
        let sound := (t.runChunk sid o row slice n []).map (fun x => x.1.res)
        match (t.standbys core)[0]? with
        | none => t.takeChunk sid o row slice rs fl
        | some sb =>
          let t := t.countChunk sb 6 (o.newSlice n) (sound.any (fun x => x.repeated))
          if rs = sound then t.takeChunk sid o row slice rs fl
          else match (t.standbys core)[1]? with
          | none => (t.suspectDie (arrDie core)).raise (arrDie core) 0x0403 (arraySite core a op c [] 0)
          | some third =>
            let t := t.countChunk third 6 (o.newSlice n) (sound.any (fun x => x.repeated))
            let (u, e, i) := t.capture sid (t.captureOf sid o row slice n (if o.strict then 3 else 0) core a c 0 sound)
            let u := (u.confirmFault core a c).takeChunk sid o row slice sound fl
            u.raiseAs (arrDie core) 0x0407 1 (arraySite core a op c e i)
      else t.takeChunk sid o row slice rs fl

def execChunk (sid op row colTile : Nat) (upset : List LaneUpset) (c : Cond) (s : State) : Out :=
  onUnit (decide (sid < 60)) (chunk sid op row colTile upset c s)

/-! ## K_FOLD and ACC_WRITE (R95, R109, R111) -/

/-- K_FOLD: folds its partials in operand order onto P_0, or onto the entries left in place (R95, R111). -/
def kFold (sid op : Nat) (s : State) : State :=
  match s.opOf sid op 0 2 with
  | none => s
  | some o =>
    let (t, go) := s.begin' sid o
    if !go then t
    else
      let n := o.nopnd - (if o.keep then 0 else 1)
      let t := t.rampStart (t.coreOf sid o)
      let fold (b i j : Nat) : Word × Bool :=
        let vs := (List.range n).map (fun q => t.inVal sid o q b i j)
        if o.accIn = 2 then foldPartials (t.acc (t.laneKey sid o b i j)).val vs else foldPartials (vs.headD 0) (vs.drop 1)
      let u := forEach o.matDims.all (fun p u =>
        u.setAcc (t.laneKey sid o p.1 p.2.1 p.2.2) { val := (fold p.1 p.2.1 p.2.2).1, unwritten := true }) t
      let ovf := o.matDims.all.any (fun p => (fold p.1 p.2.1 p.2.2).2)
      u.matrixOut sid o (if o.keep then none else some (o.nopnd - 1)) (flagBit ovf 5) (fun b i j => (fold b i j).1)

def execKFold (sid op : Nat) (s : State) : Out := onUnit (decide (sid < 60)) (kFold sid op s)

/-- ACC_WRITE: writes the entries that the previous op on the range left (R109, R113). -/
def accWrite (sid op : Nat) (s : State) : State :=
  match s.opOf sid op 0 3 with
  | none => s
  | some o =>
    let (t, go) := s.begin' sid o
    if go then
      (t.rampStart (t.coreOf sid o)).matrixOut sid o (some 0) 0 (fun b i j => (t.acc (t.laneKey sid o b i j)).val)
    else t

def execAccWrite (sid op : Nat) (s : State) : Out := onUnit (decide (sid < 60)) (accWrite sid op s)

end Sys2Proof.Machine
end

