-- ==== Sys2Proof/Machine/Reduce.lean ====
section
/-!
DEFINITION. The row reduction unit (R134 to R147): sums, statistics, normalisation, soft-maximum backward and indexed
extremes, each operation one binary64 operation (R137).
-/

namespace Sys2Proof.Machine

/-- A value with the mark that some finite operation overflowed. -/
abbrev Tracked := Word × Bool

/-- Tracked operations: the mark is sticky. -/
def tAdd (a b : Tracked) : Tracked := let r := add64f a.1 b.1; (r.1, a.2 || b.2 || r.2)
def tSub (a b : Tracked) : Tracked := let r := sub64f a.1 b.1; (r.1, a.2 || b.2 || r.2)
def tMul (a b : Tracked) : Tracked := let r := mul64f a.1 b.1; (r.1, a.2 || b.2 || r.2)
def tFma (a b c : Tracked) : Tracked := let r := fma64f a.1 b.1 c.1; (r.1, a.2 || b.2 || c.2 || r.2)
def tDiv (a b : Tracked) : Tracked := let r := div64 a.1 b.1; (r.val, a.2 || b.2 || r.ovf)
def tSqrt (a : Tracked) : Tracked := ((sqrt64 a.1).val, a.2)
def tOf (w : Word) : Tracked := (w, false)

/-- SUM, SUMSQ and DOT folds over positions in increasing index (R138). -/
def sumFold (r : Tracked) (xs : List Word) : Tracked := xs.foldl (fun a x => tAdd a (tOf x)) r
def sqFold (r : Tracked) (xs : List Word) : Tracked := xs.foldl (fun a x => tFma (tOf x) (tOf x) a) r
def dotFold (r : Tracked) (ps : List (Word × Word)) : Tracked := ps.foldl (fun a p => tFma (tOf p.1) (tOf p.2) a) r

/-- (n, mean, M2) of R139. -/
structure MeanVar where
  n : Tracked
  mean : Tracked
  m2 : Tracked
  deriving DecidableEq, Repr

/-- meanvar_partial (R139). -/
def meanvarPartial (xs : List Word) : MeanVar :=
  xs.foldl (fun t x =>
    let n := tAdd t.n (tOf one64)
    let delta := tSub (tOf x) t.mean
    let mean := tAdd t.mean (tDiv delta n)
    ⟨n, mean, tAdd t.m2 (tMul delta (tSub (tOf x) mean))⟩) ⟨tOf 0, tOf 0, tOf 0⟩

/-- meanvar_combine (R139). -/
def meanvarCombine (a b : MeanVar) : MeanVar :=
  let n := tAdd a.n b.n
  let d := tSub b.mean a.mean
  let mean := tAdd a.mean (tMul d (tDiv b.n n))
  let h := tDiv (tMul a.n b.n) n
  ⟨n, mean, tAdd (tAdd a.m2 b.m2) (tMul (tMul d d) h)⟩

/-- meanvar_final (R139): mean and variance. -/
def meanvarFinal (divLess : Bool) (t : MeanVar) : Tracked × Tracked :=
  (t.mean, tDiv t.m2 (if divLess then tSub t.n (tOf one64) else t.n))

/-- An order key for MAX_IDX and MIN_IDX (R140); none for NaN, which wins. -/
def idxKey (w : Word) : Option Int := if isNan64 w then none else some (ordKey w)

/-- The winner of a row (R140): value and lowest index. -/
def winner (mn : Bool) (xs : List Word) : Word × Nat :=
  let best (b x : Word × Nat) : Word × Nat :=
    match idxKey b.1, idxKey x.1 with
    | none, _ => b
    | some _, none => x
    | some p, some q => if (if mn then q < p else p < q) then x else b
  match (List.range xs.length).map (fun i => (xs.getD i 0, i)) with
  | [] => (nan64, 0)
  | x :: l =>
    let r := l.foldl best x
    (if isNan64 r.1 then nan64 else r.1, r.2)

/-- Statistics of NORM_FWD (R144): mean and reciprocal standard deviation of a row. -/
def normStats (rms : Bool) (eps : Word) (xs : List Word) : Tracked × Tracked :=
  let n := tOf (nat64 xs.length)
  let mv := meanvarFinal false (meanvarPartial xs)
  let mu := if rms then tOf 0 else mv.1
  let v := if rms then tDiv (sqFold (tOf 0) xs) n else mv.2
  (mu, tDiv (tOf one64) (tSqrt (tAdd v (tOf eps))))

/-- The normalised element (R144). -/
def normHat (rms : Bool) (mu rstd : Tracked) (x : Word) : Tracked :=
  if rms then tMul (tOf x) rstd else tMul (tSub (tOf x) mu) rstd

/-! ## Running an op of class 0x02 -/

/-- Outputs of an op: operand, whether it is a binary64 output that R136 names, and its values by row. -/
structure RowOut where
  idx : Nat
  raw : Bool
  rows : List (List Tracked)
  deriving DecidableEq, Repr

/-- The rows of operand `i` as the op takes them (R135). -/
def State.rowsOf (s : State) (sid : Nat) (o : Op) (i : Nat) : List (List Word) :=
  let w := (o.opnd i).shape
  (List.range (shR w)).map (fun r => (List.range (shC w)).map (fun c => s.inVal sid o i 0 r c))

/-- The positions of the op's partition (R93, R135). -/
def Op.positions (o : Op) (xs : List Word) : List Word := (xs.drop (32 * kpLo o.kpart)).take (32 * kpChunks o.kpart)

/-- Writes the outputs of an op and completes it with its flags (R142). A partial stays as it is; the main output of MV_COMBINE
is written under CVT whatever NPART is (R136, R70). -/
def State.rowsOut (s : State) (sid : Nat) (o : Op) (outs : List RowOut) : State :=
  let put (t : State × CvtFlags) (x : RowOut) : State × CvtFlags :=
    let val (_ r c : Nat) : Word := ((x.rows.getD r []).getD c (0, false)).1
    if x.raw then (t.1.putRaw sid o x.idx val, t.2)
    else let p := t.1.putTensor sid o x.idx (kpN o.kpart != 1 && o.opcode != 5) val; (p.1, t.2.or p.2)
  let (t, cf) := outs.foldl put (s, {})
  let all := outs.flatMap (fun x => x.rows.flatMap (fun l => l))
  t.finish sid o (flagBit (all.any (fun v => v.2)) 4 + flagBit (all.any (fun v => isNan64 v.1)) 3
    + flagBit (all.any (fun v => isInf64 v.1)) 2 + flagBit cf.ovf 1 + flagBit cf.nan 0)

/-- A class-0x02 op of an opcode: its outputs are formed by `f` once it starts. An op that a context switch or a disagreement
found in progress is finished here; that it goes on from its saved lanes gives the same bits (R143, R303). -/
def rowOp (sid op code : Nat) (f : State → Op → List RowOut) (s : State) : State :=
  match s.opOf sid op 2 code with
  | none => s
  | some o =>
    let (t, go) := s.begin' sid o
    if go || ((t.opRun sid op).phase == .running && !t.coreSaved sid o) then t.rowsOut sid o (f t o) else t

/-- The lanes of a group of 32 rows after `p` positions (R143). -/
def State.rowLanes (s : State) (sid : Nat) (o : Op) (g p : Nat) : List RowLane :=
  ((s.rowsOf sid o 0).drop (32 * g) |>.take 32).map (fun row =>
    let ps := (o.positions row).take p
    let mv := meanvarPartial ps
    let acc := if o.opcode = 1 then sumFold (tOf 0) ps else if o.opcode = 2 then sqFold (tOf 0) ps else tOf 0
    let w := winner (o.opcode == 0x81) ps
    { n := mv.n.1, mean := mv.mean.1, m2 := mv.m2.1, acc := acc.1, best := w.1, idx := w.2 })

/-- A disagreement of the arithmetic check in a group of 32 rows of a class-0x02 op: the group is executed again, and a second
one in it is PARTITION_FATAL (R303). -/
def State.rowDisagrees (s : State) (sid : Nat) (o : Op) (g : Nat) : State :=
  let t := (s.begin' sid o).1
  let r := t.opRun sid o.index
  if r.phase ≠ .running then t
  else if r.items.any (fun x => x.index == g) then
    t.raise (t.slotDie sid) 0x0404 { typ := 0x02, inst := o.unit, op := o.index }
  else t.setOp sid o.index { r with
    items := r.items ++ [{ index := g, engine := 0, retried := true }], reexec := r.reexec + 1 }

/-- The value a fold starts from (R138). -/
def State.foldStart (s : State) (sid : Nat) (o : Op) (i r : Nat) : Tracked :=
  if o.accIn = 1 ∧ kpPart o.kpart = 0 then tOf (s.inVal sid o i 0 r 0) else tOf 0

/-- SUM and SUMSQ. -/
def sumOuts (sq : Bool) (sid : Nat) (s : State) (o : Op) : List RowOut :=
  let xs := s.rowsOf sid o 0
  [⟨1, false, (List.range xs.length).map (fun r =>
    let ps := o.positions (xs.getD r [])
    let a := s.foldStart sid o 2 r
    [if sq then sqFold a ps else sumFold a ps])⟩]

def execSum (sid op : Nat) (s : State) : Out := onUnit (decide (sid < 60)) (rowOp sid op 1 (sumOuts false sid) s)
def execSumsq (sid op : Nat) (s : State) : Out := onUnit (decide (sid < 60)) (rowOp sid op 2 (sumOuts true sid) s)

/-- DOT. -/
def dotOuts (sid : Nat) (s : State) (o : Op) : List RowOut :=
  let xs := s.rowsOf sid o 0
  let ys := s.rowsOf sid o 1
  [⟨2, false, (List.range xs.length).map (fun r =>
    [dotFold (s.foldStart sid o 3 r) ((o.positions (xs.getD r [])).zip (o.positions (ys.getD r [])))])⟩]

def execDot (sid op : Nat) (s : State) : Out := onUnit (decide (sid < 60)) (rowOp sid op 3 (dotOuts sid) s)

/-- VAR_DIV (R135). -/
def Op.varDiv (o : Op) : Bool := o.kp 53 53 == 1

/-- MEANVAR. -/
def meanvarOuts (sid : Nat) (s : State) (o : Op) : List RowOut :=
  let ts := (s.rowsOf sid o 0).map (fun xs => meanvarPartial (o.positions xs))
  if o.partialOut then [⟨1, true, ts.map (fun t => [t.n, t.mean, t.m2])⟩]
  else [⟨1, false, ts.map (fun t => let f := meanvarFinal o.varDiv t; [f.1, f.2])⟩]

def execMeanvar (sid op : Nat) (s : State) : Out := onUnit (decide (sid < 60)) (rowOp sid op 4 (meanvarOuts sid) s)

/-- MV_COMBINE: the fold of the partial triples in PART order. -/
def mvCombineOuts (sid : Nat) (s : State) (o : Op) : List RowOut :=
  let n := kpN o.kpart
  let triple (p r : Nat) : MeanVar :=
    ⟨tOf (s.inVal sid o p 0 r 0), tOf (s.inVal sid o p 0 r 1), tOf (s.inVal sid o p 0 r 2)⟩
  [⟨n, false, (List.range (shR (o.opnd 0).shape)).map (fun r =>
    let t := (List.range (n - 1)).foldl (fun a p => meanvarCombine a (triple (p + 1) r)) (triple 0 r)
    let f := meanvarFinal o.varDiv t
    [f.1, f.2])⟩]

def execMvCombine (sid op : Nat) (s : State) : Out := onUnit (decide (sid < 60)) (rowOp sid op 5 (mvCombineOuts sid) s)

/-- SMAX_BWD (R147). -/
def smaxRow (ys dys : List Word) : List Tracked :=
  let a := dotFold (tOf 0) (ys.zip dys)
  (ys.zip dys).map (fun p => tMul (tOf p.1) (tSub (tOf p.2) a))

def smaxOuts (sid : Nat) (s : State) (o : Op) : List RowOut :=
  [⟨2, false, ((s.rowsOf sid o 0).zip (s.rowsOf sid o 1)).map (fun p => smaxRow p.1 p.2)⟩]

def execSmaxBwd (sid op : Nat) (s : State) : Out := onUnit (decide (sid < 60)) (rowOp sid op 6 (smaxOuts sid) s)

/-- NORM_FWD (R144). -/
def normFwdOuts (sid : Nat) (s : State) (o : Op) : List RowOut :=
  let g := (s.rowsOf sid o 1).headD []
  let b := if o.rms then [] else (s.rowsOf sid o 2).headD []
  let i := if o.rms then 2 else 3
  let rows := s.rowsOf sid o 0
  let stats := rows.map (normStats o.rms (o.pword 2))
  let y := (rows.zip stats).map (fun p =>
    (List.range p.1.length).map (fun k =>
      let x := normHat o.rms p.2.1 p.2.2 (p.1.getD k 0)
      if o.rms then tMul (tOf (g.getD k 0)) x else tFma (tOf (g.getD k 0)) x (tOf (b.getD k 0))))
  [⟨i, false, y⟩, ⟨i + 1, true, stats.map (fun t => [t.1, t.2])⟩]

def execNormFwd (sid op : Nat) (s : State) : Out := onUnit (decide (sid < 60)) (rowOp sid op 7 (normFwdOuts sid) s)

/-- One row of dx (R145). -/
def normBwdRow (rms : Bool) (mu rstd : Tracked) (xs g dys : List Word) : List Tracked :=
  let n := tOf (nat64 xs.length)
  let hat := xs.map (normHat rms mu rstd)
  let gs := (dys.zip g).map (fun p => tMul (tOf p.1) (tOf p.2))
  let sg := gs.foldl tAdd (tOf 0)
  let sgx := (gs.zip hat).foldl (fun a p => tFma p.1 p.2 a) (tOf 0)
  let a := if rms then tOf 0 else tDiv sg n
  let b := tDiv sgx n
  (gs.zip hat).map (fun p =>
    let t := tFma (neg64 p.2.1, p.2.2) b (tSub p.1 a)
    tMul rstd t)

/-- NORM_BWD (R145): dx, and the parameter gradients over rows in increasing order. -/
def normBwdOuts (sid : Nat) (s : State) (o : Op) : List RowOut :=
  let xs := s.rowsOf sid o 0
  let st := s.rowsOf sid o 1
  let g := (s.rowsOf sid o 2).headD []
  let dy := s.rowsOf sid o 3
  let R := xs.length
  let P := shC (o.opnd 0).shape
  let stat (r k : Nat) : Tracked := tOf ((st.getD r []).getD k 0)
  let dx := (List.range R).map (fun r => normBwdRow o.rms (stat r 0) (stat r 1) (xs.getD r []) g (dy.getD r []))
  let start (row i : Nat) : Tracked := if o.accIn = 1 then tOf (s.inVal sid o 6 0 row i) else tOf 0
  let dg := (List.range P).map (fun i => (List.range R).foldl (fun a r =>
    tFma (tOf ((dy.getD r []).getD i 0)) (normHat o.rms (stat r 0) (stat r 1) ((xs.getD r []).getD i 0)) a) (start 0 i))
  let db := (List.range P).map (fun i => (List.range R).foldl (fun a r => tAdd a (tOf ((dy.getD r []).getD i 0))) (start 1 i))
  [⟨4, false, dx⟩, ⟨5, true, if o.rms then [dg] else [dg, db]⟩]

def execNormBwd (sid op : Nat) (s : State) : Out := onUnit (decide (sid < 60)) (rowOp sid op 8 (normBwdOuts sid) s)

/-- MAX_IDX and MIN_IDX (R140). -/
def idxOuts (mn : Bool) (sid : Nat) (s : State) (o : Op) : List RowOut :=
  [⟨1, true, (s.rowsOf sid o 0).map (fun xs => let w := winner mn xs; [tOf w.1, tOf (nat64 w.2)])⟩]

def execMaxIdx (sid op : Nat) (s : State) : Out := onUnit (decide (sid < 60)) (rowOp sid op 0x80 (idxOuts false sid) s)
def execMinIdx (sid op : Nat) (s : State) : Out := onUnit (decide (sid < 60)) (rowOp sid op 0x81 (idxOuts true sid) s)

end Sys2Proof.Machine
end

