-- ==== Sys2Proof/Machine/Context.lean ====
section
/-!
DEFINITION. Saving the context of a core (R100, R120, R122, R143, R164).
-/

namespace Sys2Proof.Machine

/-- The entries of a core. -/
def coreAcc (core : Nat) (m : SMap AccEntry) : SMap AccEntry := SMap.slice m (core * 2 ^ 19) ((core + 1) * 2 ^ 19)

/-- The entries of a core set to what a saved context holds; none clears them. -/
def setCoreAcc (core : Nat) (m saved : SMap AccEntry) : SMap AccEntry :=
  saved.foldl (fun m e => SMap.set accDflt m e.1 e.2) (SMap.clear m (core * 2 ^ 19) ((core + 1) * 2 ^ 19))

/-- The save area of a core of a slot: 4.25 MiB of the 17 MiB below the plan area (R120). -/
def State.saveArea (s : State) (sid core : Nat) : Nat :=
  s.planArea (s.slotStack sid) - 17 * 2 ^ 20 + core % 4 * (17 * 2 ^ 18)

/-- A context as its save area holds it: the entries in order at eight bytes each, then the unwritten marks at a byte each, then
COR_FLAGS and COR_RAMP. The order is not stated (DESIGN CHOICE, log entry 11); no plan can read it (R189). -/
def State.layContext (s : State) (pa core : Nat) (c : SavedCtx) : State :=
  let s := s.setStack (SMap.clear s.mem.stack pa (pa + 17 * 2 ^ 18))
  let t := forEach c.acc (fun e u =>
    let i := e.1 - core * 2 ^ 19
    (u.stN (pa + 8 * i) (leBytes 8 e.2.val.toNat)).stN (pa + 2 ^ 22 + i) [if e.2.unwritten then 1 else 0]) s
  t.stN (pa + 17 * 2 ^ 18 - 16) (leBytes 8 c.flags.toNat ++ leBytes 8 c.rampReg.toNat)

/-- COR_CTX_STAT.STATE (R126). -/
def State.setCtxState (s : State) (core v : Nat) : State := s.setField (arrDie core) (corBlk core) 0x058 1 0 v

/-- The ops in progress on a core. -/
def State.running (s : State) (sid core : Nat) : List Nat :=
  ((s.ops sid false).filter (fun x => decide (x.cls ≤ 2) && x.unit == core % 4 && (s.opRun sid x.index).phase == .running)).map
    (fun x => x.index)

/-- A class-0x02 op of the core that may start is in progress when a switch finds it, at a position that is free (DESIGN CHOICE,
log entry 12); its lanes are kept at full width (R143). -/
def State.rowInProgress (s : State) (sid core : Nat) : State :=
  match (s.ops sid false).find? (fun x => x.cls == 2 && x.unit == core % 4 && (s.opRun sid x.index).phase == .waiting) with
  | none => s
  | some o =>
    let (t, go) := s.begin' sid o
    if !go then t
    else
      let p := Config.rowPosition t.free
      let t := { t with free := t.free + 1 }
      t.setOp sid o.index { t.opRun sid o.index with rowAt := p, lanes := t.rowLanes sid o p.1 p.2 }

/-- A core's context is saved: in its save area and with the positions of its ops in progress (R120, R143, R164). -/
def State.saveNow (s : State) (core : Nat) : State :=
  let die := arrDie core
  let sid := (s.dieSlot die).getD 60
  let s := s.rowInProgress sid core
  let l := s.running sid core
  let ctx : SavedCtx :=
    { acc := coreAcc core s.units.acc, sid := sid, op := l.headD 0xFFFFFF, flags := s.rd die (corBlk core) 0x048,
      rampReg := s.rd die (corBlk core) 0x040, ramp := (s.core core).ramp, runs := l.map (fun k => (k, s.opRun sid k)) }
  let s := if sid < 48 then s.layContext (s.saveArea sid core) core ctx else s
  let t := (s.setCore core { s.core core with ctx := some ctx, saveDue := false }).setCtxState core 2
  t.setField die (corBlk core) 0x058 47 16 (t.field die (corBlk core) 0x058 47 16 + 1)

/-- What a context switch of a core waits for: a disputed chunk (R100, R122), or a vector op whose resident groups have not
finished their tile rows (R164). -/
def State.saveWaits (s : State) (core : Nat) : Bool :=
  let sid := (s.dieSlot (arrDie core)).getD 60
  s.units.disputes.any (fun d => d.core == core)
    || (s.ops sid false).any (fun x => x.cls == 1 && x.unit == core % 4 && (s.opRun sid x.index).phase == .running
        && (s.opRun sid x.index).items.any (fun i => i.taken && !i.finished))

/-- CONTEXT_SAVE: at once, or after what it waits for: the request stays pending until then. -/
def contextSave (core : Nat) (s : State) : State :=
  if (s.core core).ctx.isSome then s
  else if s.saveWaits core then (s.setCore core { s.core core with saveDue := true }).setCtxState core 1
  else s.saveNow core

/-- A pending context switch takes effect when nothing holds it any more (R122). -/
def State.saveIfDue (s : State) (core : Nat) : State :=
  if (s.core core).saveDue && !s.saveWaits core then s.saveNow core else s

def execContextSave (core : Nat) (s : State) : Out := onUnit (decide (core < 192)) (contextSave core s)

end Sys2Proof.Machine
end

