-- ==== Sys2Proof/Machine/Elem.lean ====
section
/-!
DEFINITION. The elementary functions of the vector unit (R157, R158): the binary64 value that roundTiesToEven gives for the
exact real result, found by enclosing the result between two dyadic numbers that round alike, at rising precision.
-/

namespace Sys2Proof.Machine

/-! ## Intervals of fixed-point numbers: bounds in units of 2^-p -/

structure Ival where
  lo : Int
  hi : Int
  deriving DecidableEq, Repr

/-- Division rounded up; the divisor is positive. -/
def ceilDiv (x d : Int) : Int := -((-x) / d)

def Ival.add (a b : Ival) : Ival := ⟨a.lo + b.lo, a.hi + b.hi⟩
def Ival.neg (a : Ival) : Ival := ⟨-a.hi, -a.lo⟩
def Ival.sub (a b : Ival) : Ival := a.add b.neg

/-- A number widened by `k` units each way. -/
def Ival.widen (a : Ival) (k : Int) : Ival := ⟨a.lo - k, a.hi + k⟩

def Ival.mul (p : Nat) (a b : Ival) : Ival :=
  let x := a.lo * b.lo
  let y := a.lo * b.hi
  let z := a.hi * b.lo
  let w := a.hi * b.hi
  ⟨min (min x y) (min z w) / 2 ^ p, ceilDiv (max (max x y) (max z w)) (2 ^ p)⟩

def Ival.scale (a : Ival) (n : Nat) : Ival := ⟨a.lo * n, a.hi * n⟩
def Ival.divNat (a : Ival) (n : Nat) : Ival := ⟨a.lo / n, ceilDiv a.hi n⟩

/-- Quotient by a positive interval. -/
def Ival.div (p : Nat) (a b : Ival) : Ival :=
  ⟨min (a.lo * 2 ^ p / b.lo) (a.lo * 2 ^ p / b.hi), max (ceilDiv (a.hi * 2 ^ p) b.lo) (ceilDiv (a.hi * 2 ^ p) b.hi)⟩

/-- From precision `p` to `p + k`, and back. -/
def Ival.up (a : Ival) (k : Nat) : Ival := ⟨a.lo * 2 ^ k, a.hi * 2 ^ k⟩
def Ival.down (a : Ival) (k : Nat) : Ival := ⟨a.lo / 2 ^ k, ceilDiv a.hi (2 ^ k)⟩

/-- The interval of a fraction n / d, d positive. -/
def ratI (p : Nat) (n d : Int) : Ival := ⟨n * 2 ^ p / d, ceilDiv (n * 2 ^ p) d⟩

/-! ## Series -/

/-- e^x for |x| up to about 746: the argument is divided by 2^18, summed, and squared 18 times. -/
def expI (p : Nat) (x : Ival) : Ival :=
  let q := p + 64
  let y := (x.up 64).down 18
  let one : Ival := ⟨2 ^ q, 2 ^ q⟩
  let s := (List.range (q / 8 + 2)).foldl (fun (t : Ival × Ival) n =>
    let term := (Ival.mul q t.1 y).divNat (n + 1)
    (term, t.2.add term)) (one, one)
  ((List.range 18).foldl (fun v _ => Ival.mul q v v) (s.2.widen 4)).down 64

/-- 2 * atanh(z) for |z| at most 1/3. -/
def atanh2I (p : Nat) (z : Ival) : Ival :=
  let z2 := Ival.mul p z z
  let s := (List.range (p / 3 + 2)).foldl (fun (t : Ival × Ival) n =>
    (Ival.mul p t.1 z2, t.2.add (t.1.divNat (2 * n + 1)))) (z, (⟨0, 0⟩ : Ival))
  (s.2.widen 2).scale 2

/-- ln of the positive dyadic m * 2^e: m lies near a power of two, and the rest is taken from ln 2. -/
def lnI (p : Nat) (m : Nat) (e : Int) : Ival :=
  let b := Nat.log2 m
  let (k, d) := if 3 * 2 ^ b < 2 * m then (b + 1, 2 ^ (b + 1)) else (b, 2 ^ b)
  let f := atanh2I p (ratI p ((m : Int) - d) ((m : Int) + d))
  let n := e + (k : Int)
  let l2 := atanh2I p (ratI p 1 3)
  let r := l2.scale n.natAbs
  f.add (if n < 0 then r.neg else r)

/-- atan(1 / n). -/
def atanInvI (p : Nat) (n : Nat) : Ival :=
  let s := (List.range (p / 4 + 2)).foldl (fun (t : Ival × Ival × Bool) i =>
    let term := t.1.divNat (2 * i + 1)
    (t.1.divNat (n * n), if t.2.2 then t.2.1.sub term else t.2.1.add term, !t.2.2))
    (ratI p 1 n, (⟨0, 0⟩ : Ival), false)
  s.2.1.widen 2

/-- 2 / sqrt(pi). -/
def twoRsqrtPi (p : Nat) : Ival :=
  let pi := ((atanInvI p 5).scale 16).sub ((atanInvI p 239).scale 4)
  let r : Ival := ⟨(isqrt (pi.lo.toNat * 2 ^ p) : Int), (isqrt (pi.hi.toNat * 2 ^ p) : Int) + 1⟩
  Ival.div p ⟨2 * 2 ^ p, 2 * 2 ^ p⟩ r

/-- erf x for 0 < x < 6. -/
def erfI (p : Nat) (x : Ival) : Ival :=
  let q := p + 128
  let y := x.up 128
  let y2 := Ival.mul q y y
  let s := (List.range (q + 150)).foldl (fun (t : Ival × Ival × Bool) n =>
    let term := t.1.divNat (2 * n + 1)
    ((Ival.mul q t.1 y2).divNat (n + 1), if t.2.2 then t.2.1.sub term else t.2.1.add term, !t.2.2))
    (y, (⟨0, 0⟩ : Ival), false)
  (Ival.mul q (twoRsqrtPi q) (s.2.1.widen 2)).down 128

/-! ## Rounding -/

/-- The common binary64 value of both ends of an interval, and whether it overflowed; none while they differ. -/
def Ival.round (p : Nat) (a : Ival) : Option (Word × Bool) :=
  if a.lo ≤ 0 ∧ 0 ≤ a.hi then none
  else
    let x := to64 (decide (a.lo < 0)) a.lo.natAbs (-(p : Int))
    let y := to64 (decide (a.hi < 0)) a.hi.natAbs (-(p : Int))
    if x = y then some x else none

/-- Tries rising precisions. -/
def firstRound (f : Nat → Ival) (extra : Nat) : List Nat → Option (Word × Bool)
  | [] => none
  | n :: ns =>
    match (f (n + extra)).round (n + extra) with
    | some r => some r
    | none => firstRound f extra ns

def precisions : List Nat := [64, 160, 320, 640, 1280]

/-- The rounded value of a function at a source; `tag` names the function for the free value of an undecided rounding. -/
def roundFn (tag : Nat) (a : Word) (extra : Nat) (f : Nat → Ival) : FRes :=
  match firstRound f extra precisions with
  | some r => ⟨r.1, r.2, false⟩
  | none => ⟨Config.undecided tag a, false, false⟩

/-- The source m * 2^e at precision p, exact since p is at least -e. -/
def fixI (p : Nat) (neg : Bool) (m : Nat) (e : Int) : Ival := let x := signed neg (m * 2 ^ (e + p).toNat); ⟨x, x⟩

/-- Extra precision that makes the source exact. -/
def exactBits (e : Int) : Nat := (-e).toNat + 64

/-- |m * 2^e| is at least n. -/
def atLeast (m : Nat) (e : Int) (n : Nat) : Bool :=
  if 0 ≤ e then decide (n ≤ m * 2 ^ e.toNat) else decide (n * 2 ^ (-e).toNat ≤ m)

/-! ## The functions (R157) -/

/-- EXP. -/
def exp64 (a : Word) : FRes :=
  match val64 a with
  | .nan => ⟨nan64, false, false⟩
  | .inf n => ⟨if n then 0 else inf64 false, false, false⟩
  | .fin n m e =>
    if m = 0 then ⟨one64, false, false⟩
    else if atLeast m e 746 then (if n then ⟨0, false, false⟩ else ⟨inf64 false, true, false⟩)
    else roundFn 0x10 a (exactBits e + 1100) (fun p => expI p (fixI p n m e))

/-- e^x - 1 at precision p. -/
def expm1I (p : Nat) (x : Ival) : Ival := (expI p x).sub ⟨2 ^ p, 2 ^ p⟩

/-- EXPM1. -/
def expm164 (a : Word) : FRes :=
  match val64 a with
  | .nan => ⟨nan64, false, false⟩
  | .inf n => ⟨if n then neg64 one64 else inf64 false, false, false⟩
  | .fin n m e =>
    if m = 0 then ⟨zero64 n, false, false⟩
    else if atLeast m e 746 then (if n then ⟨neg64 one64, false, false⟩ else ⟨inf64 false, true, false⟩)
    else roundFn 0x11 a (exactBits e + 64) (fun p => expm1I p (fixI p n m e))

/-- LOG. -/
def log64 (a : Word) : FRes :=
  match val64 a with
  | .nan => ⟨nan64, false, false⟩
  | .inf n => ⟨if n then nan64 else inf64 false, false, false⟩
  | .fin n m e =>
    if m = 0 then ⟨inf64 true, false, true⟩
    else if n then ⟨nan64, false, false⟩
    else if a = one64 then ⟨0, false, false⟩
    else roundFn 0x12 a 128 (fun p => lnI p m e)

/-- LOG1P: ln of the exact sum 1 + a. -/
def log1p64 (a : Word) : FRes :=
  match val64 a with
  | .nan => ⟨nan64, false, false⟩
  | .inf n => ⟨if n then nan64 else inf64 false, false, false⟩
  | .fin n m e =>
    if m = 0 then ⟨zero64 n, false, false⟩
    else
      let s := sumFin false 1 0 n m e
      if s.2.1 = 0 then ⟨inf64 true, false, true⟩
      else if s.1 then ⟨nan64, false, false⟩
      else roundFn 0x13 a (exactBits e + 64) (fun p => lnI p s.2.1 s.2.2)

/-- A value with a sign put on it. -/
def FRes.signed (neg : Bool) (r : FRes) : FRes := if neg then { r with val := neg64 r.val } else r

/-- TANH: (e^2a - 1) / (e^2a + 1), odd. -/
def tanh64 (a : Word) : FRes :=
  match val64 a with
  | .nan => ⟨nan64, false, false⟩
  | .inf n => ⟨if n then neg64 one64 else one64, false, false⟩
  | .fin n m e =>
    if m = 0 then ⟨zero64 n, false, false⟩
    else if atLeast m e 20 then ⟨if n then neg64 one64 else one64, false, false⟩
    else (roundFn 0x14 (if n then neg64 a else a) (exactBits e + 64) (fun p =>
      let x := expm1I p (fixI p false m (e + 1))
      Ival.div p x (x.add ⟨2 * 2 ^ p, 2 * 2 ^ p⟩))).signed n

/-- SIGMOID: 1 / (1 + e^-a). -/
def sigmoid64 (a : Word) : FRes :=
  match val64 a with
  | .nan => ⟨nan64, false, false⟩
  | .inf n => ⟨if n then 0 else one64, false, false⟩
  | .fin n m e =>
    if m = 0 then ⟨0x3FE0_0000_0000_0000, false, false⟩
    else if atLeast m e 746 then ⟨if n then 0 else one64, false, false⟩
    else roundFn 0x15 a (exactBits e + 1100) (fun p =>
      Ival.div p ⟨2 ^ p, 2 ^ p⟩ ((expI p (fixI p (!n) m e)).add ⟨2 ^ p, 2 ^ p⟩))

/-- ERF, odd; from 6 upwards the result rounds to 1. -/
def erf64 (a : Word) : FRes :=
  match val64 a with
  | .nan => ⟨nan64, false, false⟩
  | .inf n => ⟨if n then neg64 one64 else one64, false, false⟩
  | .fin n m e =>
    if m = 0 then ⟨zero64 n, false, false⟩
    else if atLeast m e 6 then ⟨if n then neg64 one64 else one64, false, false⟩
    else (roundFn 0x16 (if n then neg64 a else a) (exactBits e + 64) (fun p => erfI p (fixI p false m e))).signed n

/-- GELU: the sequence of R158. -/
def gelu64 (a : Word) : FRes :=
  let h := mul64f a 0x3FE6_A09E_667F_3BCD
  let t := erf64 h.1
  let u := add64f one64 t.val
  let x := mul64f 0x3FE0_0000_0000_0000 a
  let r := mul64f x.1 u.1
  ⟨r.1, h.2 || t.ovf || u.2 || x.2 || r.2, false⟩

end Sys2Proof.Machine
end

