-- ==== Sys2Proof/Machine/Vector.lean ====
section
/-!
DEFINITION. The vector unit (R152 to R163): strand instructions, element programs, MAP, ROW_MAX, ROW_MIN and K_FOLD, tile
row by tile row.
-/

namespace Sys2Proof.Machine

/-! ## Instructions (R157 to R159) -/

/-- The larger or smaller of two values, -0 below +0. -/
def maxW (a b : Word) : Word := if isNan64 a || isNan64 b then nan64 else if ordKey a < ordKey b then b else a
def minW (a b : Word) : Word := if isNan64 a || isNan64 b then nan64 else if ordKey b < ordKey a then b else a

/-- A value passed on, NaN made canonical. -/
def movW (a : Word) : Word := if isNan64 a then nan64 else a

def boolW (b : Bool) : Word := if b then one64 else 0

/-- A comparison: false with a NaN. -/
def cmpW (f : Int → Int → Bool) (a b : Word) : Word := boolW (!isNan64 a && !isNan64 b && f (cmpKey a) (cmpKey b))

def ofPair (r : Word × Bool) : FRes := ⟨r.1, r.2, false⟩
def ofWord (w : Word) : FRes := ⟨w, false, false⟩

/-- The result of one instruction but RAND. -/
def vinstr (opc : Nat) (a b c : Word) : FRes :=
  match opc with
  | 0x01 => ofPair (add64f a b)
  | 0x02 => ofPair (sub64f a b)
  | 0x03 => ofPair (mul64f a b)
  | 0x04 => ofPair (fma64f a b c)
  | 0x05 => div64 a b
  | 0x06 => sqrt64 a
  | 0x07 => rsqrt64 a
  | 0x08 => ofWord (if isNan64 a then nan64 else neg64 a)
  | 0x09 => ofWord (if isNan64 a then nan64 else a &&& 0x7FFF_FFFF_FFFF_FFFF)
  | 0x0A => ofWord (maxW a b)
  | 0x0B => ofWord (minW a b)
  | 0x0C => ofWord (cmpW (fun x y => decide (x < y)) a b)
  | 0x0D => ofWord (cmpW (fun x y => decide (x ≤ y)) a b)
  | 0x0E => ofWord (cmpW (fun x y => decide (x = y)) a b)
  | 0x0F => ofWord (movW (if !isNan64 c && cmpKey c != 0 then a else b))
  | 0x10 => exp64 a
  | 0x11 => expm164 a
  | 0x12 => log64 a
  | 0x13 => log1p64 a
  | 0x14 => tanh64 a
  | 0x15 => sigmoid64 a
  | 0x16 => erf64 a
  | 0x17 => gelu64 a
  | _ => ofWord (movW a)

/-- DIVZERO and VU_OVF of a result, as bits 1 and 0 of VEC_FLAGS (R162). -/
def FRes.bits (r : FRes) : Nat := flagBit r.divz 1 + flagBit r.ovf 0

/-! ## Strand instructions: strand `n` of a core -/

def strandDflt (_ : Nat) : Strand := {}
def strandKey (core n : Nat) : Nat := core * 8192 + n
def State.strand (s : State) (k : Nat) : Strand := SMap.get strandDflt s.units.strands k
def State.setStrand (s : State) (k : Nat) (x : Strand) : State :=
  { s with units := { s.units with strands := SMap.set strandDflt s.units.strands k x } }

def Strand.reg (x : Strand) (i : Nat) : Word := x.regs.getD i 0
def Strand.setReg (x : Strand) (i : Nat) (v : Word) : Strand :=
  let l := x.regs ++ List.replicate (16 - x.regs.length) 0
  { x with regs := listSet l i v }

/-- One instruction of a strand: sources are read, DST is written, flags gather. -/
def strandInstr (opc core n d a b c : Nat) (s : State) : State :=
  let k := strandKey core n
  let x := s.strand k
  let r := vinstr opc (x.reg a) (x.reg b) (x.reg c)
  s.setStrand k { x.setReg d r.val with flags := Nat.lor x.flags r.bits }

/-- The strand and the registers exist. -/
def strandOk (core n : Nat) (rs : List Nat) : Bool := decide (core < 192) && decide (n < 8192) && rs.all (fun r => decide (r < 16))

def execAdd (core n d a b : Nat) (s : State) : Out := onUnit (strandOk core n [d, a, b]) (strandInstr 0x01 core n d a b 0 s)
def execSub (core n d a b : Nat) (s : State) : Out := onUnit (strandOk core n [d, a, b]) (strandInstr 0x02 core n d a b 0 s)
def execMul (core n d a b : Nat) (s : State) : Out := onUnit (strandOk core n [d, a, b]) (strandInstr 0x03 core n d a b 0 s)
def execFma (core n d a b c : Nat) (s : State) : Out := onUnit (strandOk core n [d, a, b, c]) (strandInstr 0x04 core n d a b c s)
def execDiv (core n d a b : Nat) (s : State) : Out := onUnit (strandOk core n [d, a, b]) (strandInstr 0x05 core n d a b 0 s)
def execSqrt (core n d a : Nat) (s : State) : Out := onUnit (strandOk core n [d, a]) (strandInstr 0x06 core n d a 0 0 s)
def execRsqrt (core n d a : Nat) (s : State) : Out := onUnit (strandOk core n [d, a]) (strandInstr 0x07 core n d a 0 0 s)
def execNeg (core n d a : Nat) (s : State) : Out := onUnit (strandOk core n [d, a]) (strandInstr 0x08 core n d a 0 0 s)
def execAbs (core n d a : Nat) (s : State) : Out := onUnit (strandOk core n [d, a]) (strandInstr 0x09 core n d a 0 0 s)
def execMax (core n d a b : Nat) (s : State) : Out := onUnit (strandOk core n [d, a, b]) (strandInstr 0x0A core n d a b 0 s)
def execMin (core n d a b : Nat) (s : State) : Out := onUnit (strandOk core n [d, a, b]) (strandInstr 0x0B core n d a b 0 s)
def execCmplt (core n d a b : Nat) (s : State) : Out := onUnit (strandOk core n [d, a, b]) (strandInstr 0x0C core n d a b 0 s)
def execCmple (core n d a b : Nat) (s : State) : Out := onUnit (strandOk core n [d, a, b]) (strandInstr 0x0D core n d a b 0 s)
def execCmpeq (core n d a b : Nat) (s : State) : Out := onUnit (strandOk core n [d, a, b]) (strandInstr 0x0E core n d a b 0 s)
def execSelect (core n d a b c : Nat) (s : State) : Out := onUnit (strandOk core n [d, a, b, c]) (strandInstr 0x0F core n d a b c s)
def execExp (core n d a : Nat) (s : State) : Out := onUnit (strandOk core n [d, a]) (strandInstr 0x10 core n d a 0 0 s)
def execExpm1 (core n d a : Nat) (s : State) : Out := onUnit (strandOk core n [d, a]) (strandInstr 0x11 core n d a 0 0 s)
def execLog (core n d a : Nat) (s : State) : Out := onUnit (strandOk core n [d, a]) (strandInstr 0x12 core n d a 0 0 s)
def execLog1p (core n d a : Nat) (s : State) : Out := onUnit (strandOk core n [d, a]) (strandInstr 0x13 core n d a 0 0 s)
def execTanh (core n d a : Nat) (s : State) : Out := onUnit (strandOk core n [d, a]) (strandInstr 0x14 core n d a 0 0 s)
def execSigmoid (core n d a : Nat) (s : State) : Out := onUnit (strandOk core n [d, a]) (strandInstr 0x15 core n d a 0 0 s)
def execErf (core n d a : Nat) (s : State) : Out := onUnit (strandOk core n [d, a]) (strandInstr 0x16 core n d a 0 0 s)
def execGelu (core n d a : Nat) (s : State) : Out := onUnit (strandOk core n [d, a]) (strandInstr 0x17 core n d a 0 0 s)
def execMov (core n d a : Nat) (s : State) : Out := onUnit (strandOk core n [d, a]) (strandInstr 0x19 core n d a 0 0 s)

/-- RAND (R159): the draw of the strand's element. -/
def strandRand (core n d seq : Nat) (s : State) : State :=
  let k := strandKey core n
  let x := s.strand k
  s.setStrand k (x.setReg d (randVal { job := s.jobId, step := x.step, tensor := x.tensor } x.row x.col seq))

def execRand (core n d seq : Nat) (s : State) : Out := onUnit (strandOk core n [d]) (strandRand core n d seq s)

/-! ## Element programs (R155, R156) -/

/-- The instruction words of an op. -/
def State.program (s : State) (sid : Nat) (o : Op) : List Nat :=
  (List.range (o.kp 55 50)).map (fun i => s.iw sid false (o.param + 96 + 8 * i))

/-- The input values of an element of the grid, broadcast as R156 says. -/
def State.vecIn (s : State) (sid : Nat) (o : Op) (i b r c : Nat) : Word :=
  let w := (o.opnd i).shape
  s.inVal sid o i (if shBatch w = 1 then 0 else b) (if shR w = 1 then 0 else r) (if shC w = 1 then 0 else c)

/-- The registers before an element's program runs (R156). -/
def State.vecRegs (s : State) (sid : Nat) (o : Op) (b r c : Nat) : List Word :=
  let nin := o.kp 63 60
  let nc := o.kp 59 56
  (List.range 16).map (fun i =>
    if i < nin then s.vecIn sid o i b r c
    else if 8 ≤ i ∧ i < 8 + nc then o.pword (4 + (i - 8))
    else 0)

/-- The strand of an element as its program begins. -/
def State.vecStrand (s : State) (sid : Nat) (o : Op) (b r c : Nat) : Strand :=
  let id := s.tensorId sid o (o.nopnd - 1)
  let p := s.viewOf sid id (s.firstTile sid o (o.nopnd - 1)) b r c
  { regs := s.vecRegs sid o b r c, row := p.1, col := p.2, tensor := id, step := (s.slot sid).step }

/-- One instruction word over a strand's registers. -/
def Strand.exec (job : Word) (x : Strand) (w : Nat) : Strand :=
  let opc := w / 2 ^ 56 % 256
  let d := w / 2 ^ 52 % 16
  if opc = 0x18 then x.setReg d (randVal { job := job, step := x.step, tensor := x.tensor } x.row x.col (w % 2 ^ 16))
  else
    let r := vinstr opc (x.reg (w / 2 ^ 48 % 16)) (x.reg (w / 2 ^ 44 % 16)) (x.reg (w / 2 ^ 40 % 16))
    { x.setReg d r.val with flags := Nat.lor x.flags r.bits }

/-- The result of an element of the grid, with its flags: its program's OUTREG, or the fold of the partials (R161). -/
def State.vecElem (s : State) (sid : Nat) (o : Op) (b r c : Nat) : Word × Nat :=
  if o.opcode = 4 then
    let vs := (List.range (o.nopnd - 1)).map (fun i => s.inVal sid o i b r c)
    let f := foldPartials (vs.headD 0) (vs.drop 1)
    (f.1, flagBit f.2 0)
  else
    let x := (s.program sid o).foldl (Strand.exec s.jobId) (s.vecStrand sid o b r c)
    (x.reg (o.kp 49 46), x.flags)

/-! ## Tile rows (R152) -/

/-- The tile rows of an op's grid in order: matrix, row, first column; tiles in tile order, rows within a tile. -/
def Op.tileRows (o : Op) : List (Nat × Nat × Nat) :=
  let g := vecGrid o
  (List.range g.2.2).flatMap (fun b => (List.range (cdiv g.1 32)).flatMap (fun tr => (List.range (cdiv g.2.1 32)).flatMap (fun tc =>
    ((List.range 32).filter (fun i => decide (32 * tr + i < g.1))).map (fun i => (b, 32 * tr + i, 32 * tc)))))

/-- The columns of the tile row that starts at column `c`. -/
def Op.rowCols (o : Op) (c : Nat) : List Nat := ((List.range 32).map (· + c)).filter (fun k => decide (k < (vecGrid o).2.1))

/-- The tile rows (by number) of the tile that holds tile row `i`. -/
def Op.tileMates (o : Op) (i : Nat) : List Nat :=
  let rs := o.tileRows
  let x := rs.getD i (0, 0, 0)
  (List.range rs.length).filter (fun j => let y := rs.getD j (0, 0, 0)
    y.1 == x.1 && y.2.1 / 32 == x.2.1 / 32 && y.2.2 == x.2.2)

/-- The first strand of a vector op's groups: the lowest run of strands that no running op of the core holds. -/
def State.strandBase (s : State) (sid : Nat) (o : Op) : Nat :=
  let live := (s.ops sid false).filter (fun x => x.unit == o.unit && x.cls == 1 && x.index != o.index
    && ((s.opRun sid x.index).phase == .running || (s.opRun sid x.index).phase == .computed))
  let used := live.map (fun x => ((s.opRun sid x.index).base, 32 * x.kp 45 37))
  let n := 32 * o.kp 45 37
  ((0 :: used.map (fun u => u.1 + u.2)).find? (fun b =>
    decide (b + n ≤ 8192) && used.all (fun u => decide (b + n ≤ u.1) || decide (u.1 + u.2 ≤ b)))).getD 0

/-- A group takes a tile row: its strands receive the elements' registers. -/
def State.takeRow (s : State) (sid : Nat) (o : Op) (group i : Nat) : State :=
  let x := o.tileRows.getD i (0, 0, 0)
  let core := s.coreOf sid o
  let base := (s.opRun sid o.index).base + 32 * group
  forEach (o.rowCols x.2.2) (fun c t => t.setStrand (strandKey core (base + c % 32)) (s.vecStrand sid o x.1 x.2.1 c)) s

/-- The strands that a core's vector ops may hold (R49, R153). -/
def State.strandLimit (s : State) (sid u : Nat) : Nat :=
  Nat.min 8192 (s.imgNat sid false 0x38 8 / 2 ^ (16 * u) % 2 ^ 16)

/-- Instruction-issue cycles of an op: simple and function instructions (R163). -/
def State.issueCycles (s : State) (sid : Nat) (o : Op) : Nat × Nat :=
  let g := vecGrid o
  let e := g.1 * g.2.1 * g.2.2
  let isFn (opc : Nat) : Bool := opc == 5 || opc == 6 || opc == 7 || (decide (0x10 ≤ opc) && decide (opc ≤ 0x18))
  let ops := (s.program sid o).map (fun w => w / 2 ^ 56 % 256)
  let f := (ops.filter isFn).length
  let n := (ops.filter (fun x => !isFn x)).length + 3 * (ops.filter (fun x => x == 0x17)).length
    + (if o.opcode = 2 ∨ o.opcode = 3 then 1 else 0)
  if o.opcode = 4 then (cdiv e 256 * (o.nopnd - 1), 0) else (cdiv e 256 * n, cdiv e 32 * f)

/-- A vector op starts once its groups fit: its first GROUPS tile rows are taken (R152, R153). -/
def vectorStart (sid op code : Nat) (s : State) : State :=
  match s.opOf sid op 1 code with
  | none => s
  | some o =>
    let s := s.issue sid o
    let fits := decide (s.resident sid o.unit + 32 * o.kp 45 37 ≤ s.strandLimit sid o.unit)
    if (s.opRun sid op).phase ≠ .waiting ∨ !fits then s
    else
      let base := s.strandBase sid o
      let (t, go) := s.begin' sid o
      if !go then t
      else
        let groups := o.kp 45 37
        let items : List WorkItem := (List.range o.tileRows.length).map (fun i =>
          { index := i, engine := i % groups, taken := decide (i < groups) })
        let t := t.setOp sid op { t.opRun sid op with items := items, base := base }
        let t := forN (Nat.min groups items.length) (fun g u => u.takeRow sid o g g) t
        let cy := t.issueCycles sid o
        let die := t.slotDie sid
        ((t.bump die (0x09 + o.unit) 0xC00 cy.1).bump die (0x09 + o.unit) 0xC08 cy.2).showStrands sid o.unit

def execMap (sid op : Nat) (s : State) : Out := onUnit (decide (sid < 60)) (vectorStart sid op 1 s)
def execRowMax (sid op : Nat) (s : State) : Out := onUnit (decide (sid < 60)) (vectorStart sid op 2 s)
def execRowMin (sid op : Nat) (s : State) : Out := onUnit (decide (sid < 60)) (vectorStart sid op 3 s)
def execKFoldVector (sid op : Nat) (s : State) : Out := onUnit (decide (sid < 60)) (vectorStart sid op 4 s)

/-- The flags of a list of results and their conversion (R162). -/
def vecFlags (vs : List (Word × Nat)) (cf : CvtFlags) : Nat :=
  Nat.lor (vs.foldl (fun a v => Nat.lor a v.2) 0)
    (flagBit (vs.any (fun v => isNan64 v.1)) 2 + flagBit (vs.any (fun v => isInf64 v.1)) 3 + flagBit cf.ovf 4 + flagBit cf.nan 5)

/-- Whether an op's output is an unrounded partial of a fold. -/
def Op.rawFold (o : Op) : Bool := o.opcode == 4 && kpN (o.p 2) != 1

/-- The tile that holds tile row `i` is finished: it is written, and its elements' flags join the op's. -/
def State.writeTile (s : State) (sid : Nat) (o : Op) (i : Nat) : State :=
  let rs := o.tileRows
  let out := o.nopnd - 1
  let w := (o.opnd out).shape
  let x := rs.getD i (0, 0, 0)
  let t := tileIndex w x.1 x.2.1 x.2.2
  let vs := (o.tileMates i).flatMap (fun j => let y := rs.getD j (0, 0, 0); (o.rowCols y.2.2).map (fun c => s.vecElem sid o y.1 y.2.1 c))
  let p := tensorTile o.cvt o.rawFold w (fun b r c => (s.vecElem sid o b r c).1) (s.drawsOf sid o out) t
  let u := s.putAt sid o out (t * tileBytes (shFmt w)) p.1
  let r := u.opRun sid o.index
  u.setOp sid o.index { r with flags := Nat.lor r.flags (vecFlags vs p.2) }

/-- The folds of a ROW_MAX or ROW_MIN op (R160) are written. -/
def State.writeFolds (s : State) (sid : Nat) (o : Op) : State :=
  let g := vecGrid o
  let pick := if o.opcode = 2 then maxW else minW
  let row (b r : Nat) : List (Word × Nat) := (List.range g.2.1).map (fun c => s.vecElem sid o b r c)
  let fold (l : List (Word × Nat)) : Word := (l.drop 1).foldl (fun a v => pick a v.1) (movW ((l.headD (0, 0)).1))
  let all := (List.range g.2.2).flatMap (fun b => (List.range g.1).map (fun r => row b r))
  let (t, cf) := s.putTensor sid o (o.nopnd - 1) false (fun b r _ => fold (row b r))
  let outs := all.map (fun l => (fold l, l.foldl (fun a v => Nat.lor a v.2) 0))
  let r := t.opRun sid o.index
  t.setOp sid o.index { r with flags := Nat.lor r.flags (vecFlags outs cf) }

/-- Replaces one item of a list. -/
def setItem (l : List WorkItem) (x : WorkItem) : List WorkItem := l.map (fun y => if y.index = x.index then x else y)

/-- A unit of work disagreed a second time (R303). -/
def State.reexecTwice (s : State) (sid op typ inst : Nat) : State :=
  s.raise (s.slotDie sid) 0x0404 { typ := typ, inst := inst, op := op }

/-- TILE_ROW_COMPLETE (R152, R303): a group finishes its tile row and takes the next; while a context switch waits it takes none,
and the switch follows (R164). A disagreement re-executes the tile row, or the group of 32 rows of a class-0x02 op; a second
one in it is PARTITION_FATAL. -/
def tileRowComplete (sid op group : Nat) (disagree : Bool) (s : State) : State :=
  match s.liveOp sid op with
  | none => s
  | some o =>
    let r := s.opRun sid op
    let core := s.coreOf sid o
    if o.cls = 2 then (if disagree then s.rowDisagrees sid o group else s)
    else if o.cls ≠ 1 ∨ r.phase ≠ .running ∨ s.coreSaved sid o then s
    else match r.items.find? (fun x => x.taken && !x.finished && x.engine == group) with
      | none => s
      | some x =>
        if disagree then
          (if x.retried then s.reexecTwice sid op 0x04 o.unit
           else s.setOp sid op { r with items := setItem r.items { x with retried := true }, reexec := r.reexec + 1 })
        else
          let items := setItem r.items { x with finished := true }
          let due := (s.core core).saveDue
          let next := if due then none else items.find? (fun y => !y.taken)
          let items := match next with
            | some y => setItem items { y with taken := true, engine := group }
            | none => items
          let t := s.setOp sid op { r with items := items }
          let t := match next with
            | some y => t.takeRow sid o group y.index
            | none => t
          let done (j : Nat) : Bool := items.any (fun y => y.index == j && y.finished)
          let t := if (o.opcode = 1 ∨ o.opcode = 4) ∧ (o.tileMates x.index).all done then t.writeTile sid o x.index else t
          let t := if items.all (fun y => y.finished) then
              ((if o.opcode = 2 ∨ o.opcode = 3 then t.writeFolds sid o else t).finish sid o 0)
            else t
          if due then t.saveIfDue core else t

def execTileRowComplete (sid op group : Nat) (disagree : Bool) (s : State) : Out :=
  onUnit (decide (sid < 60)) (tileRowComplete sid op group disagree s)

/-- The groups of a vector op that have no tile row take the next ones (R152, R164). -/
def State.resumeGroups (s : State) (sid : Nat) (o : Op) : State :=
  forN (o.kp 45 37) (fun g t =>
    let r := t.opRun sid o.index
    if r.items.any (fun x => x.taken && !x.finished && x.engine == g) then t
    else match r.items.find? (fun y => !y.taken) with
      | none => t
      | some y => (t.setOp sid o.index { r with items := setItem r.items { y with taken := true, engine := g } }).takeRow sid o g y.index) s

end Sys2Proof.Machine
end

