-- ==== Sys2Proof/Machine/Assay.lean ====
section
/-!
DEFINITION. Assays and their decisions (R312 to R315), touchstone runs (R321), release runs (R317), the fault window
(R316), context switches (R120) and tapers (R118).
-/

namespace Sys2Proof.Machine

/-! ## Assays (R312, R313) -/

/-- The dispute of a core that is assayed next: by increasing physical array number (R325). -/
def State.nextDispute (s : State) (core : Nat) (second : Bool) : Option Dispute :=
  (List.range 7).findSome? (fun a => s.units.disputes.find? (fun d => d.core == core && d.array == a && d.second == second))

/-- Two disputes of one row and slice are the same. -/
def Dispute.same (a b : Dispute) : Bool := a.sid == b.sid && a.op == b.op && a.row == b.row && a.colTile == b.colTile

def State.dropDispute (s : State) (d : Dispute) : State :=
  { s with units := { s.units with disputes := s.units.disputes.filter (fun x => !x.same d) } }

/-- ASY_STAT's last decision (R327). -/
def State.decided (s : State) (d : Dispute) (n : Nat) : State :=
  let t := s.setField (arrDie d.core) (arrBlk d.core) 0x090 10 8 d.array
  t.setField (arrDie d.core) (arrBlk d.core) 0x090 7 0 n

/-- The KIND of a capture: strict and promotion disputes have their own (R320). -/
def captureKind (o : Op) (d : Dispute) (base : Nat) : Nat :=
  if o.strict then 3 else if d.original.any (fun r => r.promo != 0) then 2 else base

/-- The first lane whose promotion an upset struck. -/
def promoLane (d : Dispute) : Nat := (d.original.findIdx? (fun r => r.promo != 0)).getD 0

/-- Captures the disputed chunk for a charge to an array (R319). -/
def State.charge (s : State) (d : Dispute) (o : Op) (core a base : Nat) (c : Cond) (sound : List LaneResult) :
    State × List Byte × Nat :=
  s.capture d.sid (s.captureOf d.sid o d.row d.colTile d.chunk (captureKind o d base) core a c (promoLane d) sound)

/-- A decision promotes a value and is recorded with its code (R313). -/
def State.resolveDispute (s : State) (d : Dispute) (o : Op) (c : Cond) (n code : Nat) (rs : List LaneResult) (fl : StrictFlags)
    (entry : List Byte) (idx : Nat) : State :=
  let t := ((s.dropDispute d).decided d n).takeChunk d.sid o d.row d.colTile rs fl
  (t.raise (arrDie d.core) code (arraySite d.core d.array d.op c entry idx)).saveIfDue d.core

/-- STEP_REPLAY of R313: the die's share of the step is replayed, and the die becomes SUSPECT. -/
def State.stepReplay (s : State) (d : Dispute) (c : Cond) : State :=
  let t := ((s.aryBump d.core 0xCD8).decided d 4).suspectDie (arrDie d.core)
  t.raise (arrDie d.core) 0x0403 (arraySite d.core d.array d.op c [] 0)

/-- The chunk as a standby array delivers it. -/
def State.reRun (s : State) (d : Dispute) (o : Op) (us : List LaneUpset) : List LaneResult × Bool × StrictFlags :=
  let outs := s.runChunk d.sid o d.row d.colTile d.chunk us
  (outs.map (fun x => x.1.res), outs.any (fun x => x.1.bad || x.1.promoBad), outs.foldl (fun f x => f.or x.2) ({} : StrictFlags))

/-- ASSAY (R312, R313): the disputed chunk of a core on its standby array. -/
def assay (core : Nat) (us : List LaneUpset) (c : Cond) (s : State) : State :=
  match s.nextDispute core false with
  | none => s
  | some d =>
    let o := s.opAt d.sid false d.op
    match (s.standbys core)[0]? with
    | none => s.stepReplay d c
    | some sb =>
      let (as, bad, fl) := s.reRun d o us
      let s := (s.aryBump core 0xCC0).countChunk sb 6 (o.newSlice d.chunk) (as.any (fun x => x.repeated))
      if bad then
        let u := s.aryBump core 0xCD8
        { u with units := { u.units with disputes := u.units.disputes.map (fun (x : Dispute) =>
          if x.same d then { x with assay := as, second := true, standby := sb } else x) } }
      else if as = d.original then
        (let (t, e, i) := s.charge d o core d.array 1 c as
         ((t.strike core d.array).aryBump core 0xCC8).resolveDispute d o c 1 0x0400 d.original fl e i)
      else
        let (t, e, i) := s.charge d o core d.array 0 c as
        ((t.confirmFault core d.array c).aryBump core 0xCD0).resolveDispute d o c 2 0x0401 as fl e i

def execAssay (core : Nat) (upset : List LaneUpset) (c : Cond) (s : State) : Out :=
  onUnit (decide (core < 192)) (assay core upset c s)

/-- SECOND_ASSAY (R313): on the standby array of a neighbouring core. -/
def secondAssay (core : Nat) (us : List LaneUpset) (c : Cond) (s : State) : State :=
  match s.nextDispute core true with
  | none => s
  | some d =>
    let o := s.opAt d.sid false d.op
    match (s.standbys core).find? (fun x => x != d.standby) with
    | none => s.stepReplay d c
    | some sb =>
      let (bs, bad, fl) := s.reRun d o us
      let s := (s.aryBump core 0xCC0).countChunk sb 6 (o.newSlice d.chunk) (bs.any (fun x => x.repeated))
      if bad then s.stepReplay d c
      else
        let die := arrDie core
        if bs = d.original then
          (let (t, e, i) := s.charge d o core d.array 1 c bs
           let (t, _, _) := (t.strike core d.array).charge d o d.standby 6 1 c bs
           ((t.strike d.standby 6).suspectDie die).resolveDispute d o c 3 0x0402 d.original fl e i)
        else if bs = d.assay then
          (let (t, e, i) := s.charge d o core d.array 0 c bs
           let (t, _, _) := (t.confirmFault core d.array c).charge d o d.standby 6 1 c bs
           ((t.strike d.standby 6).suspectDie die).resolveDispute d o c 3 0x0402 bs fl e i)
        else
          let (t, e, i) := s.charge d o core d.array 0 c bs
          let (t, _, _) := (t.confirmFault core d.array c).charge d o d.standby 6 0 c bs
          ((t.confirmFault d.standby 6 c).suspectDie die).resolveDispute d o c 3 0x0402 bs fl e i

def execSecondAssay (core : Nat) (upset : List LaneUpset) (c : Cond) (s : State) : Out :=
  onUnit (decide (core < 192)) (secondAssay core upset c s)

/-! ## Touchstone runs (R317, R321) -/

/-- A little-endian bit field of a byte string. -/
def bitsAt (bs : List Byte) (bit n : Nat) : Nat := leNat bs / 2 ^ bit % 2 ^ n

/-- The positions of lane `l` of an entry's chunk: the row chunk with its scale byte, the stationary chunk with its scale
bytes (R320). -/
def entryPos (e : List Byte) (l : Nat) : List DotPos :=
  let f := natAt e 0x03 1 % 16
  let n := fmtBits f
  let row := bytesAt e 0x100 128
  let slice := bytesAt e 0x200 0x2080
  let xa := natAt row (4 * n) 1
  let xb := natAt slice (512 * n + l) 1
  (List.range (natAt e 0x1B 1)).map (fun k =>
    ⟨bitsAt row (n * k) n, if fmtIsMx f then xa else 0, bitsAt slice (n * (128 * k + l)) n, if fmtIsMx f then xb else 0⟩)

/-- The lanes that an entry's PACK gives it. -/
def entryLanes (e : List Byte) : Nat := if natAt e 0x02 1 = 2 ∨ natAt e 0x02 1 = 3 then 1 else nSlice (natAt e 0x1A 1 % 3)

/-- A run delivers what the entry's SUMS, TOPS and REPEAT, or its ENTRY_OUT, hold (R321). -/
def entryMatches (e : List Byte) (us : List LaneUpset) : Bool :=
  let f := natAt e 0x03 1 % 16
  let kind := natAt e 0x02 1
  if kind = 3 then
    (let r := strictDot (code32 (wordAt e (0x2710 / 8))) ((entryPos e 0).map (fun p => (p.a, p.b)))
     let x := (((upsetOf us 0).map (fun (u : LaneUpset) => u.promo)).getD 0)
     (fvTo64 (spec32.decode r.1) + BitVec.ofNat 64 x) == wordAt e (0x2720 / 8))
  else if kind = 2 then
    (promote (wordAt e (0x2710 / 8)) (laneRun f (entryPos e 0) (upsetOf us 0)).res).1 == wordAt e (0x2720 / 8)
  else
    (List.range (entryLanes e)).all (fun l =>
      let r := (laneRun f (entryPos e l) (upsetOf us l)).res
      natAt e (0x2400 + 4 * l) 4 == (BitVec.ofInt 32 r.sum).toNat && natAt e (0x2600 + 2 * l) 2 == (BitVec.ofInt 16 r.top).toNat
        && (bitsAt (bytesAt e 0x2700 16) l 1 == 1) == r.repeated)

/-- A pattern of the base set agrees with its stored results on a sound array (R465). -/
def baseMatches (e : List Byte) (us : List LaneUpset) : Bool :=
  let f := natAt e 0x03 1 % 16
  (List.range (entryLanes e)).all (fun l => (laneRun f (entryPos e l) (upsetOf us l)).res == laneChunk f (entryPos e l))

/-- The result of one run of pattern `index`: a library entry, or 4,096 + i for pattern i of the base set; none when there is
no such pattern. -/
def State.runPattern (s : State) (index : Nat) (us : List LaneUpset) : Option (Bool × List Byte) :=
  if 4096 ≤ index then
    (if index < 4352 then some (baseMatches (Config.basePattern (index - 4096)) us, Config.basePattern (index - 4096)) else none)
  else match s.units.library.find? (fun e => e.index == index) with
    | some e => some (entryMatches e.bytes us, e.bytes)
    | none => none

/-- The bins that a die's restrictions allow (R42, R317). -/
def State.binsAllowed (s : State) (die : Nat) : List Nat :=
  (List.range 4).filter (fun b => !s.pwr.excluded.contains (die * 4 + b) && !(s.stu.b2Only && b != 2))

/-- Every run that a release needs has matched (R317). -/
def State.releaseWhole (s : State) (core : Nat) (ran : List Nat) : Bool :=
  ((List.range 256).map (· + 4096) ++ s.units.library.map (fun (e : Touchstone) => e.index)).all (fun p =>
    (s.binsAllowed (arrDie core)).all (fun b => ran.contains (4 * p + b)))

/-- ARRAY_RELEASED (R317). -/
def State.releaseEvent (s : State) (core a res : Nat) : State :=
  match (s.array core a).release with
  | none => s
  | some v => (s.setArray core a { s.array core a with release := none, ran := [] }).event 0x0034 v 0 (BitVec.ofNat 64 res)

/-- A matching run counts towards the return of a SUSPECT array and towards a release (R316, R317, R321). -/
def State.runPassed (s : State) (core a index : Nat) : State :=
  let r := s.array core a
  let st := s.aryState core a
  let s := s.setArray core a { r with passes := r.passes + 1 }
  if st = 1 then (if r.marks.isEmpty then s.setAryState core a 0 else s)
  else if st = 2 ∧ r.release.isSome then
    let ran := NSet.add r.ran (4 * index + s.dieBin (arrDie core))
    let t := s.setArray core a { s.array core a with ran := ran }
    if t.releaseWhole core ran then
      let u := (t.setArray core a { t.array core a with marks := [], back := true }).setStrikes core a 0 0
      (u.setAryState core a 0).releaseEvent core a 1
    else t
  else s

/-- TOUCHSTONE_RUN (R321): a core runs a pattern on one array while no op of the core runs, or in an interlude. -/
def touchstoneRun (core a index : Nat) (us : List LaneUpset) (c : Cond) (s : State) : State :=
  let die := arrDie core
  let busy : Bool := match s.dieSlot die with
    | some sid => s.coreBusy sid (core % 4) && (s.core core).ctx.isNone
    | none => false
  if busy then s
  else match s.runPattern index us with
    | none => s
    | some (true, _) => (s.aryBump core 0xCE8).runPassed core a index
    | some (false, e) =>
      let s := (s.aryBump core 0xCE8).aryBump core 0xCF0
      let t := (s.confirmFault core a c).releaseEvent core a 0
      let sid := (s.dieSlot die).getD 60
      let (t, bs, i) :=
        if 4096 ≤ index then
          (let idx := libraryIndex t.units.library
           let head := leBytes 2 idx ++ (e.drop 2).take 0x1A ++ leBytes 4 1 ++ leBytes 8 (t.stepOf sid).toNat ++ zeros 24
           let bs := entryOf head (e.drop 0x100)
           (t.putEntry idx bs, bs, idx))
        else
          (let head := e.take 0x1C ++ leBytes 4 (natAt e 0x1C 4 + 1) ++ leBytes 8 (t.stepOf sid).toNat ++ zeros 24
           (t.putEntry index (entryOf head (e.drop 0x100)), [], index))
      t.raise die 0x0406 (arraySite core a 0xFFFFFF c bs i)

def execTouchstoneRun (core array index : Nat) (upset : List LaneUpset) (c : Cond) (s : State) : Out :=
  onUnit (decide (core < 192 ∧ array < 7)) (touchstoneRun core array index upset c s)

/-! ## Release requests (R317, R492) -/

/-- FLT_ARY_REL. -/
def fltAryRel (p : Path) (v : Word) (s : State) : State :=
  let die := fld v 15 10
  let a := fld v 2 0
  let core := 4 * die + fld v 9 8
  let no (r : Nat) : State := s.reject 60 0x21 0x0E8 r
  match s.checkWrite p 60 0x21 0x0E8 v with
  | some r => no r
  | none =>
    if 48 ≤ die ∨ 6 < a ∨ s.stu.outDies.contains die then no rejRange
    else if s.aryState core a ≠ 2 ∨ (s.array core a).release.isSome then no rejState
    else s.setArray core a { s.array core a with release := some v.toNat, ran := [] }

def execFltAryRel (p : Path) (v : Word) (s : State) : Out := ok (fltAryRel p v s)

/-- RELEASE_RUN_LAPSE (R317). -/
def execReleaseRunLapse (core array : Nat) (s : State) : Out :=
  onUnit (decide (core < 192 ∧ array < 7)) (s.releaseEvent core array 2)

/-- FAULT_WINDOW_EXPIRY (R315, R316, R318): the oldest confirmed fault of an array, or one strike of its checker, leaves the
window; array 7 stands for the die's own SUSPECT decision. -/
def faultWindowExpiry (core a : Nat) (strike : Bool) (s : State) : State :=
  if a = 7 then { s with stu := { s.stu with suspectDies := NSet.del s.stu.suspectDies (arrDie core) } }
  else if strike then
    let n := s.strikes core a - 1
    let ck := s.checker core a
    s.setStrikes core a n (if ck = 1 ∧ n = 0 then 0 else ck)
  else
    let r := s.array core a
    let t := s.setArray core a { r with marks := r.marks.drop 1 }
    if s.aryState core a = 1 ∧ (r.marks.drop 1).isEmpty ∧ r.passes ≠ 0 then t.setAryState core a 0 else t

def execFaultWindowExpiry (core array : Nat) (strike : Bool) (s : State) : Out :=
  onUnit (decide (core < 192 ∧ array < 8)) (faultWindowExpiry core array strike s)

/-! ## The restore (R120) -/

/-- CONTEXT_RESTORE: the saved context of a core returns, and its ops go on from their positions; their operands are staged
again, and vector groups take their next tile rows (R120, R143, R164). -/
def contextRestore (core : Nat) (s : State) : State :=
  match (s.core core).ctx with
  | none => s
  | some c =>
    let die := arrDie core
    let t := { s with units := { s.units with acc := setCoreAcc core s.units.acc c.acc } }
    let t := (t.wr die (corBlk core) 0x048 c.flags).wr die (corBlk core) 0x040 c.rampReg
    let t := forEach c.runs (fun e u =>
      let u := if (u.opRun c.sid e.1).phase = .running then u.setOp c.sid e.1 e.2 else u
      let o := u.opAt c.sid false e.1
      if o.cls = 0 ∧ o.opcode = 1 then u.stage c.sid o else if o.cls = 1 then u.resumeGroups c.sid o else u) t
    (t.setCore core { t.core core with ctx := none, ramp := c.ramp }).setCtxState core 0

def execContextRestore (core : Nat) (s : State) : Out := onUnit (decide (core < 192)) (contextRestore core s)

/-! ## Tapers (R118, R119, R424) -/

/-- IDLE_TAPER: the idle of a core's arrays reaches 512 cycles. In the modes that taper the first event begins the taper, with
fill rows, and the next one ends it, which asks for a grant; in FILL mode fill stops, with a grant (R118, R119). -/
def idleTaper (core : Nat) (s : State) : State :=
  let x := s.core core
  let busy : Bool := match s.dieSlot (arrDie core) with
    | some sid => (s.ops sid false).any (fun o => o.cls == 0 && o.unit == core % 4 && (s.opRun sid o.index).phase == .running)
    | none => false
  if busy ∨ x.ramp = 0 then s
  else if x.ramp = 4 then (s.setCore core { x with ramp := 0, fill := 0 }).askGrant core
  else if s.rampMode core = 1 ∨ s.rampMode core = 3 then (s.setCore core { x with ramp := 4 }).fillRows core
  else if x.ramp = 3 then (s.setCore core { x with ramp := 0, fill := 0 }).askGrant core
  else s.setCore core { x with ramp := 0 }

def execIdleTaper (core : Nat) (s : State) : Out := onUnit (decide (core < 192)) (idleTaper core s)

end Sys2Proof.Machine
end

