-- ==== Sys2Proof/Machine/Engines.lean ====
section
/-!
DEFINITION. The engine cluster and the link-side engines (R168 to R179, R257): work lists, stealing, the items of every
engine op, engines taken out of service, and the outcome of cross-replica checks (R310, R311).
-/

namespace Sys2Proof.Machine

/-! ## Engines and sublists (R168, R175) -/

/-- The field of ENG_SVC of a class (R183). -/
def svcField (cls : Nat) : Nat × Nat :=
  match cls with
  | 3 => (15, 0) | 4 => (23, 16) | 5 => (31, 24) | 6 => (35, 32) | 7 => (39, 36) | 8 => (41, 40) | _ => (43, 42)

/-- The engines of a class in service on a slot's die, in increasing number; the four LC engines of a link die (R257), and
the one transfer unit of a hub. -/
def State.engines (s : State) (sid cls : Nat) : List Nat :=
  if sid < 48 then
    (let f := svcField cls
     (List.range (f.1 + 1 - f.2)).filter (fun e => s.field (s.slotDie sid) 0x0D 0x040 (f.2 + e) (f.2 + e) == 1))
  else if cls = 0x0A then [0, 1, 2, 3] else [0]

/-- The items of the running ops of a class: op and item. -/
def State.work (s : State) (sid cls : Nat) : List (Nat × WorkItem) :=
  ((s.ops sid false).filter (fun x => x.cls == cls && (s.opRun sid x.index).phase == .running)).flatMap
    (fun x => (s.opRun sid x.index).items.map (fun i => (x.index, i)))

def State.putItem (s : State) (sid op : Nat) (i : WorkItem) : State :=
  let r := s.opRun sid op
  s.setOp sid op { r with items := setItem r.items i }

/-- The place after every item of a class's sublists. -/
def State.nextOrd (s : State) (sid cls : Nat) : Nat := (s.work sid cls).foldl (fun m x => Nat.max m (x.2.ord + 1)) 0

/-! ## Items (R168, R170) -/

/-- ITEM_TILES of COPY, ZERO, FAR_READ and FAR_WRITE. -/
def Op.itemTiles (o : Op) : Nat := o.kp 63 58

/-- Records of a SORT run. -/
def Op.runLen (o : Op) : Nat := 2 ^ o.kp 53 48

/-- The number of items of an engine op. -/
def Op.itemCount (o : Op) : Nat :=
  let w := o.last.shape
  if o.cls = 3 ∨ o.cls = 0x0D then cdiv (shTiles w) o.itemTiles
  else if o.cls = 4 then shBatch w * cdiv (shRows w) 32
  else if o.cls = 5 ∨ o.cls = 6 ∨ o.cls = 0x0A ∨ (o.cls = 9 ∧ o.opcode = 1) then shTiles w
  else if o.cls = 8 ∧ o.opcode = 1 then cdiv (shRows (o.opnd 0).shape) o.runLen
  else if o.cls = 9 then cdiv (o.bytes 0) 65536
  else 1

/-- The bytes of one tile row piece of a stored matrix: 32 elements of row `r` in tile column `tc`, with their scale byte
(R66, R105). -/
def State.rowPiece (s : State) (l : Loc) (w r tc : Nat) : List Byte × List Byte :=
  let f := shFmt w
  let t := l.add (((r / 32) * shTc w + tc) * tileBytes f)
  let n := 4 * fmtBits f
  let kept := fmtBits f * Nat.min 32 (shCols w - 32 * tc)
  (leBytes n (leNat (s.readLoc (t.add (r % 32 * n)) n) % 2 ^ kept), if fmtIsMx f then s.readLoc (t.add (128 * fmtBits f + r % 32)) 1 else [])

/-- A tile of a tensor of a shape with zeros in its padding; a block of padding alone has scale byte 0 (R106). -/
def maskTile (w tr tc : Nat) (bs : List Byte) : List Byte :=
  let f := shFmt w
  let ax := shBlkax w
  let here (r c : Nat) : Bool := decide (32 * tr + r < shRows w) && decide (32 * tc + c < shCols w)
  let code (r c : Nat) : Nat := if here r c then (tileElem f ax bs r c).1 else 0
  if fmtIsMx f then
    let at_ (b j : Nat) : Nat × Nat := if ax = 0 then (b, j) else (j, b)
    (List.range 32).flatMap (fun b =>
      leBytes (4 * fmtBits f) (((List.range 32).map (fun j => code (at_ b j).1 (at_ b j).2)).foldr (fun x a => x + 2 ^ fmtBits f * a) 0))
      ++ (List.range 32).map (fun b => if here (at_ b 0).1 (at_ b 0).2 then bs.getD (128 * fmtBits f + b) 0 else 0)
  else (List.range 1024).flatMap (fun k => leBytes (fmtBits f / 8) (code (k / 32) (k % 32)))

/-- A row of tiles put together from row pieces; none gives a zero row. -/
def pieceRow (w tr : Nat) (piece : Nat → Nat → Option (List Byte × List Byte)) : List Byte :=
  let f := shFmt w
  (List.range (shTc w)).flatMap (fun tc =>
    let ps := (List.range 32).map (fun i =>
      match (if 32 * tr + i < shRows w then piece (32 * tr + i) tc else none) with
      | some p => p
      | none => (zeros (4 * fmtBits f), if fmtIsMx f then [0] else []))
    ps.flatMap Prod.fst ++ ps.flatMap Prod.snd)

/-- Index `i` of an index operand. -/
def State.indexAt (s : State) (l : Loc) (i : Nat) : Nat := leNat (s.readLoc (l.add (4 * i)) 4)
def State.indices (s : State) (sid : Nat) (o : Op) : List Nat :=
  let l := s.operandLoc sid o 1
  (List.range (shRows (o.opnd 1).shape)).map (s.indexAt l)

/-- The key of a record (R170, R172). -/
def recordKey (o : Op) (r : List Byte) : Int :=
  let k := natAt r 0 (o.kp 63 60)
  let n := 8 * o.kp 63 60
  if o.kp 59 58 = 1 then (if k < 2 ^ (n - 1) then (k : Int) else (k : Int) - 2 ^ n)
  else if o.kp 59 58 = 2 then (match idxKey (BitVec.ofNat 64 k) with
    | some x => x
    | none => 2 ^ 70)
  else (k : Int)

/-- The records of a byte string. -/
def Op.records (o : Op) (bs : List Byte) : List (List Byte) :=
  let n := 8 * o.kp 57 54
  (List.range (bs.length / n)).map (fun i => bytesAt bs (n * i) n)

/-- The stable sort of records by key (R172). -/
def Op.sortRecords (o : Op) (l : List (List Byte)) : List Byte :=
  (sortBy (fun a b => decide (recordKey o a ≤ recordKey o b)) l).flatten

/-- What an item writes: operand, offset and bytes; and the flags it raises (R174). -/
structure ItemOut where
  writes : List (Nat × Nat × List Byte)
  flags : Nat := 0
  deriving DecidableEq, Repr

/-- A destination tile of values under CVT, with the flags of the values and of the conversion. -/
def State.valueTile (s : State) (sid : Nat) (o : Op) (i : Nat) (raw : Bool) (val : Nat → Nat → Nat → Word × Bool) : ItemOut :=
  let out := o.nopnd - 1
  let w := (o.opnd out).shape
  let p := tensorTile o.cvt raw w (fun b r c => (val b r c).1) (s.drawsOf sid o out) i
  let b := i / shTiles1 w
  let r0 := i % shTiles1 w / shTc w * 32
  let c0 := i % shTiles1 w % shTc w * 32
  let vs := (List.range 32).flatMap (fun r => ((List.range 32).filter (fun c => decide (r0 + r < shRows w ∧ c0 + c < shCols w))).map
    (fun c => val b (r0 + r) (c0 + c)))
  { writes := [(out, i * tileBytes (shFmt w), p.1)],
    flags := flagBit (vs.any (fun v => v.2)) 7 + flagBit (vs.any (fun v => isNan64 v.1)) 6
      + flagBit (vs.any (fun v => isInf64 v.1)) 5 + flagBit p.2.ovf 4 + flagBit p.2.nan 3 }

/-- SCATTER_ADD: base row plus the source rows that name it, in increasing source index (R171). -/
def State.scatterAddVal (s : State) (sid : Nat) (o : Op) (idx : List Nat) (r c : Nat) : Word × Bool :=
  foldPartials (s.inVal sid o 2 0 r c)
    (((List.range idx.length).filter (fun k => idx.getD k 0 == r)).map (fun k => s.inVal sid o 0 0 k c))

/-- VERIFY: the digest of the tensor against the one at AUX (R170). -/
def State.verifyMiss (s : State) (sid : Nat) (o : Op) : Bool :=
  let n := o.kp 63 56
  shake256 n (s.inBytes sid o 0) != s.readLoc (s.resolve (s.slotDie sid) (s.slot sid).step (o.p 3)) n

/-- The output of item `i` of an engine op (R170 to R172, R257, R501). -/
def State.itemOut (s : State) (sid : Nat) (o : Op) (i : Nat) : ItemOut :=
  let w := o.last.shape
  let src := s.operandLoc sid o 0
  if o.cls = 3 ∨ o.cls = 0x0D then
    (let off := i * o.itemTiles * tileBytes (shFmt w)
     let n := Nat.min (o.itemTiles * tileBytes (shFmt w)) (shBytes w - off)
     if o.cls = 3 ∧ o.opcode = 2 then ⟨[(0, off, zeros n)], 0⟩ else ⟨[(1, off, s.readLoc (src.add off) n)], 0⟩)
  else if o.cls = 4 then
    (let idx := s.indices sid o
     let tr := i % cdiv (shRows w) 32
     let off := i * shTc w * tileBytes (shFmt w)
     if o.opcode = 1 then
       (let tw := (o.opnd 0).shape
        let bad := ((List.range 32).any (fun k => decide (32 * tr + k < shRows w) && decide (shRows tw ≤ idx.getD (32 * tr + k) 0)))
        ⟨[(2, off, pieceRow w tr (fun r tc =>
          if idx.getD r 0 < shRows tw then some (s.rowPiece src tw (idx.getD r 0) tc) else none))], flagBit bad 2⟩)
     else
       let bad := flagBit (idx.any (fun k => decide (shRows w ≤ k))) 2
       if o.opcode = 2 then
         (let base := s.operandLoc sid o 2
          ⟨[(3, off, pieceRow w tr (fun r tc =>
            match ((List.range idx.length).reverse).find? (fun k => idx.getD k 0 == r) with
            | some k => some (s.rowPiece src (o.opnd 0).shape k tc)
            | none => some (s.rowPiece base (o.opnd 2).shape r tc)))], bad⟩)
       else
         let ts := (List.range (shTc w)).map (fun tc =>
           s.valueTile sid o (tr * shTc w + tc) false (fun _ r c => s.scatterAddVal sid o idx r c))
         ⟨ts.flatMap (fun t => t.writes), ts.foldl (fun a t => Nat.lor a t.flags) bad⟩)
  else if o.cls = 5 then s.valueTile sid o i false (fun b r c => (s.inVal sid o 0 b r c, false))
  else if o.cls = 6 then
    (let sw := (o.opnd 0).shape
     let f := shFmt w
     let b := i / shTiles1 w
     let tr := i % shTiles1 w / shTc w
     let tc := i % shTiles1 w % shTc w
     let t := src.add ((b * shTiles1 sw + tc * shTc sw + tr) * tileBytes f)
     let bs := s.readLoc t (tileBytes f)
     let n := fmtBits f / 8
     let out := if fmtIsMx f then bs
       else (List.range 1024).flatMap (fun k => bytesAt bs ((32 * (k % 32) + k / 32) * n) n)
     ⟨[(1, i * tileBytes f, maskTile w tr tc out)], 0⟩)
  else if o.cls = 7 then
    (if o.opcode = 1 then ⟨[(1, 0, shake256 (o.kp 63 56) (s.inBytes sid o 0))], 0⟩
     else if o.opcode = 2 then ⟨[(1, 0, leBytes 4 (crc32c (s.inBytes sid o 0)).toNat)], 0⟩
     else ⟨[(1, 0, leBytes 8 (if s.verifyMiss sid o then 1 else 0))], flagBit (s.verifyMiss sid o) 1⟩)
  else if o.cls = 8 then
    (if o.opcode = 1 then
       (let off := i * o.runLen * 8 * o.kp 57 54
        let n := Nat.min (o.runLen * 8 * o.kp 57 54) (o.bytes 0 - off)
        ⟨[(1, off, o.sortRecords (o.records (s.readLoc (src.add off) n)))], 0⟩)
     else ⟨[(o.nopnd - 1, 0,
       o.sortRecords ((List.range (o.nopnd - 1)).flatMap (fun k => o.records (s.inBytes sid o k))))], 0⟩)
  else if o.cls = 9 ∧ o.opcode = 2 then
    (let off := i * 65536
     let bs := s.readLoc (src.add off) (Nat.min 65536 (o.bytes 0 - off))
     ⟨(List.range (o.nopnd - 1)).map (fun k => (k + 1, off, bs)), 0⟩)
  else
    s.valueTile sid o i (o.p 2 != 0 && kpN (o.p 2) != 1) (fun b r c =>
      let vs := (List.range (o.nopnd - 1)).map (fun k => s.inVal sid o k b r c)
      foldPartials (vs.headD 0) (vs.drop 1))

/-! ## Overlap of items (R176) -/

def Loc.meets (a : Loc × Nat) (b : Loc × Nat) : Bool :=
  let hit (x y : Nat) : Bool := decide (x < y + b.2) && decide (y < x + a.2)
  match a.1, b.1 with
  | .near x, .near y => hit x y
  | .dsm d x, .dsm e y => d == e && hit x y
  | .far p x, .far q y => p == q && hit x y
  | _, _ => false

/-- Where an item writes, by operand, offset and length. -/
def Op.itemSpan (o : Op) (i : Nat) : List (Nat × Nat × Nat) :=
  let w := o.last.shape
  let tb := tileBytes (shFmt w)
  let out := o.nopnd - 1
  if o.cls = 3 ∨ o.cls = 0x0D then
    [(out, i * o.itemTiles * tb, Nat.min (o.itemTiles * tb) (shBytes w - i * o.itemTiles * tb))]
  else if o.cls = 4 then [(out, i * shTc w * tb, shTc w * tb)]
  else if o.cls = 8 ∧ o.opcode = 1 then
    (let n := o.runLen * 8 * o.kp 57 54
     [(1, i * n, Nat.min n (o.bytes 0 - i * n))])
  else if o.cls = 9 ∧ o.opcode = 2 then
    (List.range (o.nopnd - 1)).map (fun k => (k + 1, i * 65536, Nat.min 65536 (o.bytes 0 - i * 65536)))
  else if o.cls = 7 ∨ o.cls = 8 then [(out, 0, o.bytes out)]
  else [(out, i * tb, tb)]

/-- What an item reads (R176): its own tiles, rows or records; a gather or scatter may need any row of its table or source. -/
def Op.itemReads (o : Op) (i : Nat) : List (Nat × Nat × Nat) :=
  if o.cls = 3 ∨ o.cls = 0x0D ∨ (o.cls = 9 ∧ o.opcode = 2) then
    (if o.cls = 3 ∧ o.opcode = 2 then [] else ((o.itemSpan i).take 1).map (fun x => (0, x.2.1, x.2.2)))
  else if o.cls = 5 ∨ o.cls = 0x0A ∨ o.cls = 9 then
    (List.range (o.nopnd - 1)).map (fun k => (k, i * tileBytes (shFmt (o.opnd k).shape), tileBytes (shFmt (o.opnd k).shape)))
  else if o.cls = 6 then
    (let w := o.last.shape
     let sw := (o.opnd 0).shape
     let tb := tileBytes (shFmt w)
     [(0, (i / shTiles1 w * shTiles1 sw + i % shTiles1 w % shTc w * shTc sw + i % shTiles1 w / shTc w) * tb, tb)])
  else if o.cls = 8 ∧ o.opcode = 1 then (o.itemSpan i).map (fun x => (0, x.2.1, x.2.2))
  else if o.cls = 4 ∧ o.opcode ≠ 1 then
    [(0, 0, o.bytes 0), (1, 0, o.bytes 1)] ++ (o.itemSpan i).map (fun x => (2, x.2.1, x.2.2))
  else o.inIdx.map (fun k => (k, 0, o.bytes k))

def State.spans (s : State) (sid : Nat) (o : Op) (l : List (Nat × Nat × Nat)) : List (Loc × Nat) :=
  l.map (fun x => ((s.operandLoc sid o x.1).add x.2.1, x.2.2))

/-- An item is held back by an incomplete item of an earlier op of its class (R176). -/
def State.itemHeld (s : State) (sid : Nat) (o : Op) (i : Nat) : Bool :=
  let ins := s.spans sid o (o.itemReads i)
  let outs := s.spans sid o (o.itemSpan i)
  (s.work sid o.cls).any (fun x => decide (x.1 < o.index) && !x.2.finished &&
    (let e := s.opAt sid false x.1
     let eo := s.spans sid e (e.itemSpan x.2.index)
     let ei := s.spans sid e (e.itemReads x.2.index)
     eo.any (fun a => (ins ++ outs).any (Loc.meets a)) || ei.any (fun a => outs.any (Loc.meets a))))

/-! ## Taking items (R175, R179) -/

def State.engineIdle (s : State) (sid cls e : Nat) : Bool :=
  !((s.work sid cls).any (fun x => x.2.taken && !x.2.finished && x.2.engine == e))

/-- The untaken items of an engine's sublist, head first. -/
def State.sublist (s : State) (sid cls e : Nat) : List (Nat × WorkItem) :=
  sortBy (fun a b => decide (a.2.ord ≤ b.2.ord)) ((s.work sid cls).filter (fun x => !x.2.taken && x.2.engine == e))

def State.takeItem (s : State) (sid e : Nat) (x : Nat × WorkItem) : State :=
  s.putItem sid x.1 { x.2 with taken := true, engine := e }

/-- An idle engine takes the head of its own sublist. -/
def State.ownTake (s : State) (sid cls e : Nat) : State :=
  if !s.engineIdle sid cls e then s
  else match s.sublist sid cls e with
    | [] => s
    | x :: _ => if s.itemHeld sid (s.opAt sid false x.1) x.2.index then s else s.takeItem sid e x

/-- An idle engine with an empty sublist steals the tail of the sibling with the most untaken items. -/
def State.steal (s : State) (sid cls e : Nat) : State :=
  if !s.engineIdle sid cls e || !(s.sublist sid cls e).isEmpty then s
  else
    let sib := (s.engines sid cls).filter (fun x => x != e)
    let best := sib.foldl (fun (b : Option (Nat × Nat)) x =>
      let n := (s.sublist sid cls x).length
      match b with
      | none => if n = 0 then none else some (x, n)
      | some (_, m) => if m < n then some (x, n) else b) none
    match best with
    | none => s
    | some (v, _) =>
      match (s.sublist sid cls v).getLast? with
      | none => s
      | some x =>
        if s.itemHeld sid (s.opAt sid false x.1) x.2.index then s
        else
          let t := s.takeItem sid e x
          if sid < 48 then t.bump (s.slotDie sid) 0x0D (0xC00 + 8 * (cls - 3)) else t

/-- Owners take before thieves; both in increasing engine number. -/
def State.engineRound (s : State) (sid cls : Nat) : State :=
  let es := s.engines sid cls
  forEach es (fun e t => t.steal sid cls e) (forEach es (fun e t => t.ownTake sid cls e) s)

/-- The items of an op are dealt over the engines in service. A hub issues every item at once (R501). -/
def State.deal (s : State) (sid : Nat) (o : Op) : State :=
  let es := s.engines sid o.cls
  let m := Nat.max 1 es.length
  let base := s.nextOrd sid o.cls
  let items : List WorkItem := (List.range o.itemCount).map (fun i =>
    { index := i, engine := es.getD (i % m) 0, ord := base + i, taken := o.cls == 0x0D })
  let t := s.setOp sid o.index { s.opRun sid o.index with items := items }
  if o.cls = 0x0D then t else t.engineRound sid o.cls

/-- An engine op starts: it is cut into items (R175). -/
def engineStart (sid op cls code : Nat) (s : State) : State :=
  match s.opOf sid op cls code with
  | none => s
  | some o =>
    let (t, go) := s.begin' sid o
    if go then t.deal sid o else t

def execCopy (sid op : Nat) (s : State) : Out := onUnit (decide (sid < 60)) (engineStart sid op 0x03 1 s)
def execZero (sid op : Nat) (s : State) : Out := onUnit (decide (sid < 60)) (engineStart sid op 0x03 2 s)
def execGather (sid op : Nat) (s : State) : Out := onUnit (decide (sid < 60)) (engineStart sid op 0x04 1 s)
def execScatter (sid op : Nat) (s : State) : Out := onUnit (decide (sid < 60)) (engineStart sid op 0x04 2 s)
def execScatterAdd (sid op : Nat) (s : State) : Out := onUnit (decide (sid < 60)) (engineStart sid op 0x04 3 s)
def execSwage (sid op : Nat) (s : State) : Out := onUnit (decide (sid < 60)) (engineStart sid op 0x05 1 s)
def execTranspose (sid op : Nat) (s : State) : Out := onUnit (decide (sid < 60)) (engineStart sid op 0x06 1 s)
def execShake (sid op : Nat) (s : State) : Out := onUnit (decide (sid < 60)) (engineStart sid op 0x07 1 s)
def execCrc (sid op : Nat) (s : State) : Out := onUnit (decide (sid < 60)) (engineStart sid op 0x07 2 s)
def execVerify (sid op : Nat) (s : State) : Out := onUnit (decide (sid < 60)) (engineStart sid op 0x07 3 s)
def execSort (sid op : Nat) (s : State) : Out := onUnit (decide (sid < 60)) (engineStart sid op 0x08 1 s)
def execMerge (sid op : Nat) (s : State) : Out := onUnit (decide (sid < 60)) (engineStart sid op 0x08 2 s)
def execReduce (sid op : Nat) (s : State) : Out := onUnit (decide (sid < 60)) (engineStart sid op 0x09 1 s)
def execBroadcast (sid op : Nat) (s : State) : Out := onUnit (decide (sid < 60)) (engineStart sid op 0x09 2 s)
def execNodeAdd (sid op : Nat) (s : State) : Out := onUnit (decide (sid < 60)) (engineStart sid op 0x0A 1 s)

/-! ## Cross-replica checks (R310, R311) -/

/-- An XREP VERIFY. -/
def Op.xrep (o : Op) : Bool := o.cls == 7 && o.opcode == 3 && o.kp 55 55 == 1

/-- REPLICA of a slot, and its other coordinates (R31, R49). -/
def State.replicaOf (s : State) (sid : Nat) : Nat := fld (s.imgWord sid false 0x28) 63 44
def State.coordKey (s : State) (sid : Nat) : Nat × Nat × Nat :=
  (s.imgNat sid false 0x28 8 % 2 ^ 44, s.imgNat sid false 0x30 8, s.imgNat sid false 0x14 1)

/-- The slots of the module that hold the same shard as a slot: equal coordinates but for REPLICA, by rank. -/
def State.replicas (s : State) (sid : Nat) : List Nat :=
  sortBy (fun a b => decide (s.replicaOf a ≤ s.replicaOf b))
    (s.usedSlots.filter (fun n => decide (n < 48) && s.coordKey n == s.coordKey sid))

/-- The results of the XREP VERIFY ops of a shard in a step: slot, op, result. -/
def State.xrepResults (s : State) (st : Step) (id : Nat) (group : List Nat) : List (Nat × Nat × Nat) :=
  match s.stepRec st with
  | none => []
  | some r => (r.verifies.filter (fun v => group.contains v.1 && s.tensorId v.1 (s.opAt v.1 false v.2.1) 0 == id)).map
      (fun v => (v.1, v.2.1, v.2.2.2))

/-- The slots whose shares are replayed, once every rank of the module has its result (R311). -/
def divergent (group : List Nat) (res : List (Nat × Nat × Nat)) : List Nat :=
  let bad := (res.filter (fun v => v.2.2 != 0)).map (fun v => v.1)
  if res.length + 1 < group.length ∨ bad.isEmpty then []
  else if group.length ≤ 2 then (if group.length = 2 then group else bad)
  else if 2 * bad.length ≤ group.length - 1 then bad
  else group.filter (fun n => !bad.contains n)

/-- The result of a finished XREP VERIFY enters the ledger's record of its slot; a divergence raises REPLICA_DIVERGE, and
agreement in the replay of one charges the die that ran the diverging share (R310, R311, R315, R319). -/
def State.xrepDone (s : State) (sid : Nat) (o : Op) : State :=
  let st := (s.slot sid).step
  match s.stepRec st with
  | none => s
  | some r =>
    let miss := s.verifyMiss sid o
    let want := s.readLoc (s.resolve (s.slotDie sid) st (o.p 3)) (o.kp 63 56)
    let vs := r.verifies.filter (fun v => !(v.1 == sid && v.2.1 == o.index)) ++ [(sid, o.index, want, if miss then 1 else 0)]
    let t := s.setRec { r with verifies := vs }
    let t := if !miss && (t.slot sid).lastFault == some (0x0405, o.index) then
      (let die := t.slotDie sid
       let c : Capture := { kind := 4, fmt := shFmt (o.opnd 0).shape, core := 4 * die, array := 0, op := o.index, cond := {},
                            pack := 0, len := 0, row := [], slice := [], sums := [] }
       let u := (t.capture sid c).1
       (u.suspectDie die).setSlot sid { u.slot sid with lastFault := none })
      else t
    let id := t.tensorId sid o 0
    let g := t.replicas sid
    forEach (divergent g (t.xrepResults st id g)) (fun n u => u.raisePlan n 0x0405 o.index { typ := 0x05 }) t

/-! ## Completion of items -/

/-- Writes what an item computes, and clears the unwritten marks of DSM lines that a copy to a stack writes out (R47). -/
def State.writeItem (s : State) (sid : Nat) (o : Op) (i : Nat) : State × Nat :=
  let x := s.itemOut sid o i
  let t := forEach x.writes (fun w u => u.putAt sid o w.1 w.2.1 w.2.2) s
  let t := if o.cls = 3 ∧ o.opcode = 1 ∧ aSpace (o.opnd 1).addr ≠ 2 then
      forEach (t.spans sid o (o.itemReads i)) (fun l u => u.markLines l.1 l.2 false) t
    else t
  (t, x.flags)

/-- The site of an engine fault: the engine-cluster page, the engine's number. -/
def engineSite (cls e op : Nat) : Site := { typ := 0x05, inst := e, sub := cls, op := op }

/-- ENGINE_ITEM_COMPLETE (R175, R303): the item's output is written, and the engine takes its next. A disagreement of its
arithmetic check re-executes the item and sets REEXEC; a second one in the same item is PARTITION_FATAL. -/
def engineItemComplete (sid op item e : Nat) (disagree : Bool) (s : State) : State :=
  match s.liveOp sid op with
  | none => s
  | some o =>
    let r := s.opRun sid op
    if r.phase ≠ .running then s
    else match r.items.find? (fun x => x.index == item && x.taken && !x.finished && x.engine == e) with
      | none => s
      | some x =>
        if disagree then
          (if x.retried then s.raise (s.slotDie sid) 0x0404 (engineSite o.cls e op)
           else
             let t := s.setOp sid op { r with
               items := setItem r.items { x with retried := true }, flags := Nat.lor r.flags 1, reexec := r.reexec + 1 }
             if sid < 48 then t.bump (s.slotDie sid) 0x0D 0xC40 else t)
        else if o.cls = 0x0D ∧ s.mem.farLost.contains o.farPort then s
        else
          let (t, fl) := s.writeItem sid o item
          let again := o.cls == 0x0D && s.mem.farOps.contains (sid, op, true)
          let fl := Nat.lor fl (flagBit again 0)
          let r := t.opRun sid op
          let items := setItem r.items { x with finished := true }
          let t := t.setOp sid op { r with items := items, flags := Nat.lor r.flags fl }
          let t := if items.all (fun y => y.finished) then
              (let u := (t.finish sid o 0).engineRound sid o.cls
               if o.xrep then u.xrepDone sid o else u)
            else if o.cls = 0x0D then t
            else t.engineRound sid o.cls
          if o.cls = 0x0D ∧ items.all (fun y => y.finished) then
            { t with mem := { t.mem with farOps := t.mem.farOps.filter (fun f => !(f.1 == sid && f.2.1 == op)) } }
          else t

def execEngineItemComplete (sid op item engine : Nat) (disagree : Bool) (s : State) : Out :=
  onUnit (decide (sid < 60)) (engineItemComplete sid op item engine disagree s)

/-! ## Engines out of service (R177, R183) -/

/-- Deals afresh the untaken items of engines that left service, and gives their items in flight to the lowest engine. -/
def State.redeal (s : State) (sid cls : Nat) (gone : List Nat) : State :=
  let es := s.engines sid cls
  let m := Nat.max 1 es.length
  let w := s.work sid cls
  let idle := w.filter (fun x => !x.2.taken && gone.contains x.2.engine)
  let fly := w.filter (fun x => x.2.taken && !x.2.finished && gone.contains x.2.engine)
  let t := forEach idle (fun x t => t.putItem sid x.1 { x.2 with engine := es.getD (x.2.index % m) 0, ord := t.nextOrd sid cls }) s
  let t := forEach fly (fun x t =>
    let t := t.putItem sid x.1 { x.2 with engine := es.headD 0 }
    let r := t.opRun sid x.1
    (t.setOp sid x.1 { r with flags := Nat.lor r.flags 1, reexec := r.reexec + 1 }).bump (t.slotDie sid) 0x0D 0xC40) t
  t.engineRound sid cls

/-- ENG_SVC_WRITE: a write of ENG_SVC. One that leaves a kind without an engine is rejected, and the slot moves. -/
def engSvcWrite (p : Path) (die : Nat) (v : Word) (s : State) : State :=
  match s.checkWrite p die 0x0D 0x040 v with
  | some r =>
    let empty := [3, 4, 5, 6, 7, 8, 9].any (fun c => fld v (svcField c).1 (svcField c).2 == 0)
    let t := s.reject die 0x0D 0x040 r
    if r = rejRange ∧ p = .firmware ∧ empty then t.moveSlot die else t
  | none =>
    if [3, 4, 5, 6, 7, 8, 9].any (fun c => fld v (svcField c).1 (svcField c).2 == 0) then
      (s.reject die 0x0D 0x040 rejRange).moveSlot die
    else
      let old := s.rd die 0x0D 0x040
      let t := s.wr die 0x0D 0x040 v
      match t.dieSlot die with
      | none => t
      | some sid =>
        forEach [3, 4, 5, 6, 7, 8, 9] (fun c u =>
          let f := svcField c
          let gone := (List.range (f.1 + 1 - f.2)).filter (fun e => bitAt old (f.2 + e) && !bitAt v (f.2 + e))
          if gone.isEmpty then u else u.redeal sid c gone) t

def execEngSvcWrite (p : Path) (die : Nat) (v : Word) (s : State) : Out :=
  onUnit (decide (die < 48)) (if s.dieGone die then s else engSvcWrite p die v s)

end Sys2Proof.Machine
end

