-- ==== Sys2Proof/Machine/Transfer.lean ====
section
/-!
DEFINITION. The transfer ops: PUT and GET (R254), RESLICE (R380), FAR_READ and FAR_WRITE (R214, R501).
-/

namespace Sys2Proof.Machine

/-! ## PUT and GET -/

/-- PUT (R246, R254): its segments are sent. Under a deferral decision zeros have been sent for it, and its source is kept
as the carry or dropped (R359). -/
def put (sid op : Nat) (s : State) : State :=
  match s.opOf sid op 0x0B 1 with
  | none => s
  | some o =>
    let (t, go) := s.begin' sid o
    if !go then t
    else
      let st := (t.slot sid).step
      match t.deferFor o st with
      | none => (t.sendPut sid o (t.putData sid o) false).finish sid o 0
      | some d =>
        let u := (t.keepCarry sid o d).finish sid o 0
        match u.stepRec st with
        | none => u
        | some r => (u.setRec { r with deferred := r.deferred.filter (fun e => e != (sid, op)) }).progress

def execPut (sid op : Nat) (s : State) : Out := onUnit (decide (sid < 60)) (put sid op s)

/-- The FETCH messages of a GET: one for each segment, with the address at which the reply is to be written (R245,
R254). -/
def State.getMsgs (s : State) (sid : Nat) (o : Op) : List Msg :=
  let n := o.bytes 0
  (List.range (cdiv n 65536)).map (fun i =>
    { dst := putModule o, src := s.moduleId, kind := 2, gen := s.dieTag (s.slotDie sid), step := (s.slot sid).step,
      xfer := xferId sid o.index, seg := i, len := 8, addr := putAddr o + i * 65536, sync := fld (o.pword 2) 31 0,
      aux := Nat.min 65536 (n - i * 65536), data := leBytes 8 ((o.opnd 0).addr + i * 65536) })

/-- GET (R254): the FETCH messages leave; the op completes when its bytes are counted. -/
def get (sid op : Nat) (s : State) : State :=
  match s.opOf sid op 0x0B 2 with
  | none => s
  | some o =>
    let (t, go) := s.begin' sid o
    if !go then t
    else
      let n := o.bytes 0
      let t := { t with net := { t.net with fetches := t.net.fetches ++ [(sid, op, n, n)] } }
      let x (m : Msg) (u : State) : Track :=
        { die := u.slotDie sid, unit := o.unit, sid := sid, op := op, seg := m.seg, target := m.addr, count := m.aux, tag := m.gen }
      (forEach (t.getMsgs sid o) (fun m u => u.request (x m u) m) t).finish sid o 0

def execGet (sid op : Nat) (s : State) : Out := onUnit (decide (sid < 60)) (get sid op s)

/-! ## RESLICE (R380) -/

/-- A STATE entry of a named ingot that may supply a tile: the address of the ingot's first byte, the entry, the address of
its tiles. -/
structure ResliceSrc where
  ingot : Nat
  ent : List Byte
  tiles : Nat
  deriving DecidableEq, Repr

/-- The physical addresses of the ingots that a RESLICE names. -/
def State.resliceIngots (s : State) (o : Op) : List Nat :=
  (List.range (o.nopnd - 1)).map (fun i =>
    let a := (o.opnd (i + 1)).addr
    s.slotStack (aSlot a) * stackBytes + aOff a)

/-- The address of the body that an ingot's entries refer to: its own, or for an ALIAS ingot that of the named ingot it stands
for (R375). -/
def State.resliceBody (s : State) (o : Op) (pa : Nat) : Option Nat :=
  let h := s.ldN pa 256
  let body (q : Nat) : Nat := q + 0x100 + 64 * s.ldNat (q + 0x30) 4
  if !ingotAlias h then some (body pa)
  else
    ((s.resliceIngots o).find? (fun q =>
      let g := s.ldN q 256
      !ingotAlias g && natAt g 0x20 8 == natAt h 0x80 8 && bytesAt g 8 16 == bytesAt h 8 16)).map body

/-- The STATE entries of the named ingots of step M with the op's tensor (R366, R367). -/
def State.resliceSrcs (s : State) (o : Op) : List ResliceSrc :=
  (s.resliceIngots o).flatMap (fun pa =>
    let h := s.ldN pa 256
    let n := natAt h 0x30 4
    match s.resliceBody o pa with
    | none => []
    | some body =>
      if natAt h 0x10 8 ≠ o.p 2 then []
      else
        ((List.range (Nat.min n 65536)).map (fun j => s.ldN (pa + 0x100 + 64 * j) 64)).filterMap (fun e =>
          if natAt e 0 4 = fld (o.pword 0) 63 32 ∧ natAt e 6 1 = 0 then some ⟨pa, e, body + natAt e 0x20 8⟩ else none))

/-- The entry holds logical element (r, c). -/
def ResliceSrc.holds (x : ResliceSrc) (r c : Nat) : Bool :=
  decide (natAt x.ent 8 4 ≤ r) && decide (r < natAt x.ent 8 4 + natAt x.ent 0x10 4)
    && decide (natAt x.ent 0x0C 4 ≤ c) && decide (c < natAt x.ent 0x0C 4 + natAt x.ent 0x14 4)

/-- The shape word of an entry's stored tiles. -/
def ResliceSrc.shape (x : ResliceSrc) : Nat :=
  natAt x.ent 0x10 4 * 2 ^ 40 + natAt x.ent 0x14 4 * 2 ^ 16 + natAt x.ent 7 1 * 2 ^ 10 + natAt x.ent 4 1 / 16 % 2 * 2 ^ 8
    + natAt x.ent 4 1 % 16

/-- The bytes of destination tile (b, tr, tc), with the ingot and the tile's index there; a narrowed tensor is decoded and
written in LIVE_FMT (R376). -/
def State.resliceTile (s : State) (o : Op) (srcs : List ResliceSrc) (b tr tc : Nat) : Option (ResliceSrc × Nat × List Byte) :=
  let r := fld (o.pword 1) 63 32 + 32 * tr
  let c := fld (o.pword 1) 31 0 + 32 * tc
  match srcs.find? (fun x => x.holds r c) with
  | none => none
  | some x =>
    let w := x.shape
    let f := shFmt w
    let i := tileIndex w b (r - natAt x.ent 8 4) (c - natAt x.ent 0x0C 4)
    let bs := s.ldN (x.tiles + i * tileBytes f) (tileBytes f)
    let d := (o.opnd 0).shape
    if natAt x.ent 4 1 = natAt x.ent 5 1 then some (x, i, bs)
    else
      let cv : Cvt := { fmt := shFmt d, blkax := shBlkax d, rnd := false, sat := true, seq := 0 }
      some (x, i, (packTile cv true (fun p q =>
        let e := tileElem f (shBlkax w) bs p q
        some (fvTo64 (decodeElem f e.1 e.2), 0))).1)

/-- The stored hallmark of a source tile agrees with its bytes and tag step M. -/
def State.resliceOk (s : State) (x : ResliceSrc) (m : Step) (i : Nat) : Bool :=
  let w := x.shape
  let tb := tileBytes (shFmt w)
  leNat (s.ldN (x.tiles + shTiles w * tb + 4 * i) 4) == hallmark (s.ldN (x.tiles + i * tb) tb) (natAt x.ent 0 4) i m

/-- The restore report takes the tiers and the narrowing of the ingots that a RESLICE has copied from (R4, R376, R390). -/
def State.resliced (s : State) (used : List Nat) : State :=
  forEach used (fun pa t =>
    let h := t.ldN pa 8
    { t with ckp := { t.ckp with
      tiersUsed := Nat.lor t.ckp.tiersUsed (2 ^ (natAt h 6 1 % 4)), narrowUsed := t.ckp.narrowUsed || natAt h 7 1 % 2 == 1 } }) s

/-- RESLICE (R380). A source tile whose hallmark fails makes the copy invalid (R309). -/
def reslice (sid op : Nat) (s : State) : State :=
  match s.opOf sid op 0x0C 1 with
  | none => s
  | some o =>
    let (t, go) := s.begin' sid o
    if !go then t
    else
      let d := (o.opnd 0).shape
      let m := wordStep (o.pword 2)
      let srcs := t.resliceSrcs o
      let grid := (List.range (shBatch d)).flatMap (fun b => (List.range (cdiv (shRows d) 32)).flatMap (fun r =>
        (List.range (shTc d)).map (fun c => (b, r, c))))
      let tiles := grid.map (fun g => t.resliceTile o srcs g.1 g.2.1 g.2.2)
      match tiles.findSome? (fun x => match x with
          | some (y, i, _) => if t.resliceOk y m i then none else some y.ingot
          | none => none) with
      | some pa => (t.badBay (pa / stackBytes) (pa % stackBytes)).raiseAs (t.slotDie sid) 0x0411 2 { typ := 0x12, op := op }
      | none =>
        let tb := tileBytes (shFmt d)
        let die := t.slotDie sid
        let st := (t.slot sid).step
        let a := (o.opnd 0).addr
        let u := forN tiles.length (fun i v =>
          match tiles.getD i none with
          | some (_, _, bs) => v.writeLoc ((v.resolve die st a).add (i * tb)) bs
          | none => v) t
        let u := match findTensor (u.tensors sid false) a (o.bytes 0) with
          | none => u
          | some x => forEach (x.touched (aPlain a) (o.bytes 0)) (fun i v => v.tileSeal die st x (ppOf a) i m) u
        let used := (tiles.filterMap (fun x => x.map (fun y => y.1.ingot))).eraseDups
        (u.resliced used).finish sid o 0

def execReslice (sid op : Nat) (s : State) : Out := onUnit (decide (sid < 60)) (reslice sid op s)

/-! ## The far tier (R501, R214) -/

/-- A far-tier op starts: all its items are issued; on a port whose range is unavailable the transfer fails (R214). -/
def farStart (sid op code : Nat) (s : State) : State :=
  match s.opOf sid op 0x0D code with
  | none => s
  | some o =>
    let t := engineStart sid op 0x0D code s
    if (s.opRun sid op).started || !(t.opRun sid op).started then t
    else if t.mem.farLost.contains o.farPort then t.farFail o.farPort
    else { t with mem := { t.mem with farOps := t.mem.farOps ++ [(sid, op, false)] } }

def execFarRead (sid op : Nat) (s : State) : Out := onUnit (decide (sid < 60)) (farStart sid op 1 s)
def execFarWrite (sid op : Nat) (s : State) : Out := onUnit (decide (sid < 60)) (farStart sid op 2 s)

end Sys2Proof.Machine
end

