-- ==== Sys2Proof/Machine/Steps.lean ====
section
/-!
DEFINITION. The step boundary: STEP_OPEN (R332, R46, R53 to R57, R150, R350 to R352, R385, R431), STEP_END_AUDIT (R47,
R270), BIN_CHANGE (R431), the ops that only wait or signal (R271, R272), hallmark re-reads (R309), and the bounds that make
a unit a suspect (R41, R403).
-/

namespace Sys2Proof.Machine

/-! ## The next step of a slot -/

/-- A declared wait of every core of a die (R272). -/
def State.declareDie (s : State) (die : Nat) (on : Bool) : State :=
  if die < 48 then forN 4 (fun c t => t.setDeclared (4 * die + c) on) s else s

/-- A slot is REPLAYING: it reopens its step. -/
def SlotRun.reopens (r : SlotRun) : Bool := r.phase == .replaying

/-- The step a slot opens next (R46, R350, R380). -/
def State.nextStep (s : State) (sid : Nat) : Step :=
  let r := s.slot sid
  if r.reopens = true then r.step else if s.ckp.restoring = 2 then s.ckp.pick else r.passed + 1

/-- The step a slot opens next has been open before: the slot replays it, or went back past it (R349). -/
def State.opensAgain (s : State) (sid : Nat) : Bool :=
  (s.slot sid).reopens || decide (s.nextStep sid ≤ (s.slot sid).redo)

/-- The announced swap whose boundary is step `n` (R53, R55). -/
def State.swapDue (s : State) (n : Step) : Option SwapReq :=
  match s.plan.swap with
  | some q => if (q.n : Int) = n ∧ q.announced then some q else none
  | none => none

/-- The generation with which a slot opens its next step (R55, R350). -/
def State.nextGen (s : State) (sid : Nat) : Nat :=
  let r := s.slot sid
  let n := s.nextStep sid
  if r.reopens = true then r.gen
  else if s.opensAgain sid = true then s.genOf n
  else match s.swapDue n with
    | some q => q.gen
    | none => s.genOf n

/-- The slot as it stands for the reading of the images of its next step. -/
def State.withGen (s : State) (sid gen : Nat) : State := s.setSlot sid { s.slot sid with gen := gen }

/-- BIN of the plan header of a slot's next step. -/
def State.nextBin (s : State) (sid : Nat) : Nat :=
  if (s.swapDue (s.nextStep sid)).isSome ∧ !s.opensAgain sid then s.hBin sid true
  else (s.withGen sid (s.nextGen sid)).hBin sid false

/-! ## Conditions of opening (R332, R55) -/

/-- The slot may act at all: a job, an awake module, a die that runs, and no stop or refusal. -/
def State.slotReady (s : State) (sid : Nat) : Bool :=
  let r := s.slot sid
  let die := s.slotDie sid
  s.jobIn && s.slotUsed sid && !r.stopped && !r.refused && !s.dieGone die && !s.pwr.tripped.contains die
    && s.pwrStat != 2 && r.phase != .opened && s.ckp.restoring != 1
    && (s.ckp.restoring != 2 || (r.phase == .idle && s.hMode sid false == 1))

/-- Step n - K is RELEASED, or precedes the step from which the ledger began; step 0 and step M + 1 wait for the seal of the
step before (R332). -/
def State.windowOpen (s : State) (n : Step) : Bool :=
  let old := n - (s.depth : Int)
  (decide (n ≠ s.ldg.base + 1) || decide (s.ldg.base ≤ s.ldg.newestSealed))
    && (decide (old < s.ldg.base) || decide (old ≤ s.ldg.newestReleased))

/-- A swap requested for step `n` and not announced (R55). -/
def State.swapUnannounced (s : State) (n : Step) : Bool :=
  match s.plan.swap with
  | some q => decide ((q.n : Int) = n) && !q.announced
  | none => false

/-! ## Frozen tensors (R150) -/

/-- The stored bytes of a frozen tensor agree with its list entry. -/
def State.frozenAgrees (s : State) (sid : Nat) (t : Tensor) : Bool :=
  digest64 (s.readLoc (s.tileLoc (s.slotDie sid) 0 t 0 0) t.bytes) == s.frozenDigest t.id

/-- A copy that disagrees is fetched once more from the far tier; its hallmarks are those of the genesis step. -/
def State.fetchFrozen (s : State) (sid : Nat) (t : Tensor) : State :=
  let die := s.slotDie sid
  let bs := (List.range t.bytes).map (fun i => Config.farFrozen s.free t.id i)
  let u := { s with free := s.free + 1 }.writeLoc (s.tileLoc die 0 t 0 0) bs
  forN t.tiles (fun i v => v.tileSeal die 0 t 0 i (-1)) u

/-- Checks one frozen tensor of a slot for step `n`, with one fetch; answers whether it now agrees. -/
def State.checkFrozen (s : State) (sid : Nat) (n : Step) (t : Tensor) : State × Bool :=
  if s.frozenAgrees sid t = true then (s, true)
  else
    let u := s.fetchFrozen sid t
    if u.frozenAgrees sid t = true then (u, true)
    else
      ((u.event 0x0006 t.id (stepWord n) (BitVec.ofNat 64 sid)).raise (s.slotDie sid) 0x0204 { typ := 0x01 }, false)

/-- Checks every frozen tensor that a slot's plan names, unless they are known to agree. -/
def State.checkAllFrozen (s : State) (sid : Nat) (n : Step) : State × Bool :=
  if (s.slot sid).frozenOk = true then (s, true)
  else
    let ts := (s.tensors sid false).filter (fun t => t.mode == 2)
    let r := ts.foldl (fun (a : State × Bool) t => let x := a.1.checkFrozen sid n t; (x.1, a.2 && x.2)) (s, true)
    (r.1.setSlot sid { r.1.slot sid with frozenOk := r.2 }, r.2)

/-! ## What a boundary changes before the step opens -/

/-- Arrays of a die: those back in service are mapped back, and those whose restriction excludes the bin give way to A.6
(R104, R316, R324). -/
def State.arraysAtBoundary (s : State) (die bin : Nat) : State :=
  forN 4 (fun c t =>
    let core := 4 * die + c
    let t := forN 6 (fun a u => if (u.array core a).back = true then u.mapBack core a else u) t
    forN 6 (fun a u =>
      if u.aryState core a = 3 ∧ u.restrictOf core a 55 52 / 2 ^ bin % 2 = 0 ∧ (u.logOf core a).isSome then
        (if u.standbyFree core then (u.mapToStandby core a).setArray core a { u.array core a with back := true }
         else u.excludeBin die bin)
      else u) t) s

/-- The first slot that opens an announced step exchanges the plan sets; every slot takes its own translation with it
(R35, R53, R57). With every step of the old generation SEALED already, the set retires at once. -/
def State.takeSwap (s : State) (sid : Nat) (n : Step) : State :=
  let t := match s.swapDue n with
    | some q =>
      let u := s.exchangeSets q.n
      ({ u with ldg := { u.ldg with swaps := u.ldg.swaps.filter (fun (e : Step × Nat) => decide (e.1 ≠ n)) ++ [(n, q.gen)] } }).retireGen
    | none => s
  if sid < 48 then t.takeXlat sid n else t

/-- The ledger's record of an opened step (R331). -/
def State.recordOpen (s : State) (sid gen : Nat) (n : Step) : State :=
  let t := match s.stepRec n with
    | none => s.newRec (StepRec.mk n gen .opened [sid] [] [] false [] [] [] false)
    | some r => s.setRec { r with opened := NSet.add r.opened sid }
  { t with ldg := { t.ldg with newestOpened := if t.ldg.newestOpened < n then n else t.ldg.newestOpened } }

/-- The root of the seal tree sends the decisions of its record for a step when the step first opens there, in record order:
those of a record loaded for a rerun (R362). -/
def State.issueDefers (s : State) (n : Step) : State :=
  if s.isRoot && s.ldgMode && decide (s.ldg.newestOpened < n) then
    forEach (s.ldg.defers.filter (fun d => d.step == n)) (fun d t =>
      forEach t.ldg.children (fun c u => u.ledgerMsg c 0x07 n (deferBytes d)) t) s
  else s

/-- The deferral decisions of a step at a slot that opens it (R356 to R359). -/
def State.openDeferrals (s : State) (sid : Nat) (n : Step) : State :=
  if sid < 48 then forEach (s.ldg.defers.filter (fun d => d.step == n)) (fun d u => u.deferObj d) s
  else forEach (s.ops sid false) (fun o u => match u.deferFor o n with
    | some d => u.deferOp sid o d
    | none => u) s

/-- A reopened step: its share starts over, the other dies and modules deliver again (R350 to R352). -/
def State.reopenStep (s : State) (sid : Nat) : State :=
  let r := s.slot sid
  let own := s.ldg.ownNotices.filter (fun x => x.1 == sid && x.2.1 == r.step)
  let src := if own.isEmpty then s.ldg.ownNotices.filter (fun x => decide (x.2.1 ≤ r.step)) else own
  let id := (src.getLast?.map (fun x => x.2.2)).getD 0
  let t := { s with net := { s.net with seen := s.net.seen.filter (fun e => !(e.2.2.1 / 2 ^ 32 == sid && e.2.2.2 == r.step)) } }
  ((t.creditSource sid).treeSend 0x05 r.step (replayBody t.moduleId sid id 0 (t.dieTag (t.slotDie sid)) 0 |>.take 8)).armObjs
    sid true

/-- The slot stands in its new step. -/
def State.enterStep (s : State) (sid gen : Nat) (n : Step) : State :=
  let r := s.slot sid
  let again := s.opensAgain sid
  let later := again && !r.reopens
  let s := if later = true then s.bump 62 0x20 0xC08 else s
  let r' := { r with
    phase := .opened, step := n, gen := gen, ops := [],
    replays := if later = true then 1 else if again = true then r.replays else 0,
    sinceMig := if r.substituting = true ∧ again = false then r.sinceMig + 1 else r.sinceMig }
  let t := ((s.setSlot sid r').issueDefers n).recordOpen sid gen n
  let t := if again = true then t.reopenStep sid else t.armObjs sid false
  (t.openDeferrals sid n).declareDie (t.slotDie sid) false

/-- The boundary work of a slot that opens a step for the first time (R57, R233, R385, R435, R488). -/
def State.boundary (s : State) (sid : Nat) (n : Step) : State :=
  let r := s.slot sid
  let t := s.takeSwap sid n
  let t := if r.migrated = true ∧ s.depth ≤ r.sinceMig then t.xlatNear sid else t
  let t := (t.takeSettings (t.slotDie sid)).slotPages sid n.toNat
  let t := t.pagesRefused n.toNat
  if 48 ≤ sid ∧ sid < 56 then rewiden sid t else t

/-- BIN of the plan header with which a slot opens its step. -/
def State.openBin (s : State) (sid gen : Nat) : Nat := (s.withGen sid gen).hBin sid false

/-- The arrays of a compute slot's die stand as its bin asks. -/
def State.atBin (s : State) (sid gen : Nat) : State :=
  if sid < 48 then s.arraysAtBoundary (s.slotDie sid) (s.openBin sid gen) else s

/-- A slot that stands at its boundary may open: it is in use on a die that runs, the die's clock is at the plan's bin, its
condition restrictions allow that bin (R42), and no move to a spare is due. -/
def State.openable (s : State) (sid gen : Nat) (again : Bool) : Bool :=
  let die := s.slotDie sid
  let bin := s.openBin sid gen
  s.slotUsed sid && !s.dieGone die
    && (decide (48 ≤ sid) || (s.dieBin die == bin && (s.atBin sid gen).binAllowed die bin))
    && (again || !((s.atBin sid gen).slot sid).moveDue)

/-- A slot that may not open: its arrays are refitted, and a bin that the die's restrictions exclude moves the slot to a
spare (R42). -/
def State.refit (s : State) (sid gen : Nat) : State :=
  let die := s.slotDie sid
  let bin := s.openBin sid gen
  let t := s.atBin sid gen
  if sid < 48 ∧ t.slotUsed sid = true ∧ t.dieBin die = bin ∧ t.binAllowed die bin = false then t.moveSlot die else t

/-- STEP_OPEN: a slot opens its next step or reopens the step it replays, or holds at the boundary. -/
def stepOpen (sid : Nat) (s : State) : State :=
  let n := s.nextStep sid
  let g := s.nextGen sid
  let again := s.opensAgain sid
  let die := s.slotDie sid
  if !s.slotReady sid then s
  else if !again && !s.windowOpen n && s.ckp.restoring != 2 then s.declareDie die true
  else if !again && s.swapUnannounced n then s.declareDie die true
  else if !(s.swapDue n).isSome && !s.genHeld g then
    (if s.plan.reload.isEmpty || s.plan.reloadGen != g then
      (forEach s.usedSlots (fun k t => t.askReload k g 0) s).declareDie die true
     else s.declareDie die true)
  else if s.plan.reload.contains sid && s.plan.reloadGen == g then s.declareDie die true
  else
    let t := if again = true then s else s.boundary sid n
    if t.openable sid g again = true then
      (let (t, good) := ((t.atBin sid g).withGen sid g).checkAllFrozen sid n
       if good = true then t.enterStep sid g n else t)
    else t.refit sid g

def execStepOpen (sid : Nat) (s : State) : Out := onUnit (decide (sid < 60)) (stepOpen sid s)

/-! ## BIN_CHANGE (R430, R431) -/

/-- The die's clock runs at a new bin. -/
def State.setBin (s : State) (die bin : Nat) : State :=
  { s with pwr := { s.pwr with
    bins := SMap.set (fun _ => 2) s.pwr.bins die bin, avsTries := SMap.set (fun _ => 0) s.pwr.avsTries die 0 } }

/-- BIN_CHANGE: a die whose next step differs in bin holds at the boundary; to a faster bin the voltage changes first, to a
slower bin the clock. A target above 850 mV excludes the bin. -/
def binChange (die : Nat) (s : State) : State :=
  match s.dieSlot die with
  | none => s
  | some sid =>
    let bin := s.nextBin sid
    let cur := s.dieBin die
    let mv := s.binMv die bin
    if 48 ≤ sid ∨ !s.slotReady sid ∨ bin = cur ∨ s.pwr.excluded.contains (4 * die + bin) then s
    else if 850 < mv then s.excludeBin die bin
    else if bin < cur then (s.command die mv).setBin die bin
    else (s.setBin die bin).command die mv

def execBinChange (die : Nat) (s : State) : Out := onUnit (decide (die < 48)) (binChange die s)

/-! ## Ops that only wait or signal (R271, R272) -/

/-- SYNC: the op is over once its waits are. -/
def syncOp (sid op : Nat) (s : State) : State :=
  match s.opOf sid op 0x0E 1 with
  | none => s
  | some o =>
    let (t, go) := s.begin' sid o
    if go = true then t.finish sid o 0 else t

/-- WAIT_DECLARED: the core declares its wait when the op begins to wait. -/
def waitDeclared (sid op : Nat) (s : State) : State :=
  match s.opOf sid op 0x0E 2 with
  | none => s
  | some o =>
    let (t, go) := s.begin' sid o
    if go = true then t.finish sid o 0
    else if (t.opRun sid op).phase = .waiting ∧ o.unit < 4 ∧ sid < 48 then t.setDeclared (t.coreOf sid o) true
    else t

def execSync (sid op : Nat) (s : State) : Out := onUnit (decide (sid < 60)) (syncOp sid op s)
def execWaitDeclared (sid op : Nat) (s : State) : Out := onUnit (decide (sid < 60)) (waitDeclared sid op s)

/-- UNDECLARED_WAIT_LIMIT: hardware declares a wait of a core that has lasted 100 µs. -/
def undeclaredLimit (core : Nat) (s : State) : State :=
  match s.dieSlot (core / 4) with
  | none => s
  | some sid =>
    let mine := (s.ops sid false).filter (fun o => o.unit == core % 4)
    let at_ (p : OpPhase) : Bool := mine.any (fun o => (s.opRun sid o.index).phase == p)
    if (s.slot sid).phase = .opened ∧ at_ .waiting ∧ !at_ .running then s.setDeclared core true else s

def execUndeclaredWaitLimit (core : Nat) (s : State) : Out := onUnit (decide (core < 192)) (undeclaredLimit core s)

/-! ## Suspects (R41, R403) -/

/-- The block type, instance and sub-unit of an op's unit (R397, R482). -/
def opSite (sid : Nat) (o : Op) : Site :=
  if o.cls = 0 then { typ := 0x02, inst := o.unit, op := o.index, eclass := o.cls }
  else if o.cls ≤ 2 then { typ := 0x04, inst := o.unit, op := o.index, eclass := o.cls }
  else if sid < 48 then { typ := 0x05, sub := (o.cls - 3) * 16, op := o.index, eclass := o.cls }
  else { typ := 0x01, op := o.index, eclass := o.cls }

def State.addSuspect (s : State) (sid op : Nat) : State :=
  if s.flt.suspects.contains (sid, op) then s
  else { s with flt := { s.flt with suspects := s.flt.suspects ++ [(sid, op)] } }

/-- BUDGET_OVERRUN (R41): a started op has outlived its budget; a pull's wait for a correction is charged to none (R283). -/
def budgetOverrun (sid op : Nat) (s : State) : State :=
  match s.liveOp sid op with
  | none => s
  | some o =>
    let r := s.opRun sid op
    let fixing := s.ctl.pulls.any (fun p => p.sid == sid && p.op == op && p.stage == .faulted)
    if (r.phase ≠ .running ∧ r.phase ≠ .computed) ∨ r.overrun ∨ fixing then s
    else ((s.setOp sid op { r with overrun := true }).raise (s.slotDie sid) 0x0300 (opSite sid o)).addSuspect sid op

def execBudgetOverrun (sid op : Nat) (s : State) : Out := onUnit (decide (sid < 60)) (budgetOverrun sid op s)

/-- WAIT_MS_EXPIRY (R403): an op's wait has outlasted its bound. -/
def waitExpiry (sid op : Nat) (s : State) : State :=
  match s.liveOp sid op with
  | none => s
  | some _ => if (s.opRun sid op).phase = .waiting then s.addSuspect sid op else s

def execWaitMsExpiry (sid op : Nat) (s : State) : Out := onUnit (decide (sid < 60)) (waitExpiry sid op s)

/-! ## The step-end audit (R46, R47, R270) -/

/-- Something unwritten remains in the core SRAM or DSM of a die (R47). -/
def State.residue (s : State) (die : Nat) : Bool :=
  s.units.acc.any (fun e => decide (die * 2 ^ 21 ≤ e.1) && decide (e.1 < (die + 1) * 2 ^ 21) && e.2.unwritten)
    || s.units.dsmDirty.any (fun l => l / 2 ^ 20 == die)

/-- The PARTITION_FATAL records of a partition close once its replay has passed its audit (R395). -/
def State.closePartition (s : State) (part : Nat) : State :=
  let close (r : FaultRec) : FaultRec := if r.part = part ∧ r.cls = 3 then { r with isOpen := false } else r
  { s with flt := { s.flt with
    log := s.flt.log.map close, collectors := s.flt.collectors.map (fun e => (e.1, e.2.map close)) } }

/-- A slot passes the boundary of its step. -/
def State.passBoundary (s : State) (sid op : Nat) : State :=
  let die := s.slotDie sid
  let r := s.slot sid
  let t := (s.idleObjs die).setOp sid op { s.opRun sid op with phase := .done }
  let t := t.setSlot sid { t.slot sid with phase := .computed, passed := r.step, lastFault := none }
  let t := { t with net := { t.net with seen := t.net.seen.filter (fun e => e.2.2.1 / 2 ^ 32 != sid) } }
  let t := match t.stepRec r.step with
    | none => t
    | some rec => t.setRec { rec with computed := NSet.add rec.computed sid, replaying := rec.replaying.filter (fun x => x != sid) }
  (if r.replays = 0 then t else t.closePartition sid).progress

/-- STEP_END_AUDIT. The audit's waits register as those of any op do (R40); it runs once every other op has completed. -/
def stepEndAudit (sid op : Nat) (s : State) : State :=
  match s.opOf sid op 0x10 1 with
  | none => s
  | some o =>
    let die := s.slotDie sid
    let s := s.issue sid o
    if !(s.ops sid false).all (fun x => x.index == op || (s.opRun sid x.index).phase == .done) then s
    else
      let (t, go) := s.begin' sid o
      let on := go || (t.opRun sid op).phase == .running
      if on = false then t
      else match t.auditObjs sid with
        | some k => t.syncFault k 0x0106 op
        | none => if die < 48 ∧ t.residue die = true then t.raisePlan sid 0x0200 op { typ := 0x01 } else t.passBoundary sid op

def execStepEndAudit (sid op : Nat) (s : State) : Out := onUnit (decide (sid < 60)) (stepEndAudit sid op s)

/-! ## HALLMARK_REREAD (R309, R337) -/

/-- A tile read a second time: its place in the bad operand. -/
def State.badTile (s : State) (sid : Nat) (o : Op) (i tile : Nat) : Option Tensor :=
  ((s.badOperand sid o i).find? (fun e => e.2 == tile)).map (fun e => e.1)

/-- The share of a tile's producer in the open step is replayed with the consumer's. -/
def State.replayProducer (s : State) (sid : Nat) (t : Tensor) : State :=
  if t.producer < 60 ∧ t.producer ≠ sid ∧ (s.slot t.producer).phase ≠ .idle
      ∧ (s.slot t.producer).step = (s.slot sid).step ∧ (s.slot t.producer).phase ≠ .replaying
  then s.replaySlot t.producer 25 else s

/-- HALLMARK_FAIL, by the source of the tile. -/
def State.hallmarkFail (s : State) (sid : Nat) (o : Op) (t : Tensor) (tile : Nat) : State :=
  let die := s.slotDie sid
  let st := (s.slot sid).step
  let x : Site := { typ := 0x01, op := o.index, eclass := o.cls,
                    detail := BitVec.ofNat 64 (t.base + tile * tileBytes t.fmt) }
  if aSpace t.base = 3 then s.raiseAs die 0x0411 2 x
  else if t.mode = 0 then (s.raiseAs die 0x0411 3 x).replayProducer sid t
  else if t.mode = 1 ∧ s.ldg.newestSealed < st - 1 then
    (((s.collect (s.mkRec die 0x0411 3 x)).replayModule sid (st - 1) 25)).stopSlot sid
  else if t.mode = 1 then (let u := s.raiseAs die 0x0411 2 x; if u.jobIn then restoreWrite u else u)
  else
    let u := (s.raiseAs die 0x0411 2 x).setSlot sid { s.slot sid with frozenOk := false }
    (u.checkFrozen sid st t).1

/-- Where a tile of operand `i` is read, and the hallmark word it must agree with: in the crucible copy, or at its source. -/
def State.tilePlace (s : State) (sid : Nat) (o : Op) (i : Nat) (t : Tensor) (tile : Nat) : Loc × Nat :=
  let die := s.slotDie sid
  let st := (s.slot sid).step
  let a := (o.opnd i).addr
  match (if o.retain ∧ i = 0 then s.keptInput sid o else none) with
  | some r =>
    let k := tile - (aPlain a - t.base) / tileBytes t.fmt
    (.near (r.off + k * tileBytes t.fmt), r.marks.getD k 0)
  | none => (s.tileLoc die st t (ppOf a) tile, leNat (s.readLoc (s.hmLoc die st t (ppOf a) tile) 4))

/-- HALLMARK_REREAD: a match makes the read CORRECTED; a second mismatch is a failure. In a replay, a tile of a later step
breaks the plan's obligation (R337). -/
def hallmarkReread (sid op i tile : Nat) (second : List Byte) (s : State) : State :=
  match s.liveOp sid op with
  | none => s
  | some o =>
    match s.badTile sid o i tile with
    | none => s
    | some t =>
      let die := s.slotDie sid
      let r := s.slot sid
      let bs := bytesAt second 0 (tileBytes t.fmt)
      let kept := if o.retain ∧ i = 0 then s.keptInput sid o else none
      let (loc, word) := s.tilePlace sid o i t tile
      if word = hallmark bs t.id tile (t.tagRead r.step) then (s.writeLoc loc bs).raise die 0x0410 (opSite sid o)
      else if kept.isSome = true then
        (s.raiseAs die 0x0411 2 { opSite sid o with detail := BitVec.ofNat 64 (t.base + tile * tileBytes t.fmt) }).refetch
          ((kept.map (fun x => x.off)).getD 0 + (tile - (aPlain (o.opnd i).addr - t.base) / tileBytes t.fmt) * tileBytes t.fmt)
      else if 0 < r.replays ∧ (List.range 8).any (fun k => word == hallmark bs t.id tile (r.step + 1 + (k : Int))) then
        (s.raise die 0x0201 (opSite sid o)).rung7 0x0201 s.flt.nextSeq
      else s.hallmarkFail sid o t tile

def execHallmarkReread (sid op operand tile : Nat) (second : List Byte) (s : State) : Out :=
  onUnit (decide (sid < 60)) (hallmarkReread sid op operand tile second s)

end Sys2Proof.Machine
end

