-- ==== Sys2Proof/Machine/Boot.lean ====
section
/-!
DEFINITION. Firmware images and their checks (R437 to R442), what a start or a module reset keeps (R457, R461 to R463,
R474), the stages of a start (R458 to R467), parts taken out of service (R411), and the installation section (R468).
-/

namespace Sys2Proof.Machine

/-! ## Fuses, flash and images (R437 to R440) -/

def State.md (s : State) (i : Nat) : MgmtDie := s.sec.dies.getD i {}
def State.setMd (s : State) (i : Nat) (m : MgmtDie) : State :=
  { s with sec := { s.sec with dies := listSet s.sec.dies i m } }

/-- ARB_COUNT: the anti-rollback fuses blown. -/
def State.arbCount (s : State) : Nat := Nat.min 64 (Config.arbFuses.val + s.sec.arb)

/-- The REVOKE fuses. -/
def State.revokedSet (s : State) : Nat := Nat.lor Config.revokedFuses.toNat s.sec.revoked % 8
def State.keyRevoked (s : State) (k : Nat) : Bool := s.revokedSet / 2 ^ k % 2 == 1

/-- One byte of a firmware slot of a management die's flash; an erased byte reads 0. -/
def State.flashByte (s : State) (die slot off : Nat) : Byte :=
  let m := s.md die
  if m.delivered.getD slot false then Config.deliveredByte die slot off
  else SMap.get (fun _ => 0) m.flash (slot * 2 ^ 27 + off)

def State.flashN (s : State) (die slot off n : Nat) : List Byte :=
  (List.range n).map (fun i => s.flashByte die slot (off + i))

/-- The header of the image in a slot (R439) and its fields. -/
def State.imageHeader (s : State) (die slot : Nat) : List Byte := s.flashN die slot 0 512
def imgKeySlot (h : List Byte) : Nat := natAt h 6 1
def imgSvn (h : List Byte) : Nat := natAt h 7 1
def imgVersion (h : List Byte) : Nat := natAt h 8 4
def imgStateFormat (h : List Byte) : Nat := natAt h 0x0C 4
def imgStateMin (h : List Byte) : Nat := natAt h 0x10 4
def imgBodyLen (h : List Byte) : Nat := natAt h 0x18 8
def imgDigest (h : List Byte) : List Byte := bytesAt h 0x40 64

/-- MAGIC, FORMAT, reserved fields and BODY_LEN of a header. -/
def headerGood (h : List Byte) : Bool :=
  bytesAt h 0 4 == ascii [0x46, 0x4C, 0x50, 0x46] && natAt h 4 2 == 1 && decide (imgSvn h ≤ 64)
    && bytesAt h 0x14 4 == zeros 4 && bytesAt h 0x20 32 == zeros 32 && bytesAt h 0xB9 7 == zeros 7
    && bytesAt h 0x132 206 == zeros 206 && decide (1 ≤ imgBodyLen h) && decide (imgBodyLen h ≤ 2 ^ 26 - 512)

/-- R440: the result code of R445 for the first test that fails, 0 when the image is valid. -/
def State.imageCode (s : State) (h body : List Byte) : Nat :=
  let k := imgKeySlot h
  if !headerGood h then 1
  else if 3 ≤ k then 3
  else if s.keyRevoked k then 2
  else if digest64 (bytesAt h 0x80 57) ≠ Config.rootKey k then 3
  else if digest64 (bytesAt h 0 0x40 ++ body) ≠ imgDigest h then 4
  else if !edVerify (bytesAt h 0x80 57) (ascii [0x46, 0x4C, 0x50, 0x2D, 0x46, 0x57]) (imgDigest h) (bytesAt h 0xC0 114) then 5
  else if imgSvn h < s.arbCount then 6
  else 0

/-- R440 for the image in a slot. -/
def State.slotCode (s : State) (die slot : Nat) : Nat :=
  let h := s.imageHeader die slot
  if !headerGood h then 1 else s.imageCode h (s.flashN die slot 512 (imgBodyLen h))

/-- Erases a slot. -/
def State.eraseSlot (s : State) (die slot : Nat) : State :=
  let m := s.md die
  s.setMd die { m with
    delivered := listSet m.delivered slot false, flash := SMap.clear m.flash (slot * 2 ^ 27) ((slot + 1) * 2 ^ 27) }

/-- The boot ROM finds the image of a slot valid: what the start reports of an image of delivery, R440 for any other. -/
def State.slotValid (s : State) (r : StartReport) (die slot : Nat) : Bool :=
  if (s.md die).delivered.getD slot false then r.slotOk.getD (2 * die + slot) (r.slotOk.getD slot true)
  else s.slotCode die slot == 0

/-- The slot a management die's boot ROM starts: a trial slot, the committed one, then the other (R441, R444). -/
def State.bootSlot (s : State) (r : StartReport) (die : Nat) : Option Nat :=
  let m := s.md die
  if !m.inService || r.deadDies.contains (60 + die) then none
  else (m.trial.toList ++ [m.pref, 1 - m.pref]).find? (s.slotValid r die)

/-- The slots that a die's boot ROM tries before the one it starts, all of them when none is valid (R441). -/
def State.failedSlots (s : State) (r : StartReport) (die : Nat) : List (Nat × Nat) :=
  let m := s.md die
  if !m.inService || r.deadDies.contains (60 + die) then []
  else ((m.trial.toList ++ [m.pref, 1 - m.pref]).takeWhile (fun x => !s.slotValid r die x)).eraseDups.map (fun x => (die, x))

/-- Both dies' boot ROMs run, the active die is chosen, and an update that was under way ends (R441 to R444). The VERSION
of an image whose trial start failed is returned for its FW_REVERTED event. -/
def State.bootMgmt (s : State) (r : StartReport) : State × Option Nat :=
  let run0 := s.bootSlot r 0
  let run1 := s.bootSlot r 1
  let tgt := s.sec.target
  let m := s.md tgt
  let trialOk := m.trial.isSome && (if tgt = 0 then run0 else run1) == m.trial
  let failed := m.trial.isSome && !trialOk
  let version := imgVersion (s.imageHeader tgt (1 - m.pref))
  let t := (s.setMd 0 { s.md 0 with running := run0, trial := none })
  let t := t.setMd 1 { t.md 1 with running := run1, trial := none }
  let t := if s.sec.upd ≠ .idle ∧ !trialOk then t.eraseSlot tgt (1 - m.pref) else t
  let active := if run0.isSome then 0 else if run1.isSome then 1 else 0
  let c := { t.sec with
    active := active, upd := if trialOk then .activated else .idle, handover := false, scrubbing := false,
    debugLocked := t.sec.conf, toScrub := [],
    bootFails := t.sec.bootFails ++ s.failedSlots r 0 ++ s.failedSlots r 1 }
  ({ t with sec := c }, if failed then some version else none)

/-- Fuses are programmed: those that still do not read back as blown raise a DEFERRED fault of the security block (R437). No code
of R398 names it: the record's CODE is 0 (log entry 23). -/
def State.programFuses (s blown : State) : State :=
  if Config.fuseHolds s.free then { blown with free := s.free + 1 }
  else ({ s with free := s.free + 1 }).raiseAs (60 + s.sec.active) 0 2 { typ := 0x23, inst := s.sec.active }

/-- R442: firmware that starts from the committed slot blows ARB fuses up to its image's SVN. -/
def State.blowArb (s : State) : State :=
  let m := s.md s.sec.active
  match m.running with
  | none => s
  | some slot =>
    if slot ≠ m.pref then s
    else
      let svn := imgSvn (s.imageHeader s.sec.active slot)
      if s.arbCount < svn then s.programFuses { s with sec := { s.sec with arb := svn - Config.arbFuses.val } } else s

/-! ## Pins and light -/

/-- Drives the FAULT pair (R400): 0 OFF, 1 FAULT, 2 ALIVE; a MODULE_FATAL record closes when it is ALIVE again (R395). -/
def State.showPair (s : State) (p : FaultPair) : State :=
  let v := match p with
    | .off => 0
    | .fault => 1
    | .alive => 2
  let close (r : FaultRec) : FaultRec := if r.cls = 4 ∧ p = .alive then { r with isOpen := false } else r
  ({ s with flt := { s.flt with pair := p, log := s.flt.log.map close } }).send (.pin .fault v)

/-- Withdraws the light requests of all engines but those listed (R22); ports that train or run on that light go DOWN (R241). -/
def State.withdrawLight (s : State) (keep : List Nat) : State :=
  let l := s.link.light.filter (fun e => !keep.contains e)
  (forEach l (fun e t => t.send (.pin (.light e) 0)) { s with
    link := { s.link with light := s.link.light.filter keep.contains } }).lightLost l

/-! ## What a module reset or a power loss keeps (R457, R474, R490) -/

/-- The part of a register's value that survives: generation tags, what the unit-health record and the installation
section hold, and in a warm start the Braze epochs, the far-tier capacities, the width of the control ports and the
counters of stack base pages. -/
def keepReg (cold : Bool) (a : Nat) (v : Word) : Word :=
  let z := resetReg a
  if 2 ^ 26 ≤ a then z
  else
    let die := a / 2 ^ 20
    let blk := a / 2 ^ 12 % 256
    let off := a % 2 ^ 12
    let ty := (blockType die blk).getD 0
    if die = 60 ∧ blk = 0 ∧ off = 0x388 then (if cold then z else v)
    else if off = 0x030 then (if cold then z else setFld z 7 0 (fld v 7 0))
    else if ty = 0x03 then
      (if (0x040 ≤ off ∧ off < 0x078) ∨ off = 0x088 ∨ (0x0C0 ≤ off ∧ off < 0x0F8) then v else z)
    else if ty = 0x05 then (if off = 0x040 then v else z)
    else if ty = 0x07 then (if off = 0x050 ∨ (0xC00 ≤ off ∧ !cold) then v else z)
    else if ty = 0x10 then
      (if off = 0x048 then v else if off = 0x060 ∧ !cold then setFld z 37 32 (fld v 37 32) else z)
    else if ty = 0x11 then (if off = 0x040 ∧ !cold then setFld z 2 2 (fld v 2 2) else z)
    else if ty = 0x12 then (if off = 0x048 ∧ !cold then v else z)
    else z

/-- The registers after a module reset or a power loss, in canonical form. -/
def keepRegs (cold : Bool) (m : SMap Word) : SMap Word :=
  (m.map (fun e => (e.1, keepReg cold e.1 e.2))).filter (fun e => decide (e.2 ≠ resetReg e.1))

/-- A control port's state beyond its registers, or a Braze port's margins, as a module reset leaves them. -/
def keepPort (e : Nat × PortState) : Nat × PortState :=
  if 48 ≤ e.1 then e else (e.1, { margins := e.2.margins })

/-- The state after every die but the always-on islands has been reset (`cold` false) or has lost its power (`cold` true). -/
def State.wipe (s : State) (cold : Bool) : State :=
  let records := s.flt.log.filter (fun r => decide (2 ≤ r.cls))
  let f : FaultState :=
    { collectors := if cold then [] else s.flt.collectors,
      log := records.map (fun r => { r with isOpen := r.isOpen && r.cls == 4 && !cold }), pair := s.flt.pair,
      snapshots := if cold then [] else s.flt.snapshots, nextSnap := if cold then 0 else s.flt.nextSnap,
      hold := s.flt.hold, resetting := if cold then [] else s.flt.resetting, resets := s.flt.resets,
      outOfService := s.flt.outOfService.filter (fun d => !cold || d != .module), nextReplay := if cold then 1 else s.flt.nextReplay, fenced := s.flt.fenced,
      arrTags := if cold then [] else s.flt.arrTags }
  let u : UnitState :=
    { arrays := s.units.arrays.map (fun e => (e.1, { e.2 with release := none, ran := [], back := false })),
      library := s.units.library, histogram := s.units.histogram }
  let m : MemState :=
    { stack := if cold then [] else s.mem.stack, far := s.mem.far, poison := if cold then [] else s.mem.poison,
      rows := s.mem.rows, subst := s.mem.subst, copying := if cold then [] else s.mem.copying }
  let c : CkpState := if cold then {} else { bays := s.ckp.bays, manifests := s.ckp.manifests, ring := s.ckp.ring }
  let l : LinkState :=
    { ports := (if cold then s.link.ports.map (fun e => (e.1, { margins := e.2.margins }))
        else s.link.ports.map keepPort).filter (fun e => decide (e.2 ≠ {})),
      dark := if cold then [] else s.link.dark, light := s.link.light }
  let p : PowerState :=
    { bins := if cold then [] else s.pwr.bins, volts := if cold then [] else s.pwr.volts,
      excluded := if cold then [] else s.pwr.excluded, tripped := if cold then [] else s.pwr.tripped,
      thermtrip := s.pwr.thermtrip, lostPairs := if cold then [] else s.pwr.lostPairs,
      onBackup := if cold then [] else s.pwr.onBackup, railsOn := s.pwr.railsOn }
  let q : StartState := { s.stu with loops := [], missedRails := [], tap := [] }
  { s with
    regs := keepRegs cold s.regs, plan := {}, slots := [], syn := {}, net := {}, ctl := {}, flt := f, ldg := {}, ckp := c,
    units := u, mem := m, link := l, pwr := p, stu := q }

/-- The page type of a canonical register address. -/
def typeAt (a : Nat) : Nat := (blockType (a / 2 ^ 20) (a / 2 ^ 12 % 256)).getD 0

/-- A row without the watch that its record kept. -/
def unwatched (e : Nat × RowPhase) : Option (Nat × RowPhase) :=
  match e.2 with
  | .watched _ => none
  | .remappedWatched _ => some (e.1, .remapped)
  | _ => some e

/-- What the loss of section `i` of the unit-health record takes with it (R462, R463). -/
def State.loseSection (s : State) (i : Nat) : State :=
  if i = 0 then
    (let t := s.dropRegs (fun a => (typeAt a == 3 || typeAt a == 5) && a % 2 ^ 12 != 0x030)
     { t with units := { t.units with arrays := [] } })
  else if i = 1 then { s with units := { s.units with histogram := [] } }
  else if i = 2 then { s with units := { s.units with library := [] } }
  else if i = 3 then { s with mem := { s.mem with rows := s.mem.rows.filterMap unwatched } }
  else if i = 5 then
    (let ports := s.link.ports.map (fun (e : Nat × PortState) => (e.1, { e.2 with margins := false }))
     { s with link := { s.link with ports := ports.filter (fun e => decide (e.2 ≠ {})) } })
  else if i = 6 then
    { s with
      flt := { s.flt with resets := [], outOfService := [], hold := false, fenced := [] },
      stu := { s.stu with outDies := [], suspectDies := [] } }
  else if i = 7 then { s with flt := { s.flt with log := [] } }
  else if i = 8 then
    (let t := s.dropRegs (fun a => typeAt a == 0x10 && a % 2 ^ 12 == 0x048)
     { t with stu := { t.stu with install := {} } })
  else s

/-- The sections of the unit-health record found absent take their effect (R462, R463). -/
def State.loseSections (s : State) (absent : Nat) : State :=
  forN 9 (fun i t => if absent / 2 ^ i % 2 = 1 then t.loseSection i else t) s

/-! ## Parts out of service (R411) -/

/-- Where a record about a reset domain lies. -/
def domainSite : Domain → Nat × Site
  | .array core a => (core / 4, { typ := 0x03, inst := core % 4, sub := a })
  | .core core => (core / 4, { typ := 0x02, inst := core % 4 })
  | .stackPhy die => (die, { typ := 0x06 })
  | .die die => (die, { typ := 0x01 })
  | .port p => (brzDie p, { typ := 0x10, inst := p % 6 })
  | .linkDie die => (die, { typ := 0x01 })
  | .hub die => (die, { typ := 0x01 })
  | .module => (60, { typ := 0x01 })

/-- A link or hub slot is refused, and the job takes rung 7 (R42, R411). -/
def State.refuseSlot (s : State) (sid : Nat) : State :=
  let r := s.slot sid
  let t := s.setSlot sid { r with stopped := true, refused := true }
  let t := t.event 0x0005 (slotKind sid * 256 + slotNum sid) (stepWord (r.step + 1)) (BitVec.ofNat 64 s.plan.activeGen)
  if t.jobIn then t.rung7 0x0312 s.flt.nextSeq else t

/-- A hub's far-tier range is unavailable (R214). -/
def State.loseFar (s : State) (xp : Nat) : State :=
  let t := { s with
    mem := { s.mem with farLost := NSet.add s.mem.farLost xp },
    ckp := { s.ckp with manifests := s.ckp.manifests.filter (fun m => m.1 != 2) } }
  (t.setField (hubOf xp) 0x1F 0x040 1 0 3).event 0x0032 xp 0 0

/-- An update ends without effect: the slot is erased and FW_REVERTED is sent (R443). -/
def State.revertUpdate (s : State) : State :=
  let tgt := s.sec.target
  let slot := 1 - (s.md tgt).pref
  let v := imgVersion (s.imageHeader tgt slot)
  let t := s.eraseSlot tgt slot
  ({ t with sec := { t.sec with upd := .idle } }).event 0x0053 v 0 0

/-- A management or ledger die leaves service, with the update it was the target of: the module runs without a standby for that pair. -/
def State.peripheralOut (s : State) (die : Nat) : State :=
  let t := (s.outOfService (.die die)).setSvc die 5
  let t := if die < 62 ∧ t.sec.target = die - 60 ∧ (t.sec.upd = .receiving ∨ t.sec.upd = .staged) then t.revertUpdate else t
  if die < 62 then t.setMd (die - 60) { t.md (die - 60) with inService := false, running := none }
  else (({ t with ldg := { t.ldg with standby := false } }).setField 62 0x20 0x0B0 1 1 0)

/-- The effect of a domain leaving service. -/
def State.leaveService (s : State) (d : Domain) : State :=
  let t := s.outOfService d
  match d with
  | .array core a => (t.setAryState core a 2).mapToStandby core a
  | .core core => t.moveSlot (core / 4)
  | .stackPhy die => t.dieLeaves die
  | .die die => if die < 48 then t.dieLeaves die else t.peripheralOut die
  | .port p => t.setField (brzDie p) (brzBlk p) 0x040 16 16 0
  | .linkDie die => ((t.fence die).refuseSlot die)
  | .hub die => (((t.fence die).loseFar (die - 56)).refuseSlot die)
  | .module => t

/-! ## Slots and spares (R466, R467) -/

/-- The designated spares in force: those in service, released in decreasing number while fewer than 40 slots are served. -/
def State.designated (s : State) : List Nat :=
  let sp := sortBy (fun a b => decide (a ≤ b)) (s.stu.install.spares.filter (fun d => !s.dieOut d))
  sp.take (((List.range 48).filter (fun d => !s.dieOut d)).length - 40)

/-- The slots and the dies that serve them. -/
def State.slotPlan (s : State) : List (Nat × Nat) :=
  let dies := (List.range 48).filter (fun d => !s.dieOut d && !s.designated.contains d)
  let n := dies.length
  let own := dies.filter (fun d => decide (d < n))
  (own.map (fun d => (d, d))) ++ ((List.range n).filter (fun k => !own.contains k)).zip (dies.filter (fun d => decide (n ≤ d)))

/-- Writes both copies of PLN_XLAT and the compute dies' service states and power domains (R467, R421); the fabric ports of the
stacks train with their alternate dies (R205). -/
def State.assignSlots (s : State) : State :=
  let l := s.slotPlan
  let t := { s with stu := { s.stu with spares := s.designated } }
  let t := forN 48 (fun n u =>
    let w := match l.find? (fun e => e.1 == n) with
      | some (_, d) => BitVec.ofNat 64 (inFld 37 32 d + inFld 29 24 d + inFld 16 16 1)
      | none => BitVec.ofNat 64 (inFld 37 32 n + inFld 29 24 n)
    (u.wr 60 0 (0x200 + 8 * n) w).wr 60 0 (0xA00 + 8 * n) w) t
  let t := t.setField 60 0 0x380 47 40 l.length
  let t := forN 48 (fun d u =>
    if u.flt.fenced.contains d then (u.setSvc d 4).setPd d 1 0
    else if u.dieOut d then u.setSvc d 5
    else (u.setSvc d (if u.stu.spares.contains d then 3 else 2)).pdService d) t
  forN 48 (fun st u => u.trainStack st) t

/-! ## The installation section (R468) -/

/-- BRZ_PEER of every port, and bring-up of the cabled ones. -/
def State.applyCables (s : State) (enable : Bool) : State :=
  forN 48 (fun p t =>
    let (m, q, c) := t.stu.install.cables.getD p (0xFFFF, 0, false)
    let u := t.wr (brzDie p) (brzBlk p) 0x048 (BitVec.ofNat 64 (inFld 23 8 (if c then m else 0xFFFF) + inFld 5 0 q))
    if c && enable then brzEnable p u else u) s

/-- STU_STAT.STAGE. -/
def State.setStage (s : State) (n : Nat) : State := s.setField 60 0 0x380 23 20 n

/-! ## Stages of a start (R460) -/

/-- The rails in the order in which a start turns them on (R458): VDD_MG, VDD_HD, VDD_LD, VDD_SER, VDD_OPT, VPP_MS, VDD_MSC,
VDD_MSQ, VDD_SRAM, then VDD_CORE by quadrant. -/
def railOrder : List Nat :=
  [72, 71, 65, 66, 67, 68, 69, 70, 61, 62, 63, 64, 53, 54, 55, 56, 57, 58, 59, 60, 48, 49, 50, 51]
    ++ [0, 1, 2, 3].flatMap quadDies

/-- Order 4: dies and stacks that do not answer leave service; peripheral dies come up. -/
def State.bootParts (s : State) (r : StartReport) : State :=
  let s := forEach r.deadDies (fun d t =>
    if d < 48 then (t.outOfService (.die d)).dieLeaves d
    else if d < 56 then (t.outOfService (.linkDie d)).fence d
    else if d < 60 then ((t.outOfService (.hub d)).fence d).loseFar (d - 56)
    else t) s
  let s := forEach r.deadStacks (fun d t => (t.outOfService (.stackPhy d)).dieLeaves d) s
  let s := { s with mem := { s.mem with dead := r.deadStacks } }
  forEach ((List.range 12).map (fun i => i + 48)) (fun d t =>
    if t.flt.fenced.contains d then (t.setSvc d 4).setPd d 1 0 else (t.setSvc d 2).setPd d (pdRun d) 0) s

/-- The ledger dies come up: one active, the other standing by. -/
def State.bootLedger (s : State) (r : StartReport) : State :=
  let out (d : Nat) : Bool := r.deadDies.contains d || s.flt.outOfService.contains (.die d)
  let a := if out 62 then 1 else 0
  let standby := !out 62 && !out 63
  let t := { s with ldg := { s.ldg with active := a, standby := standby } }
  let t := t.wr 62 0x20 0x0B0 (BitVec.ofNat 64 ((if standby then 2 else 0) + a))
  forEach [62, 63] (fun d t =>
    if out d then t.setSvc d 5 else (t.setSvc d (if d = 62 + a then 2 else 6)).setPd d (pdRun d) 0) t

/-- The management dies come up: one active, the other standing by. -/
def State.mgmtPair (s : State) : State :=
  forEach [60, 61] (fun d t =>
    let m := t.md (d - 60)
    if !m.inService then t.setSvc d 5
    else if m.running.isNone then (t.setSvc d 7).setPd d (pdRun d) 0
    else (t.setSvc d (if d = 60 + t.sec.active then 2 else 6)).setPd d (pdRun d) 0) s

/-- The edges of a compute die that come up beside the fenced dies `f`. -/
def edgesUp (f : List Nat) (d : Nat) : Nat :=
  let up (e : Nat) : Bool := match beyond d e with
    | some n => !f.contains n
    | none => true
  (List.range 4).foldl (fun x e => x + (if up e then 2 * 4 ^ e else 0)) (if 1 ≤ d % 8 then 2 * 4 ^ 4 else 0)

/-- Order 6: fabric edges and stacks come up. -/
def State.bootFabric (s : State) (r : StartReport) : State :=
  let f := s.fencedDies
  let s := forN 48 (fun d t => if f.contains d then t else t.wr d 0x10 0x060 (BitVec.ofNat 64 (edgesUp f d))) s
  let s := forN 48 (fun d t =>
    if r.deadStacks.contains d then t else t.setField d 0x0E 0x048 0 0 1) s
  if f.isEmpty then s else s.switchRoutes

/-- Orders 4 to 6: peripheral dies and fabric edges come up; dies and stacks that do not answer leave service. -/
def State.bootDies (s : State) (r : StartReport) : State := (((s.bootParts r).bootLedger r).mgmtPair).bootFabric r

/-- The capture of a base-set pattern that array `a` of a core has failed (R319, R465). -/
def baseCapture (d core a : Nat) (c : Cond) : Capture :=
  let w (i : Nat) : Nat := (Config.testPattern d i).toNat
  { kind := 0, fmt := w 0 % 8, core := core, array := a, op := 0xFFFFFF, cond := c, pack := w 1 % 3, len := w 2 % 32 + 1,
    row := (List.range 128).map (fun i => BitVec.ofNat 8 (w (3 + i))),
    slice := (List.range 8320).map (fun i => BitVec.ofNat 8 (w (131 + i))),
    sums := (List.range 128).map (fun i =>
      { sum := (Config.testPattern d (8451 + i)).toInt, top := (BitVec.ofNat 16 (w (8579 + i))).toInt, repeated := w (8707 + i) % 2 == 1 }) }

/-- An array has failed a pattern in the self-test: a confirmed fault, captured, at the conditions of its die (R321, R465). -/
def State.testFailed (s : State) (core a : Nat) : State :=
  let c : Cond := { temp := (BitVec.ofNat 16 (s.field (core / 4) 0 0x050 15 0)).toInt, vdd := s.volts (core / 4) }
  let (t, e, i) := ({ s with free := s.free + 1 }).capture 60 (baseCapture s.free core a c)
  (t.confirmFault core a c).raise (core / 4) 0x0406 (arraySite core a noOp c e i)

/-- A memory has failed its built-in test: handled as a double-bit error of that memory (R465). -/
def State.memoryFailed (s : State) (die m : Nat) : State :=
  if m = 4 then s.raise die 0x0506 { typ := 0x01 } else s.raise die 0x0507 { typ := 0x02, inst := m }

/-- Order 7: the self-test (R465). A pattern mismatch is a confirmed fault of its array, and a checker that misses an injected
disagreement takes a strike. -/
def State.selfTest (s : State) (r : StartReport) (force : Bool) : State :=
  let a := s.sec.active
  let v := imgVersion (s.imageHeader a (((s.md a).running).getD 0))
  let full := r.absent % 2 == 1 || force || s.stu.testedVersion != some v
  let s := { s with stu := { s.stu with testedVersion := some v } }
  let s := s.setField 60 0 0x380 17 17 (if full then 1 else 0)
  let s := if (r.failedArrays ++ r.failedChecks ++ r.failedMemory ++ r.failedEngines).isEmpty then s else s.setField 60 0 0x380 16 16 1
  let s := forEach r.failedArrays (fun k t => t.testFailed (k / 8) (k % 8)) s
  let s := forEach r.failedChecks (fun k t => t.strike (k / 8) (k % 8)) s
  forEach r.failedMemory (fun k t => t.memoryFailed (k / 8) (k % 8)) s

/-- ARY_MAP at the end of a start (R474): identity, with the arrays QUARANTINED mapped to A.6. -/
def State.remapArrays (s : State) : State :=
  forN 192 (fun core t =>
    let t := if t.aryState core 6 = 4 then t.setAryState core 6 (t.array core 6).before else t
    forN 6 (fun a u => if u.aryState core a = 2 then u.mapToStandby core a else u) t) s

/-- The far ports are enumerated (R213). -/
def State.enumerateFar (s : State) (r : StartReport) : State :=
  forN 4 (fun xp t =>
    let d := hubOf xp
    if t.flt.fenced.contains d then t
    else
      let cap := if r.cold then r.farBytes.getD xp 0 else t.field d 0x1F 0x048 41 0
      let found := Config.cxlFound t.free xp
      let w := if cap = 0 then 0 else inFld 19 16 (fld found 19 16) + inFld 11 8 (fld found 11 8) + inFld 5 4 (fld found 5 4) + 2
      let u := (t.wr d 0x1F 0x048 (BitVec.ofNat 64 cap)).wr d 0x1F 0x040 (BitVec.ofNat 64 w)
      ({ u with free := u.free + 1 }).send (.pin (.perst xp) 0)) s

/-- Order 1 of R453: what the scrub clears at once; the stacks in service are to be zeroed. -/
def State.beginScrub (s : State) : State :=
  let todo := (List.range 48).filter (fun st => !s.flt.outOfService.contains (.stackPhy st))
  { s with
    ctl := { s.ctl with session := none }, net := { s.net with routes := [] },
    flt := { s.flt with snapshots := [] },
    ckp := { s.ckp with manifests := [] },
    sec := { s.sec with scrubbing := true, toScrub := todo } }

/-- Orders 9 and 10: the control ports show READY or KEY_PENDING, and the Braze ports with peers start. -/
def State.openPorts (s : State) : State :=
  ((s.setStage 8).setCpStatus (if s.sec.conf then 2 else 1)).applyCables true

/-- The control ports are trained after a cold start. -/
def State.trainCp (s : State) : State :=
  forEach [48, 49] (fun p t =>
    let t := ((t.requestLight p).setLaneMask p 2 3).setLaneMask p 3 3
    let t := t.setPort p { t.port p with margins := true }
    t.goUp p) s

/-- The stored device certificate does not carry the derived key: a DEFERRED fault of the security block (R448). No code of
R398 names it: the record's CODE is 0. -/
def certBad : Bool := decide (Config.certPublicKey ≠ edPublic deviceKey)
def State.checkCert (s : State) : State :=
  if certBad then s.raiseAs (60 + s.sec.active) 0 2 { typ := 0x23, inst := s.sec.active } else s

/-- Orders 2 to 10 of R460, over a state that `wipe` and `loseSections` left. -/
def State.boot (s : State) (r : StartReport) (forceFull : Bool) : State :=
  let (s, reverted) := s.bootMgmt r
  let s := s.setField 60 0 0x380 63 48 (if s.stu.install.present then s.stu.install.module else 0xFFFF)
  let s := (s.setField 60 0 0x380 19 19 (if r.cold then 1 else 0)).setField 60 0 0x380 8 0 (r.absent % 512)
  let s := (s.setField 60 0 0x380 18 18 (if s.stu.b2Only then 1 else 0)).setField 60 0x23 0x040 0 0 (if s.sec.conf then 1 else 0)
  let s := if r.cold then (s.trainCp.setField 60 0 0x380 31 24 r.search) else s
  if s.sec.dies.all (fun d => d.running.isNone) then ((s.setStage 1).showPair .fault).bootDies r
  else
    let s := (s.blowArb.showPair .alive).checkCert
    let s := s.bootDies r
    let s := s.assignSlots
    let s := (s.selfTest r forceFull).remapArrays.showOut
    let s := s.enumerateFar r
    let n := s.slotPlan.length
    let s := match reverted with
      | some v => s.event 0x0053 v 0 0
      | none => s
    if r.deadDies.contains 62 && r.deadDies.contains 63 then (s.setStage 3).ldgFault 0x0705
    else if n < 40 then (s.setStage 10).showPair .fault
    else if s.flt.hold then ((s.setStage 9).showPair .fault).applyCables false
    else if s.sec.scrubPending then (s.beginScrub.setStage 7)
    else s.openPorts

end Sys2Proof.Machine
end

