-- ==== Sys2Proof/Machine/Resets.lean ====
section
/-!
DEFINITION. Reset domains, generation tags, snapshots, resets and their completion, watchdogs, and the limits that take
domains and the module out of service (R405 to R412, R415, R490).
-/

namespace Sys2Proof.Machine

/-! ## Domains (R407) -/

/-- The domain that a command names. -/
def ofRef : DomainRef → Domain
  | .array core a => .array core a
  | .core core => .core core
  | .stackPhy die => .stackPhy die
  | .die die => .die die
  | .port p => .port p
  | .linkDie die => .linkDie die
  | .hub die => .hub die
  | .module => .module

/-- The module has the domain. -/
def domainOk : Domain → Bool
  | .array core a => decide (core < 192) && decide (a < 7)
  | .core core => decide (core < 192)
  | .stackPhy die => decide (die < 48)
  | .die die => decide (die < 48) || (decide (60 ≤ die) && decide (die < 64))
  | .port p => decide (p < 48)
  | .linkDie die => decide (48 ≤ die) && decide (die < 56)
  | .hub die => decide (56 ≤ die) && decide (die < 60)
  | .module => true

/-- The domains that enclose a domain, smallest first. -/
def enclosing : Domain → List Domain
  | .array core _ => [.core core, .die (core / 4), .module]
  | .core core => [.die (core / 4), .module]
  | .stackPhy die => [.die die, .module]
  | .die _ => [.module]
  | .port p => [.linkDie (brzDie p), .module]
  | .linkDie _ => [.module]
  | .hub _ => [.module]
  | .module => []

def arraysOf (core : Nat) : List Domain := (List.range 7).map (Domain.array core)
def coresOf (die : Nat) : List Nat := (List.range 4).map (fun c => 4 * die + c)

/-- The domains within a compute die. -/
def inDie (die : Nat) : List Domain :=
  (coresOf die).flatMap (fun c => Domain.core c :: arraysOf c) ++ [.stackPhy die]

/-- The domains within a domain. -/
def inner : Domain → List Domain
  | .core core => arraysOf core
  | .die die => if die < 48 then inDie die else []
  | .linkDie die => (List.range 6).map (fun i => .port (6 * (die - 48) + i))
  | .module =>
    (List.range 48).flatMap (fun d => Domain.die d :: inDie d)
      ++ (List.range 8).flatMap (fun i => Domain.linkDie (48 + i) :: (List.range 6).map (fun j => .port (6 * i + j)))
      ++ [.hub 56, .hub 57, .hub 58, .hub 59, .die 62, .die 63]
  | _ => []

/-- The die of a domain, by which fencing stops it; 64 for the module. -/
def domainDie : Domain → Nat
  | .module => 64
  | d => (domainSite d).1

/-! ## Generation tags (R409, R410) -/

def nextTag (t : Nat) : Nat := if 255 ≤ t then 1 else t + 1

/-- The pages that show a domain's tag. -/
def tagPages : Domain → List (Nat × Nat)
  | .array _ _ => []
  | .core core => let c := core % 4; let d := core / 4; [(d, 1 + c), (d, 5 + c), (d, 9 + c)]
  | .stackPhy die => [(die, 0x0E)]
  | .die die => if die < 48 then [(die, 0), (die, 0x0D), (die, 0x10), (die, 0x24)] else if 62 ≤ die then [(die, 0)] else []
  | .port p => [(brzDie p, brzBlk p)]
  | .linkDie die => [(die, 0), (die, 0x24)] ++ (if 54 ≤ die then [(die, 0x1E)] else [])
  | .hub die => [(die, 0), (die, 0x1F), (die, 0x24)]
  | .module => [(60, 0), (62, 0x20), (60, 0x21), (60, 0x22), (60, 0x23)] ++ (List.range 48).map (fun d => (d, 0x0F))

/-- Raises a domain's tag by one, from 0xFF to 0x01. -/
def State.raiseTag (s : State) (d : Domain) : State :=
  let t := match d with
    | .array core a =>
      let one : Nat → Nat := fun _ => 1
      let k := core * 8 + a
      { s with flt := { s.flt with arrTags := SMap.set one s.flt.arrTags k (nextTag (SMap.get one s.flt.arrTags k)) } }
    | _ => s
  forEach (tagPages d) (fun p u => u.setField p.1 p.2 0x030 7 0 (nextTag (u.field p.1 p.2 0x030 7 0))) t

/-- A reset that still runs has raised a domain's tag: its own, an enclosing one's, or for a die a core's. -/
def State.tagRaised (s : State) (d : Domain) : Bool :=
  s.flt.resetting.any (fun x => x == d || (enclosing d).contains x || (match d, x with
    | .die die, .core c => c / 4 == die
    | _, _ => false))

/-- The domains whose tags a reset raises: its own, those within, and for a core its die's. -/
def tagsOf (d : Domain) : List Domain :=
  d :: inner d ++ (match d with
    | .core c => [.die (c / 4)]
    | _ => [])

/-! ## Snapshots and counts (R406, R411) -/

/-- A die belongs to a domain, and so does a core. -/
def inDomain (d : Domain) (die : Nat) : Bool := d == .module || domainDie d == die
def coreIn (d : Domain) (core : Nat) : Bool :=
  match d with
  | .core c => c == core
  | _ => inDomain d (core / 4)

/-- A sync object belongs to a domain: for a core, the core's own objects. -/
def objIn (d : Domain) (k : Nat) : Bool :=
  match d with
  | .core c => k / 2 ^ 13 == c / 4 && decide (k % 2 ^ 13 < 192) && k % 2 ^ 13 / 48 == c % 4
  | _ => inDomain d (k / 2 ^ 13)

/-- What a snapshot of a domain holds (R406): in confidential mode no tensor bytes, only addresses, counts and states. -/
def State.snapOf (s : State) (d : Domain) : Snapshot :=
  let hush := s.sec.conf
  let slots := s.usedSlots.filter (fun n => inDomain d (s.slotDie n))
  let busy (r : OpRun) : Bool := r.phase != .idle && r.phase != .done
  let mine (n k : Nat) : Bool := match d with
    | .core c => (s.opAt n false k).unit == c % 4
    | _ => true
  { num := s.flt.nextSnap % 256, draw := s.free, domain := d,
    ops := slots.flatMap (fun n => ((s.slot n).ops.filter (fun e => busy e.2 && mine n e.1)).map (fun e =>
      (n, e.1, if hush then { e.2 with lanes := [] } else e.2))),
    saved := s.units.cores.filterMap (fun e => if coreIn d e.1 then e.2.ctx.map (fun c =>
      (e.1, if hush then { c with acc := [], runs := c.runs.map (fun x => (x.1, { x.2 with lanes := [] })) } else c)) else none),
    tracker := s.net.tracker.filter (fun x => inDomain d x.die),
    objs := s.syn.objs.filter (fun e => objIn d e.1),
    parked := (s.syn.parked.filter (fun p => objIn d p.obj)).map (fun p =>
      if hush then { p with msg := p.msg.map (fun m => { m with data := [] }) } else p),
    engines := ((List.range 48).filter (inDomain d)).map (fun x => (x, s.rd x 0x0D 0x040)),
    queues := (s.link.ports.filter (fun e => inDomain d (if e.1 < 48 then brzDie e.1 else e.1 + 6))).map (fun e =>
        (e.1, e.2.ready.map List.length))
      ++ (s.flt.collectors.filter (fun e => inDomain d e.1)).map (fun e => (64 + e.1, [e.2.length])),
    graph := (s.flt.graph.filter (fun e => inDomain d e.1)).flatMap (fun e => e.2),
    suspects := s.flt.suspects.filter (fun x => slots.contains x.1),
    records := s.flt.log.filter (fun r => r.isOpen && inDomain d r.die) }

/-- An escalated reset keeps the snapshot that it has and adds what the larger domain needs (R406). -/
def Snapshot.widen (x y : Snapshot) : Snapshot :=
  { x with
    domain := y.domain, ops := x.ops ++ y.ops, saved := x.saved ++ y.saved, tracker := x.tracker ++ y.tracker,
    objs := x.objs ++ y.objs, parked := x.parked ++ y.parked, engines := x.engines ++ y.engines,
    queues := x.queues ++ y.queues, graph := x.graph ++ y.graph, suspects := x.suspects ++ y.suspects,
    records := x.records ++ y.records }

/-- The management dies keep the newest 16 snapshots. -/
def State.snapshot (s : State) (d : Domain) : State :=
  let l := s.flt.snapshots ++ [s.snapOf d]
  { s with
    flt := { s.flt with snapshots := l.drop (l.length - 16), nextSnap := s.flt.nextSnap + 1 }, free := s.free + 1 }

/-- The snapshot of an abandoned inner reset grows by what the larger domain needs. -/
def State.widenSnap (s : State) (d : Domain) (inner : List Domain) : State :=
  let grow (x : Snapshot) : Snapshot := if inner.contains x.domain then x.widen (s.snapOf d) else x
  { s with flt := { s.flt with snapshots := s.flt.snapshots.map grow } }

def resetCount (d : Domain) (l : List (Domain × Nat)) : Nat :=
  match l.find? (fun e => e.1 == d) with
  | some e => e.2
  | none => 0

/-- Counts a reset against its domain. -/
def State.countReset (s : State) (d : Domain) : State :=
  let n := resetCount d s.flt.resets + 1
  { s with flt := { s.flt with resets := s.flt.resets.filter (fun e => e.1 != d) ++ [(d, n)] } }

/-- No snapshot precedes an array or a Braze port reset. -/
def snapped : Domain → Bool
  | .array _ _ => false
  | .port _ => false
  | _ => true

/-! ## What a reset clears (R407) -/

/-- A core: its accumulators, operand buffer, fill registers, strands, saved context, disputes and sync objects. -/
def State.clearCore (s : State) (core : Nat) : State :=
  let u := s.units
  let die := core / 4
  let own := s.dieSlot die
  let lo := die * 2 ^ 13 + core % 4 * 48
  let t := { s with units := { u with
    acc := setCoreAcc core u.acc [], obuf := u.obuf.filter (fun x => x.core != core),
    lfsr := SMap.clear u.lfsr (core * 8) (core * 8 + 8), strands := SMap.clear u.strands (core * 8192) ((core + 1) * 8192),
    cores := SMap.drop u.cores core, disputes := u.disputes.filter (fun d => d.core != core) } }
  let t := forEach (SMap.slice t.syn.objs lo (lo + 48)) (fun e v =>
    v.setObj e.1 { registered := e.2.registered.filter (fun w => some w.sid != own) }) t
  let t := { t with
    syn := { t.syn with parked := t.syn.parked.filter (fun p => decide (p.obj < lo) || decide (lo + 48 ≤ p.obj)) },
    pwr := { t.pwr with waiting := NSet.del t.pwr.waiting core } }
  if t.pwr.declared.contains core then t.setDeclared core false else t

/-- A compute die: its cores, its DSM and its objects. -/
def State.clearDie (s : State) (die : Nat) : State :=
  let t := (forEach (coresOf die) (fun c t => t.clearCore c) s).dropObjs die
  { t with units := { t.units with
    dsm := SMap.clear t.units.dsm (die * 2 ^ 27) ((die + 1) * 2 ^ 27),
    dsmDirty := t.units.dsmDirty.filter (fun l => l / 2 ^ 20 != die) } }

/-- What a link die holds of messages on their way; VC.3 messages that wait for a port are kept by the ledger's order. -/
def State.clearLinkDie (s : State) (die : Nat) : State :=
  let early (e : Nat × PairState) : Nat × PairState := (e.1, { e.2 with early := e.2.early.filter (fun m => m.1 != die) })
  { s with net := { s.net with
    pairs := (s.net.pairs.map early).filter (fun e => decide (e.2 ≠ {})),
    waiting := s.net.waiting.filter (fun m => m.1 != die || m.2.vc == 3),
    held := s.net.held.filter (fun m => m.1 != die),
    downLists := s.net.downLists.filter (fun e => brzDie e.1 != die),
    accepted := s.net.accepted.filter (fun e => brzDie e.1 != die) } }

/-- The share of a die's slot is replayed after its reset (R349, R354, R386): a notice when the slot-step becomes
REPLAYING, a further one when a reset takes over or follows another, and the last one again with a new tag. -/
def State.resetReplay (s : State) (die : Nat) (tagNew takeover : Bool) : State :=
  match s.dieSlot die with
  | none => s
  | some sid =>
    let r := s.slot sid
    let allow := if sid < 48 then 25 else if sid < 56 then 50 else 30
    let t :=
      if r.phase = .replaying then (if takeover || r.resetBegun then s.notice sid r.step allow 0 false else s)
      else if !s.jobIn || r.phase == .idle || !s.replayable r.step then s
      else if sid < 48 then s.replaySlot sid allow
      else s.replayModule sid r.step allow
    let t := if tagNew then t.noticeTag sid (t.dieTag die) else t
    t.setSlot sid { t.slot sid with resetBegun := true, stopped := true }

/-- Beginning of a module reset: pins take the column of R27, light is withdrawn but for the control ports', and
everything but the always-on islands is reset. -/
def State.beginModule (s : State) : State :=
  let t := (s.withdrawLight [13, 15]).send (.pin .thermtrip (if s.pwr.thermtrip then 1 else 0))
  let t := forN 4 (fun xp u => u.send (.pin (.perst xp) 1)) t
  let t := (t.showPair .off).wipe false
  let off (m : MgmtDie) : MgmtDie := { m with running := none }
  let t := { t with sec := { t.sec with dies := t.sec.dies.map off, scrubbing := false } }
  t.setStage 1

/-- A core's own power domains, on or off: its control, its forward and its backward engines (R421). -/
def State.setCorePd (s : State) (core v : Nat) : State :=
  forEach [5 + core % 4, 9 + core % 4, 13 + core % 4] (fun b t => t.setField (core / 4) 0 0x048 b b v) s

/-- The effect of a reset's beginning on its domain. -/
def State.resetBody (s : State) (d : Domain) (tagNew takeover : Bool) : State :=
  match d with
  | .array core a =>
    { s with units := { s.units with disputes := s.units.disputes.filter (fun x => x.core != core || x.array != a) } }
  | .core core => ((s.clearCore core).setCorePd core 0).resetReplay (core / 4) tagNew takeover
  | .stackPhy die => s.setField die 0x0E 0x048 0 0 0
  | .die die =>
    if die < 48 then ((((s.clearDie die).setSvc die 1).setPd die 1 0).portsDown die 1).resetReplay die tagNew takeover
    else if die < 62 then (s.setSvc die 1).setMd (die - 60) { s.md (die - 60) with running := none }
    else ({ s with ldg := { s.ldg with standby := false } }.setSvc die 1).setField 62 0x20 0x0B0 1 1 0
  | .port p => s.portDown p 8
  | .linkDie die =>
    let t := forN 6 (fun i u => u.portDown (6 * (die - 48) + i) 8) s
    let t := if 54 ≤ die then t.portDown (die - 54 + 48) 8 else t
    ((((t.clearLinkDie die).dropObjs die).setSvc die 1).setPd die 1 0).resetReplay die tagNew takeover
  | .hub die =>
    let t := (s.send (.pin (.perst (die - 56)) 1)).setField die 0x1F 0x040 1 0 0
    (((t.dropObjs die).setSvc die 1).setPd die 1 0).resetReplay die tagNew takeover
  | .module => s.beginModule

/-- A domain can be reset: neither it nor a domain around it is in reset, its die is not fenced, and it is no active
management or ledger die (R407). -/
def State.canReset (s : State) (d : Domain) : Bool :=
  s.pwr.railsOn && !s.flt.resetting.contains d && !(enclosing d).any s.flt.resetting.contains
    && !s.flt.fenced.contains (domainDie d) && !s.flt.outOfService.contains .module
    && (match d with
      | .die die =>
        if die < 48 then true
        else if die < 62 then die != 60 + s.sec.active && (s.md (die - 60)).inService
        else die != 62 + s.ldg.active && !s.flt.outOfService.contains (.die die)
      | _ => true)

/-- A reset begins (R406 to R411): the snapshot, the tags, the count, and its effect. An inner reset is abandoned, and its
snapshot covers both. -/
def State.beginReset (s : State) (d : Domain) : State :=
  if !s.canReset d then s
  else
    let taken := s.flt.resetting.filter (fun x => (enclosing x).contains d)
    let tags := (tagsOf d).filter (fun x => !s.tagRaised x)
    let t := if !snapped d then s else if taken.any snapped then s.widenSnap d taken else s.snapshot d
    let t := (forEach tags (fun x u => u.raiseTag x) t).countReset d
    let t := { t with flt := { t.flt with resetting := t.flt.resetting.filter (fun x => !(enclosing x).contains d) ++ [d] } }
    t.resetBody d (tags.contains (.die (domainDie d)) || tags.contains d) (!taken.isEmpty)

def execArrayReset (core a : Nat) (s : State) : Out :=
  onUnit (domainOk (.array core a)) (s.beginReset (.array core a))
def execCoreReset (core : Nat) (s : State) : Out := onUnit (domainOk (.core core)) (s.beginReset (.core core))
def execStackPhyReset (die : Nat) (s : State) : Out := onUnit (domainOk (.stackPhy die)) (s.beginReset (.stackPhy die))
def execDieReset (die : Nat) (s : State) : Out := onUnit (domainOk (.die die)) (s.beginReset (.die die))
def execBrazePortReset (port : Nat) (s : State) : Out := onUnit (domainOk (.port port)) (s.beginReset (.port port))
def execLinkDieReset (die : Nat) (s : State) : Out := onUnit (domainOk (.linkDie die)) (s.beginReset (.linkDie die))
def execHubReset (die : Nat) (s : State) : Out := onUnit (domainOk (.hub die)) (s.beginReset (.hub die))
def execModuleReset (s : State) : Out := ok (s.beginReset .module)

/-! ## Completion (R407, R490) -/

/-- Counters and RO telemetry of a page restart. -/
def State.restartPage (s : State) (die blk : Nat) (ro : List Nat) : State :=
  let a := canonAddr die blk 0xC00
  let t := s.dropRegs (fun k => decide (a ≤ k) && decide (k < a + 0x400))
  forEach ro (fun o u => u.setReg (canonAddr die blk o) (resetReg (canonAddr die blk o))) t

/-- The pages of a core. -/
def State.restartCore (s : State) (core : Nat) : State :=
  let c := core % 4
  let d := core / 4
  ((s.restartPage d (1 + c) [0x050, 0x058]).restartPage d (5 + c) []).restartPage d (9 + c) [0x048, 0x050]

/-- The slot of a die may issue again. -/
def State.unstop (s : State) (die : Nat) : State :=
  match s.dieSlot die with
  | some sid => s.setSlot sid { s.slot sid with stopped := (s.slot sid).refused }
  | none => s

/-- A reset whose die or stack has tripped completes only below 90 degrees (R433). -/
def State.tripHolds (s : State) : Domain → Bool
  | .die die => s.pwr.tripped.contains die || s.pwr.tripped.contains (100 + die)
  | .stackPhy die => s.pwr.tripped.contains (100 + die)
  | _ => false

/-- A Braze port comes out of its reset: bring-up follows when it is enabled (R234). -/
def State.restartPort (s : State) (p : Nat) : State := if s.enabled p = true then brzEnable p s else s

/-- The effect of a reset's completion. -/
def State.completeBody (s : State) (d : Domain) : State :=
  match d with
  | .array _ _ => s
  | .core core => ((s.restartCore core).setCorePd core 1).unstop (core / 4)
  | .stackPhy die => (s.restartPage die 0x0E []).setField die 0x0E 0x048 0 0 1
  | .die die =>
    if die < 48 then
      (let t := ((forEach (coresOf die) (fun c t => t.restartCore c) s).restartPage die 0x0D [0x050]).restartPage die 0x0E []
       let t := (t.restartPage die 0x10 []).restartPage die 0x24 []
       let t := (t.pdService die).setSvc die (if t.stu.spares.contains die then 3 else 2)
       (((t.setField die 0x0E 0x048 0 0 1).wakeStack die).trainPorts die).unstop die)
    else if die < 62 then
      (let slot := s.bootSlot { cold := false } (die - 60)
       let t := (s.setMd (die - 60) { s.md (die - 60) with running := slot }).setSvc die (if slot.isSome then 6 else 7)
       { t with sec := { t.sec with handover := false } })
    else ({ s with ldg := { s.ldg with standby := true } }.setSvc die 6).setField 62 0x20 0x0B0 1 1 1
  | .port p => (s.restartPage (brzDie p) (brzBlk p) []).restartPort p
  | .linkDie die =>
    let t := forN 6 (fun i u => u.restartPage die (0x18 + i) []) (s.restartPage die 0x24 [])
    let t := if 54 ≤ die then (t.restartPage die 0x1E []).goUp (die - 54 + 48) else t
    let t := (t.setSvc die 2).setPd die (pdRun die) 0
    (forN 6 (fun i u => u.restartPort (6 * (die - 48) + i)) t).unstop die
  | .hub die =>
    let t := (s.restartPage die 0x1F []).restartPage die 0x24 []
    let t := ((t.setSvc die 2).setPd die (pdRun die) 0).send (.pin (.perst (die - 56)) 0)
    let up := decide (t.field die 0x1F 0x048 41 0 ≠ 0)
    (t.setField die 0x1F 0x040 1 0 (if t.mem.farLost.contains (die - 56) then 3 else if up then 2 else 0)).unstop die
  | .module =>
    let force := bitAt (s.rd 60 0 0x388) 1
    (s.wr 60 0 0x388 0).boot { cold := false } force

/-- RESET_COMPLETE (R407). -/
def completeReset (d : Domain) (s : State) : State :=
  if !s.flt.resetting.contains d || s.tripHolds d || s.flt.outOfService.contains .module then s
  else ({ s with flt := { s.flt with resetting := s.flt.resetting.filter (fun x => x != d) } }).completeBody d

def execResetComplete (d : DomainRef) (s : State) : Out := onUnit (domainOk (ofRef d)) (completeReset (ofRef d) s)

/-! ## Watchdogs (R408) -/

/-- The number of a domain in the table of R407. -/
def domainNumber : Domain → Nat
  | .array _ _ => 0
  | .core _ => 1
  | .stackPhy _ => 2
  | .die _ => 3
  | .port _ => 4
  | .linkDie _ => 5
  | .hub _ => 6
  | .module => 7

/-- The class of RESET_TIMEOUT (R398): that of the record it merges into, or that of a record of its own. -/
def State.timeoutClass (s : State) (part : Nat) : Nat :=
  match s.flt.log.find? (fun r => r.isOpen && decide (r.part = part)) with
  | some r => r.cls
  | none => if part = 999 then 4 else 3

/-- A management or ledger die is fenced and leaves service; with both dies of the pair lost the module is lost. -/
def State.pairOut (s : State) (die : Nat) : State :=
  let t := ({ s with flt := { s.flt with fenced := NSet.add s.flt.fenced die } }).peripheralOut die
  let lost := if die < 62 then t.sec.dies.all (fun m => !m.inService)
    else t.flt.outOfService.contains (.die 62) && t.flt.outOfService.contains (.die 63)
  if lost then t.raise die (if die < 62 then 0x0707 else 0x0705) { typ := if die < 62 then 0x01 else 0x20, inst := die % 2 }
  else t

/-- RESET_WATCHDOG: RESET_TIMEOUT, and the enclosing domain is reset, or the die is fenced. -/
def resetWatchdog (d : Domain) (s : State) : State :=
  if !s.flt.resetting.contains d || s.flt.outOfService.contains .module then s
  else
    let (die, site) := domainSite d
    let part := match d with
      | .module => 999
      | _ => s.partition die
    let t := s.raiseAs die 0x0310 (s.timeoutClass part) { site with detail := BitVec.ofNat 64 (domainNumber d) }
    let gone := { t with flt := { t.flt with resetting := t.flt.resetting.filter (fun x => x != d) } }
    match d with
    | .array core _ => t.beginReset (.core core)
    | .core core => t.beginReset (.die (core / 4))
    | .stackPhy x => t.beginReset (.die x)
    | .die x => if x < 48 then gone.fenceDie x else gone.pairOut x
    | .port p => t.beginReset (.linkDie (brzDie p))
    | .linkDie _ => t.beginReset .module
    | .hub x => (gone.raise x 0x0312 { typ := 0x01 }).leaveService (.hub x)
    | .module => (t.outOfService .module).showPair .fault

def execResetWatchdog (d : DomainRef) (s : State) : Out := onUnit (domainOk (ofRef d)) (resetWatchdog (ofRef d) s)

/-! ## Limits (R411, R412) -/

/-- FLT_CFG.RST_LIMIT and MOD_LIMIT. -/
def State.rstLimit (s : State) : Nat := s.field 60 0x21 0x048 27 24
def State.modLimit (s : State) : Nat := s.field 60 0x21 0x048 59 56

/-- RST_LIMIT_REACHED: the domain leaves service with an OUT_OF_SERVICE record. -/
def rstLimitReached (d : Domain) (s : State) : State :=
  if d = .module ∨ s.flt.outOfService.contains d ∨ resetCount d s.flt.resets < s.rstLimit then s
  else
    let (die, site) := domainSite d
    (s.raise die 0x0312 site).leaveService d

def execRstLimitReached (d : DomainRef) (s : State) : Out := onUnit (domainOk (ofRef d)) (rstLimitReached (ofRef d) s)

/-- MOD_LIMIT_REACHED: the module comes up in a service hold. -/
def modLimitReached (s : State) : State :=
  if s.flt.hold ∨ resetCount .module s.flt.resets < s.modLimit then s
  else
    let t := ({ s with flt := { s.flt with hold := true } }).raise 60 0x0313 { typ := 0x01 }
    let t := t.setCpStatus 0
    let t := forN 48 (fun p u => brzDisable p u) t
    if t.flt.resetting.contains .module then t else (t.setStage 9).showPair .fault

def execModLimitReached (s : State) : Out := ok (modLimitReached s)

end Sys2Proof.Machine
end

