-- ==== Sys2Proof/Machine/Thermal.lean ====
section
/-!
DEFINITION. The current-step governor, thermal samples, rail telemetry and lost rails, regulator timeouts and reference
clocks (R293, R294, R419, R420, R424, R428, R432, R433).
-/

namespace Sys2Proof.Machine

/-! ## Grants (R424) -/

/-- GRANT_WINDOW: one window of a quadrant's governor serves waiting cores in increasing number while the granted amount
stays within QSTEP_A; the rest wait for the next window. -/
def grantWindow (q : Nat) (s : State) : State :=
  let ask := s.pwr.waiting.filter (fun c => quadOf (c / 4) == q)
  let n := s.field 60 0x22 0x040 12 0 / 105
  let served := ask.take n
  let left := ask.length - served.length
  let t := { s with pwr := { s.pwr with
    waiting := s.pwr.waiting.filter (fun c => !served.contains c),
    granted := SMap.set (fun _ => 0) s.pwr.granted q (105 * served.length) } }
  if left = 0 then t else t.bump 60 0x22 (0xDA0 + 8 * q) left

def execGrantWindow (quadrant : Nat) (s : State) : Out := onUnit (decide (quadrant < 4)) (grantWindow quadrant s)

/-! ## Power loss (R27, R29) -/

/-- The interfaces take the unpowered column of R27, and everything that is not in flash, fuses or far memory is lost. -/
def State.unpower (s : State) : State :=
  let t := (s.withdrawLight []).send (.pin .thermtrip 0)
  let t := forN 4 (fun xp u => u.send (.pin (.perst xp) 1)) t
  let t := (t.showPair .off).wipe true
  let off (m : MgmtDie) : MgmtDie := { m with running := none }
  { t with
    pwr := { t.pwr with railsOn := false, thermtrip := false },
    sec := { t.sec with dies := t.sec.dies.map off, scrubbing := false } }

/-! ## Thermal limits (R433) -/

/-- The hottest of a list of readings, and its place. -/
def hottest : List Int → Int × Nat
  | [] => (0, 0)
  | x :: l => let m := l.foldl (fun a b => if a < b then b else a) x; (m, (x :: l).findIdx (fun y => y == m))

/-- THERMAL_HIGH, at most once for a die, and once for its stack, in each step. -/
def State.thermalHigh (s : State) (die key : Nat) (temp : Int) : State :=
  let st : Step := match s.dieSlot die with
    | some sid => (s.slot sid).step
    | none => 0
  let word := match s.dieSlot die with
    | some sid => s.stepOf sid
    | none => 0
  if temp ≤ (s.warnOf die : Int) ∨ s.pwr.warned.contains (key, st) then s
  else
    let t := { s with pwr := { s.pwr with warned := s.pwr.warned.filter (fun (w : Nat × Step) => w.1 != key) ++ [(key, st)] } }
    t.event 0x0033 (die + (if 100 ≤ key then 256 else 0)) word (BitVec.ofInt 64 temp)

/-- DIE_THERMTRIP of a die, or of the stack of its cell: the die stops issuing and is reset, and the reset completes only
below 90 degrees. -/
def State.thermTrip (s : State) (die : Nat) (stack : Bool) (temp : Int) : State :=
  let key := if stack then 100 + die else die
  if temp < 105 ∨ s.pwr.tripped.contains key then s
  else
    let t := { s with pwr := { s.pwr with tripped := NSet.add s.pwr.tripped key } }
    let t := t.raise die 0x0700
      { typ := if stack then 0x07 else 0x01, inst := if stack then die else 0, cond := { temp := temp } }
    if stack then
      (({ t with mem := { t.mem with asleep := NSet.add t.mem.asleep die } }).setField die 0x0E 0x048 1 1 1).beginReset (.die die)
    else
      (let u := t.beginReset (.die die)
       if u.flt.fenced.contains die then u else u.setPd die 0xF 0)

/-- A reading of 115 degrees asserts THERMTRIP_N, latched until POR_N. -/
def State.thermPin (s : State) (temps : List Int) : State :=
  if s.pwr.thermtrip ∨ temps.all (fun t => decide (t < 115)) then s
  else ({ s with pwr := { s.pwr with thermtrip := true } }).send (.pin .thermtrip 1)

/-- Below 90 degrees a tripped die or stack may leave its reset. -/
def State.coolDown (s : State) (key : Nat) (temp : Int) : State :=
  if temp < 90 then { s with pwr := { s.pwr with tripped := NSet.del s.pwr.tripped key } } else s

/-- THERMAL_SAMPLE: one reading of a compute die's sensors, the arrays' first (array a of core c at 7c + a), and of its
stack. -/
def thermalSample (die : Nat) (sensors : List Int) (stack : Int) (s : State) : State :=
  if !s.pwr.railsOn then s
  else
    let (tj, at_) := hottest sensors
    let t := s.wr die 0 0x050 (BitVec.ofNat 64 (inFld 23 16 at_ + (BitVec.ofInt 16 tj).toNat))
    let t := (t.setField die 0x0E 0x048 15 8 stack.toNat).setField die 0x0E 0x048 2 2 (if 85 < stack then 1 else 0)
    let t := (t.thermalHigh die die tj).thermalHigh die (100 + die) stack
    let t := forN 4 (fun c u => forN 7 (fun a v =>
      match sensors[7 * c + a]? with
      | none => v
      | some x =>
        if v.aryState (4 * die + c) a = 3 then
          ({ v with free := v.free + 1 }).holdRestriction (4 * die + c) a x (Nat.min 8 (Config.activity v.free).toNat)
        else v) u) t
    let t := (t.coolDown die tj).coolDown (100 + die) stack
    ((t.thermTrip die false tj).thermTrip die true stack).thermPin (stack :: sensors)

def execThermalSample (die : Nat) (sensors : List Int) (stack : Int) (s : State) : Out :=
  onUnit (decide (die < 48)) (thermalSample die sensors stack s)

/-! ## Rails (R419, R420) -/

/-- Raises a fault that the hardware escalates at once. -/
def State.raiseEscalated (s : State) (die code cls : Nat) (x : Site) : State :=
  let r := s.mkRec die code cls x
  let t := s.collect { r with escalated := true }
  if cls = 3 then t.partitionFatal r.part else t.moduleFatal

/-- RAIL_LOST (R419): POWER_PMBUS at the class of the rail, or the unpowered behaviour. -/
def State.railLost (s : State) (rail : Nat) : State :=
  if !s.pwr.railsOn then s
  else if rail < 48 then
    (if s.flt.fenced.contains rail then s else (s.raiseEscalated rail 0x0702 3 { typ := 0x01 }).fenceDie rail)
  else if rail = 52 then s.unpower
  else s.raiseEscalated (60 + s.sec.active) 0x0702 4 { typ := 0x22, inst := s.sec.active, sub := rail }

/-- One reading: PWR_RAIL of a VDD_CORE rail, and the current of its quadrant. A reply whose check fails is read again once; a
second failing reply changes nothing (R294). -/
def State.railSample (s : State) (x : RailSample) : State :=
  if 2 ≤ x.badReplies then s
  else
  let t := if x.rail < 48 then
      (let u := s.wr 60 0x22 (0xC00 + 8 * x.rail) (BitVec.ofNat 64 (inFld 47 32 x.amps + inFld 15 0 x.mv))
       let q := quadOf x.rail
       let sum := (quadDies q).foldl (fun a d => a + u.field 60 0x22 (0xC00 + 8 * d) 47 32) 0
       u.wr 60 0x22 (0xD80 + 8 * q) (BitVec.ofNat 64 sum))
    else s
  if x.lost = true then t.railLost x.rail else t

/-- RAIL_TELEMETRY_POLL. -/
def railPoll (rails : List RailSample) (s : State) : State :=
  if s.pwr.railsOn then forEach rails (fun x t => t.railSample x) s else s

def execRailTelemetryPoll (rails : List RailSample) (s : State) : Out :=
  onUnit (rails.all (fun x => decide (x.rail < 73))) (railPoll rails s)

/-- ALERT_N (R293, R417): the regulator of a rail reports it as failed. -/
def execAlertN (rail : Nat) (s : State) : Out := onUnit (decide (rail < 73)) (s.railLost rail)

/-- Where POWER_AVS of a rail lies: at its die, or for a VDD_SRAM rail at the active management die. -/
def State.avsSite (s : State) (rail : Nat) : Nat × Site :=
  if rail < 48 then (rail, { typ := 0x01 }) else (60 + s.sec.active, { typ := 0x22, inst := s.sec.active, sub := rail })

/-- AVS_ACK_TIMEOUT (R293, R420): the write is sent again up to three times, then POWER_AVS; a die that holds for a raise
cannot reach the voltage of its next bin, which is excluded. The unit is a rail: VDD_CORE of a die, or VDD_SRAM of quadrant q
at 48 + q. -/
def avsAckTimeout (die : Nat) (s : State) : State :=
  let z : Nat → Nat := fun _ => 0
  let k := SMap.get z s.pwr.avsTries die
  if !s.pwr.railsOn then s
  else if k < 3 then
    ({ s with pwr := { s.pwr with avsTries := SMap.set z s.pwr.avsTries die (k + 1) } }).send (.avs die (s.volts die))
  else
    let t := ({ s with pwr := { s.pwr with avsTries := SMap.set z s.pwr.avsTries die 0 } }).raise (s.avsSite die).1 0x0701
      (s.avsSite die).2
    match (if die < 48 then t.dieSlot die else none) with
    | none => t
    | some sid => if (t.slot sid).phase = .opened ∨ !t.jobIn then t else t.excludeBin die (t.dieBin die)

def execAvsAckTimeout (die : Nat) (s : State) : Out := onUnit (decide (die < 52)) (avsAckTimeout die s)

/-- PMBUS_CLOCK_LOW_TIMEOUT (R294): a DEFERRED power fault. -/
def pmbusTimeout (s : State) : State :=
  if s.pwr.railsOn then s.raise (60 + s.sec.active) 0x0702 { typ := 0x22, inst := s.sec.active } else s

def execPmbusClockLowTimeout (s : State) : Out := ok (pmbusTimeout s)

/-! ## Reference clocks (R428) -/

/-- The pair of a peripheral die, and its backup. -/
def pairOf (die : Nat) : Nat :=
  if [48, 49, 56, 60].contains die then 0
  else if [50, 51, 57, 61].contains die then 1
  else if [52, 53, 58, 62].contains die then 2
  else 3
def backupOf (pair : Nat) : Nat := if pair % 2 = 0 then pair + 1 else pair - 1

/-- REFCLK_LOSS: the compute dies of the quadrant fail, and the peripheral dies switch to their backup pair or fail. -/
def refclkLoss (pair : Nat) (s : State) : State :=
  if !s.pwr.railsOn ∨ s.pwr.lostPairs.contains pair then s
  else
    let t := { s with pwr := { s.pwr with lostPairs := NSet.add s.pwr.lostPairs pair } }
    let t := forEach (quadDies pair) (fun d u => u.raise d 0x0703 { typ := 0x01 }) t
    forEach ((List.range 16).map (fun i => 48 + i)) (fun d u =>
      let p := pairOf d
      if p ≠ pair ∧ backupOf p ≠ pair then u
      else if u.pwr.lostPairs.contains p && u.pwr.lostPairs.contains (backupOf p) then
        u.raiseAs d 0x0703 (if u.partition d < 60 then 3 else 4) { typ := 0x01 }
      else if p = pair then { u with pwr := { u.pwr with onBackup := NSet.add u.pwr.onBackup d } }
      else u) t

def execRefclkLoss (pair : Nat) (s : State) : Out := onUnit (decide (pair < 4)) (refclkLoss pair s)

end Sys2Proof.Machine
end

