-- ==== Sys2Proof/Machine/Startup.lean ====
section
/-!
DEFINITION. Power-up and power loss (R29, R457 to R460, R477), the test access port (R471 to R473, R454), and loopbacks
(R469, R470).
-/

namespace Sys2Proof.Machine

/-! ## Power-up (R458, R459) -/

/-- The rails come up in order; VDD_SRAM stands at 750 mV and VDD_CORE at VF_FUSE[2] plus the guard. -/
def State.railsUp (s : State) : State :=
  let sram := [48, 49, 50, 51].foldl (fun m r => SMap.set (fun _ => 0) m r 750) s.pwr.volts
  let t := forEach railOrder (fun n u => u.send (.pin (.rail n) 1)) { s with pwr := { s.pwr with railsOn := true, volts := sram } }
  forN 48 (fun d u => u.command d (u.binMv d 2)) t

/-- STRAP[3:0] is sampled until two samples agree (R294). -/
def strapOf : List Nat → Nat
  | a :: b :: l => if a = b then a % 16 else strapOf (b :: l)
  | _ => 0

/-- The module's static I3C address (R292). -/
def State.i3cAddress (s : State) : Nat := 0x30 + s.stu.strap

/-- The light-request bits as the board controller reads them: bit 2n + e for LD.n/OE.e (R292). -/
def State.lightBits (s : State) : Nat := (s.link.light.map (fun e => 2 ^ e)).sum

/-- The rails are turned off in reverse order. -/
def State.railsDown (s : State) : State := forEach railOrder.reverse (fun n u => u.send (.pin (.rail n) 0)) s

/-- POR_N_RELEASE: a cold start (R457 to R467). -/
def porRelease (r : StartReport) (s : State) : State :=
  if s.pwr.railsOn then s
  else
    let t := s.loseSections r.absent
    let t := { t with stu := { t.stu with b2Only := true, strap := strapOf r.strap } }
    t.railsUp.boot { r with cold := true } false

def execPorNRelease (r : StartReport) (s : State) : Out := ok (porRelease r s)

/-- The module withdraws every light request and then turns the rails off in reverse order (R22, R459, R477). -/
def State.powerDown (s : State) : State := (s.withdrawLight []).railsDown.unpower

/-- POWER_GOOD_TIMEOUT: a rail is commanded once more; if it misses again the rails are turned off, POWER_PMBUS is
recorded, and the FAULT pair shows FAULT. -/
def powerGoodTimeout (rail : Nat) (s : State) : State :=
  if !s.pwr.railsOn then s
  else if !s.stu.missedRails.contains rail then
    ({ s with stu := { s.stu with missedRails := NSet.add s.stu.missedRails rail } }).send (.pin (.rail rail) 1)
  else
    let t := s.powerDown
    (t.collect (t.mkRec 60 0x0702 2 { typ := 0x22, sub := rail })).showPair .fault

def execPowerGoodTimeout (rail : Nat) (s : State) : Out := onUnit (decide (rail < 73)) (powerGoodTimeout rail s)

/-- POR_N_ASSERT (R477): the rails are turned off in reverse order. -/
def porAssert (s : State) : State := if s.pwr.railsOn then s.powerDown else s.unpower

def execPorNAssert (s : State) : Out := ok (porAssert s)

/-- RAILS_OK_DEASSERT (R29): the unpowered column, whatever stage a reset or start has reached. -/
def railsOkDeassert (s : State) : State := if s.pwr.railsOn then s.unpower else s

def execRailsOkDeassert (s : State) : Out := ok (railsOkDeassert s)

/-! ## The test access port (R471 to R473, R454) -/

/-- The die kind of an IDCODE. -/
def tapKind (die : Nat) : Nat :=
  if die < 48 then 0x6C01 else if die < 56 then 0x6C02 else if die < 60 then 0x6C03 else if die < 62 then 0x6C04 else 0x6C05

def idcode (die : Nat) : Nat :=
  inFld 31 28 (Config.dieRevision die).toNat + inFld 27 12 (tapKind die) + inFld 11 1 Config.vendorCode.toNat + 1

/-- Instructions as the command numbers them: IDCODE, SAMPLE/PRELOAD, a read of an instrument, EXTEST of IEEE 1149.1, the two
AC instructions of IEEE 1149.6, an instrument access that writes or starts a test, and BYPASS; every other number is another
instruction or test. -/
def tapIdcode : Nat := 0
def tapSample : Nat := 1
def tapReadOnly : Nat := 2
def tapExtest : Nat := 3
def tapPulse : Nat := 4
def tapTrain : Nat := 5
def tapInstrument : Nat := 6
def tapBypass : Nat := 255

/-- The signal lands of a die's boundary register, numbered in the order of R17 (R472): a hub die has its XP port's lanes,
reference clock and PERST_N, and MD.0 every other signal land. -/
def dieLands (die : Nat) : List Nat :=
  if 56 ≤ die ∧ die < 60 then
    let k := die - 56
    (List.range 64).map (fun i => 64 * k + i) ++ [256 + 2 * k, 257 + 2 * k, 264 + k]
  else if die = 60 then (List.range 194).map (fun i => 268 + i)
  else []

/-- Lands whose cells take the AC instructions: the XP lanes and the management-port lanes (R472). -/
def acLand (i : Nat) : Bool := decide (i < 256) || (decide (268 ≤ i) && decide (i < 272))

/-- Lands that the module drives as plain outputs: XP clocks, PERST_N, the FAULT pair and THERMTRIP_N (R17). -/
def outLand (i : Nat) : Bool := (decide (256 ≤ i) && decide (i < 268)) || i == 305 || i == 306 || i == 309

/-- The level of a signal land as a boundary cell captures it: those that the state fixes, and a free value elsewhere. -/
def State.landLevel (s : State) (i : Nat) : Bool :=
  if i = 305 then s.flt.pair == .fault
  else if i = 306 then s.flt.pair == .alive
  else if i = 307 ∨ i = 308 then s.pwr.railsOn
  else if i = 309 then !s.pwr.thermtrip
  else if i = 310 ∨ i = 311 then false
  else if 312 ≤ i ∧ i < 316 then bitAt (BitVec.ofNat 64 s.stu.strap) (i - 312)
  else Config.landLevel s.free i

/-- What a die's boundary register captures, its first land in bit 0. -/
def State.capture1149 (s : State) (die : Nat) : Nat :=
  ((dieLands die).zipIdx.map (fun e => if s.landLevel e.1 then 2 ^ e.2 else 0)).sum

/-- An EXTEST or AC instruction drives the update latch of a die onto those of its output lands that the instruction covers:
bit `n` of `drive` is land `n` (R472). -/
def State.driveLands (s : State) (die : Nat) (ac : Bool) : State :=
  let v := SMap.get (fun _ => 0) s.stu.boundary die
  let lands := (dieLands die).zipIdx.filter (fun e => if ac then acLand e.1 else outLand e.1)
  forEach lands (fun e t => t.send (.pin (.land e.1) (v / 2 ^ e.2 % 2))) s

/-- Instruments of a die's IEEE 1687 network (R472) as bits [7:0] of `dr` number them: temperature sensors, voltage sensors,
PLL lock, PLL frequency counters, eye monitors, built-in memory and logic test, fuse read-out (ID_SEED excluded), and a base
die's IEEE 1500 wrapper: stack memory test and repair-array read-out. Bits [23:8] are the index, bits [31:24] the stack. -/
def instrumentKind (dr : Nat) : Nat := dr % 256
def instrumentIndex (dr : Nat) : Nat := dr / 256 % 2 ^ 16
def instrumentStack (dr : Nat) : Nat := dr / 2 ^ 24 % 256

/-- Sensors and eye monitors, whose reading is allowed while a job is in the ledger (R473). -/
def monitor (dr : Nat) : Bool := instrumentKind dr == 0 || instrumentKind dr == 1 || instrumentKind dr == 4

/-- A base die's wrapper is an instrument of its own cell's compute die, or of the alternate die while that one is fenced. -/
def State.wrapperDie (s : State) (stack : Nat) : Nat := if s.flt.fenced.contains stack then altDie stack else stack

/-- An instrument that the access names is there to answer. -/
def State.instrumentOk (s : State) (die dr : Nat) : Bool :=
  if instrumentKind dr < 7 then true
  else decide (instrumentKind dr < 9) && decide (instrumentStack dr < 48) && s.wrapperDie (instrumentStack dr) == die

/-- What an instrument answers: the fuses and repair arrays always alike, the others a free value. -/
def State.instrumentWord (s : State) (die dr : Nat) : Nat :=
  let k := instrumentKind dr
  if s.instrumentOk die dr = false then 0
  else if k = 6 ∨ k = 8 then Config.fuseWord die dr
  else if k = 0 ∧ die < 48 ∧ instrumentIndex dr = s.field die 0 0x050 23 16 then s.field die 0 0x050 15 0
  else Config.instrumentWord s.free die dr

/-- What the locks leave of an instruction: BYPASS takes the place of one they forbid. -/
def State.tapAllowed (s : State) (ir dr : Nat) : Nat :=
  let basic := decide (ir = tapIdcode ∨ ir = tapSample ∨ ir = tapBypass)
  if s.sec.debugLocked && !basic then tapBypass
  else if s.jobIn && !basic && !(ir == tapReadOnly && monitor dr) then tapBypass
  else ir

/-- The power domain of a die's test circuits (R421, R422). -/
def testDomain (die : Nat) : Nat :=
  if die < 48 then 19 else if die < 56 then 9 else if die < 60 then 5 else if die < 62 then 6 else 4

/-- A TAP instruction that the locks allow, other than IDCODE and BYPASS. -/
def State.tapRun (s : State) (die x dr : Nat) : State :=
  let t := { s with free := s.free + 1 }
  let used (u : State) : State := u.setField 60 0 0x380 15 15 1
  if x = tapSample then
    ({ t with stu := { t.stu with boundary := SMap.set (fun _ => 0) t.stu.boundary die (dr % 2 ^ (dieLands die).length) } }).send
      (.pin .tdo (s.capture1149 die))
  else if x = tapReadOnly then
    (let u := t.send (.pin .tdo (s.instrumentWord die dr))
     if monitor dr then u else used u)
  else if x = tapExtest then used (t.driveLands die false)
  else if x = tapPulse ∨ x = tapTrain then used (t.driveLands die true)
  else if x = tapInstrument then used (t.send (.pin .tdo (s.instrumentWord die dr)))
  else used t

/-- TAP_INSTRUCTION: executed, or replaced by BYPASS; instructions other than IDCODE and BYPASS power the test domain, and any
but SAMPLE/PRELOAD and a read of sensors or eye monitors sets TEST_USED. -/
def tapInstruction (die ir dr : Nat) (s : State) : State :=
  let x := s.tapAllowed ir dr
  let t := { s with stu := { s.stu with tap := SMap.set (fun _ => tapBypass) s.stu.tap die x } }
  let d := testDomain die
  let t := if s.pwr.railsOn then t.setField die 0 0x048 d d (if x = tapIdcode ∨ x = tapBypass then 0 else 1) else t
  if x = tapIdcode then t.send (.pin .tdo (idcode die))
  else if x = tapBypass then t.send (.pin .tdo (dr * 2))
  else if !s.pwr.railsOn then t
  else t.tapRun die x dr

def execTapInstruction (die ir dr : Nat) (s : State) : Out := onUnit (decide (die < 64)) (tapInstruction die ir dr s)

/-! ## Loopbacks (R469, R470) -/

/-- The combinations of R469. -/
def loopExists (if_ inst depth : Nat) : Bool :=
  if if_ = 1 then decide (inst < 2) && decide (1 ≤ depth) && decide (depth ≤ 3)
  else if if_ = 2 then decide (inst < 4) && decide (2 ≤ depth) && decide (depth ≤ 3)
  else if if_ = 3 then decide (inst < 48) && (depth == 1 || depth == 3)
  else if if_ = 4 then decide (inst < 192) && decide (2 ≤ depth) && decide (depth ≤ 3)
  else if if_ = 5 then decide (inst = 0) && decide (1 ≤ depth) && decide (depth ≤ 2)
  else if if_ = 6 then decide (inst < 48) && depth == 3
  else false

/-- The interface and instance of the port that a path is. -/
def loopPath : Path → Option (Nat × Nat)
  | .cpA => some (1, 0)
  | .cpB => some (1, 1)
  | .mgmt => some (5, 0)
  | .firmware => none

/-- An interface leaves service for its loopback. -/
def State.loopOn (s : State) (if_ inst : Nat) : State :=
  if if_ = 1 then s.setPhase (48 + inst) 8
  else if if_ = 2 then s.setField (hubOf inst) 0x1F 0x040 1 0 1
  else if if_ = 3 then s.setField inst 0x0E 0x048 0 0 0
  else if if_ = 4 then s.setEdge (inst / 4) (inst % 4) 1
  else if if_ = 6 then s.setField inst 0x0F 0x058 1 0 1
  else s

/-- An interface retrains after its loopback. -/
def State.loopOff (s : State) (if_ inst : Nat) : State :=
  if if_ = 1 then s.setPhase (48 + inst) 2
  else if if_ = 2 then s.setField (hubOf inst) 0x1F 0x040 1 0 2
  else if if_ = 3 then s.setField inst 0x0E 0x048 0 0 1
  else if if_ = 4 then s.setEdge (inst / 4) (inst % 4) 2
  else if if_ = 6 then s.setField inst 0x0F 0x058 1 0 2
  else s

/-- The reason for which a write of STU_LOOP is rejected, if any. -/
def State.loopReject (s : State) (p : Path) (v : Word) : Option Nat :=
  match s.checkWrite p 60 0 0x390 v with
  | some r => some r
  | none =>
    if bitAt v 63 then
      let i := fld v 11 8
      let n := fld v 23 16
      let ms := fld v 47 32
      if ms = 0 ∨ 60000 < ms then some rejRange
      else if !loopExists i n (fld v 1 0) then some rejRelation
      else if s.jobIn ∨ s.stu.loops.any (fun l => l.1 == i && l.2.1 == n) ∨ loopPath p = some (i, n) then some rejState
      else none
    else none

/-- STU_LOOP_START (R470): a write of STU_LOOP; with START set the loopback begins. -/
def stuLoopStart (p : Path) (v : Word) (s : State) : State :=
  match s.loopReject p v with
  | some r => s.reject 60 0 0x390 r
  | none =>
    let busy := !s.stu.loops.isEmpty
    let w := setFld (setFld v 62 62 (s.field 60 0 0x390 62 62)) 63 63 (if bitAt v 63 || busy then 1 else 0)
    if bitAt v 63 then
      (let i := fld v 11 8
       let n := fld v 23 16
       let t := { s with stu := { s.stu with loops := s.stu.loops ++ [(i, n, fld v 1 0)] } }
       let t := ((t.wr 60 0 0x390 (setFld w 62 62 0)).wr 60 0 0xC80 0).wr 60 0 0xC88 0
       t.loopOn i n)
    else s.wr 60 0 0x390 w

def execStuLoopStart (p : Path) (v : Word) (s : State) : Out := ok (stuLoopStart p v s)

/-- LOOPBACK_END: the oldest loopback's duration is over; its counts are shown and its interface retrains. -/
def loopbackEnd (s : State) : State :=
  match s.stu.loops with
  | [] => s
  | (i, n, _) :: rest =>
    let t := { s with stu := { s.stu with loops := rest }, free := s.free + 1 }
    let t := (t.wr 60 0 0xC80 (Config.loopCount s.free 1)).wr 60 0 0xC88 (Config.loopCount s.free 0)
    let t := (t.setField 60 0 0x390 62 62 1).setField 60 0 0x390 63 63 (if rest.isEmpty then 0 else 1)
    t.loopOff i n

def execLoopbackEnd (s : State) : Out := ok (loopbackEnd s)

end Sys2Proof.Machine
end

