-- ==== Sys2Proof/Machine/Faults.lean ====
section
/-!
DEFINITION. The module collector and its log, handling windows and claims, the module-fatal sequence, hang detection,
the heartbeat, handovers of the management dies, and the replay limit (R350, R392 to R406, R412, R414, R415).
-/

namespace Sys2Proof.Machine

/-! ## The module collector (R395, R396, R414) -/

/-- The page of the block that raised a record (R479, R482). -/
def recBlock (r : FaultRec) : Nat × Nat :=
  let b := if r.typ = 0x01 then 0
    else if r.typ = 0x02 then 0x01 + r.inst % 4
    else if r.typ = 0x03 then 0x05 + r.inst % 4
    else if r.typ = 0x04 then 0x09 + r.inst % 4
    else if r.typ = 0x05 then 0x0D
    else if r.typ = 0x06 then 0x0E
    else if r.typ = 0x07 then 0x0F
    else if r.typ = 0x08 then 0x10
    else if r.typ = 0x10 then 0x18 + r.inst % 6
    else if r.typ = 0x11 then 0x1E
    else if r.typ = 0x12 then 0x1F
    else r.typ
  if 0x20 ≤ r.typ ∧ r.typ ≤ 0x23 then ((if r.typ = 0x20 then 62 else 60), b) else (r.die, b)

/-- BLK_ERRMASK.CORR_QUIET of the block. -/
def State.corrQuiet (s : State) (r : FaultRec) : Bool :=
  let p := recBlock r
  s.field p.1 p.2 0x028 0 0 == 1

/-- The open record that a new error is merged into, if any. -/
def State.mergeTarget (s : State) (r : FaultRec) : Option FaultRec :=
  match s.flt.log.find? (fun x => x.isOpen && x.cls == 4) with
  | some x => some x
  | none => s.flt.log.find? (fun x => x.isOpen && x.part == r.part)

/-- Replaces a record of the log by its SEQ. -/
def State.setLog (s : State) (r : FaultRec) : State :=
  { s with flt := { s.flt with log := s.flt.log.map (fun x => if x.seq = r.seq ∧ x.isOpen then r else x) } }

/-- A record after a merge. -/
def FaultRec.merge (o r : FaultRec) : FaultRec :=
  { o with
    merged := Nat.min 255 (o.merged + 1), lastCode := r.code, lastClass := r.cls, cls := Nat.max o.cls r.cls,
    claimed := o.claimed && decide (r.cls ≤ o.cls) }

/-- Drops the first record that satisfies `f`. -/
def dropRec (f : FaultRec → Bool) : List FaultRec → Option (List FaultRec)
  | [] => none
  | r :: rs => if f r then some rs else (dropRec f rs).map (fun l => r :: l)

/-- The log makes room: the oldest closed CORRECTED record goes first, then the oldest closed one. -/
def trimLog (l : List FaultRec) : List FaultRec :=
  if l.length < 8192 then l
  else match dropRec (fun r => !r.isOpen && r.cls == 0) l with
    | some m => m
    | none => (dropRec (fun r => !r.isOpen) l).getD l

/-- The module-fatal sequence (R414): FAULT, a job-step REPLAY notice while a job runs and the ledger still answers, and a module reset with its snapshot. -/
def State.fatalSequence (s : State) : State :=
  let t := s.moduleFatal
  let lost := t.flt.log.any (fun r => r.isOpen && (r.code == 0x0705 || r.lastCode == 0x0705))
  let t := if t.jobIn ∧ !lost then t.notice 0xFF t.ldg.newestOpened 3060 2 else t
  t.beginReset .module

/-- A record gets its SEQ, enters the log, and is sent as a FAULT event. -/
def State.logRecord (s : State) (r : FaultRec) : State :=
  let x := { r with seq := s.flt.nextSeq % 2 ^ 24, isOpen := decide (2 ≤ r.cls) }
  let t := { s with flt := { s.flt with log := trimLog s.flt.log ++ [x], nextSeq := s.flt.nextSeq + 1 } }
  let t := if 1 ≤ x.cls ∨ t.field 60 0x21 0x040 32 32 = 1 then
      t.event 0x0040 x.seq x.step (wordAt x.bytes 0) (x.bytes ++ x.entry) else t
  if x.cls = 4 ∧ x.code ≠ 0x0313 then t.fatalSequence else t

/-- FAULT_RECORD: the front record of a die's collector reaches the module collector. -/
def faultRecord (die : Nat) (limited : Bool) (s : State) : State :=
  match SMap.get (fun _ => []) s.flt.collectors die with
  | [] => s
  | r :: rest =>
    let t := { s with flt := { s.flt with collectors := SMap.set (fun _ => []) s.flt.collectors die rest } }
    if r.cls = 0 ∧ (limited ∨ t.corrQuiet r) then t
    else match t.mergeTarget r with
      | none => t.logRecord r
      | some o =>
        let m := o.merge r
        let u := t.setLog m
        if o.cls < 4 ∧ m.cls = 4 ∧ r.code ≠ 0x0313 then u.fatalSequence else u

def execFaultRecord (die : Nat) (limited : Bool) (s : State) : Out := onUnit (decide (die < 64)) (faultRecord die limited s)

/-! ## Handling windows (R394) -/

/-- The reset of a partition's die. -/
def State.partitionDomain (s : State) (part : Nat) : Domain :=
  if part < 48 then .die (s.slotDie part)
  else if part < 56 then .linkDie part
  else if part < 60 then .hub part
  else .die (part - 100)

/-- HANDLING_WINDOW_EXPIRY: an unclaimed record is escalated. -/
def windowExpiry (seq : Nat) (s : State) : State :=
  match s.flt.log.find? (fun r => r.seq == seq && r.isOpen && !r.claimed) with
  | none => s
  | some r =>
    if r.cls = 2 ∧ r.part ≠ 999 then (s.setLog { r with cls := 3, escalated := true }).partitionFatal r.part
    else if r.cls = 2 then (s.setLog { r with cls := 4, escalated := true }).fatalSequence
    else if r.cls = 3 then
      (s.setLog { r with escalated := true, claimed := true }).beginReset (s.partitionDomain r.part)
    else s

def execHandlingWindowExpiry (seq : Nat) (s : State) : Out := ok (windowExpiry seq s)

/-- FLT_CLAIM, written by management firmware only. -/
def fltClaim (p : Path) (seq : Nat) (s : State) : State :=
  if p ≠ .firmware then s.reject 60 0x21 0x050 rejAccess
  else if 2 ^ 24 ≤ seq then s.reject 60 0x21 0x050 rejReserved
  else
    let claim (r : FaultRec) : FaultRec := if r.seq = seq ∧ r.isOpen then { r with claimed := true } else r
    { s with flt := { s.flt with log := s.flt.log.map claim } }

def execFltClaim (p : Path) (seq : Nat) (s : State) : Out := ok (fltClaim p seq s)

/-- FLT_DONE, written by management firmware only: closes a DEFERRED record (R395). -/
def fltDone (p : Path) (seq : Nat) (s : State) : State :=
  if p ≠ .firmware then s.reject 60 0x21 0x058 rejAccess
  else if 2 ^ 24 ≤ seq then s.reject 60 0x21 0x058 rejReserved
  else
    let close (r : FaultRec) : FaultRec := if r.seq = seq ∧ r.cls = 2 then { r with isOpen := false } else r
    { s with flt := { s.flt with log := s.flt.log.map close } }

def execFltDone (p : Path) (seq : Nat) (s : State) : Out := ok (fltDone p seq s)

/-- FLT_CTL.RELEASE (R412): over the management port only, and only in the service hold. Every reset count is cleared, and
the module goes on to orders 8 to 10 of its start. -/
def fltRelease (p : Path) (s : State) : State :=
  if p ≠ .mgmt then s.reject 60 0x21 0x060 rejAccess
  else if !s.flt.hold then s.reject 60 0x21 0x060 rejState
  else
    let t := { s with flt := { s.flt with hold := false, resets := [] } }
    if t.field 60 0 0x380 23 20 ≠ 9 then t
    else
      let t := t.showPair .alive
      if t.sec.scrubPending then t.beginScrub.setStage 7 else t.openPorts

def execFltCtlRelease (p : Path) (s : State) : Out := ok (fltRelease p s)

/-! ## Hang detection (R402 to R405) -/

abbrev UnitId := Nat × Nat

/-- The units that a set of units waits on, through the edges. -/
def waitStep (edges : List Edge) (l : List UnitId) : List UnitId :=
  (edges.filter (fun e => e.remote.isNone && l.contains (e.die, e.unit))).foldl
    (fun a e => if a.contains (e.toDie, e.toUnit) then a else a ++ [(e.toDie, e.toUnit)]) l

/-- The units reached from a set, with as many rounds as there are edges. -/
def waitReach (edges : List Edge) : Nat → List UnitId → List UnitId
  | 0, l => l
  | n + 1, l => waitReach edges n (waitStep edges l)

/-- The units that a unit waits on, directly or through others. -/
def waitsOn (edges : List Edge) (u : UnitId) : List UnitId :=
  let first := (edges.filter (fun e => e.remote.isNone && decide ((e.die, e.unit) = u))).map (fun e => (e.toDie, e.toUnit))
  waitReach edges edges.length first.eraseDups

/-- The members of a cycle through a unit. -/
def cycleOf (edges : List Edge) (u : UnitId) : List UnitId :=
  (waitsOn edges u).filter (fun v => (waitsOn edges v).contains u)

/-- The class of a hang with these members (R404). -/
def State.hangClass (s : State) (l : List UnitId) : Nat :=
  if l.any (fun u => decide (s.partition u.1 = 999)) then 4 else 3

/-- The reset of a die as a whole (R407). -/
def dieDomain (die : Nat) : Domain :=
  if 48 ≤ die ∧ die < 56 then .linkDie die else if 56 ≤ die ∧ die < 60 then .hub die else .die die

/-- The smallest domains that hold every member of a cycle: one core, one die, or each member die (R405). -/
def hangDomains (l : List UnitId) : List Domain :=
  let dies := (l.map (fun u => u.1)).eraseDups
  match dies, (l.map (fun u => u.2)).eraseDups with
  | [d], [u] => if d < 48 ∧ u < 4 then [.core (4 * d + u)] else [dieDomain d]
  | _, _ => dies.map dieDomain

/-- A cycle is confirmed: the record, and the reset of the smallest domains that hold its members. One with a unit of no
partition is MODULE_FATAL, whose own sequence follows. R405 speaks of the members of a cycle: a stalled chain is charged to
its last unit's partition, and the ladder of R386 takes it from there (DEDUCED, log entry 21). -/
def State.confirmCycle (s : State) (die : Nat) (cyc : List UnitId) (site : Site) : State :=
  let t := s.raiseAs die 0x0301 (s.hangClass cyc) site
  if s.hangClass cyc = 4 then t else forEach (hangDomains cyc) (fun d v => v.beginReset d) t

/-- What a detector finds for one suspect: a cycle, a chain that leaves the module, or a chain that ends at a unit without
progress. -/
def State.findHang (s : State) (edges : List Edge) (sid op : Nat) (inside : UnitId → Bool) : State :=
  match s.liveOp sid op with
  | none => s
  | some o =>
    let u : UnitId := (s.slotDie sid, o.unit)
    let site := opSite sid o
    let chain := u :: (waitsOn edges u).filter (fun v => v != u)
    let cyc := cycleOf edges u
    let detail (n : Nat) : Word := BitVec.ofNat 64 (inFld 63 56 n + inFld 55 48 s.flt.nextSnap)
    if !cyc.isEmpty then
      s.confirmCycle u.1 cyc { site with detail := detail cyc.length }
    else match edges.find? (fun e => e.remote.isSome && chain.contains (e.die, e.unit)) with
      | some e =>
        let t := { s with free := s.free + 1 }
        if Config.overFour s.free then
          t.raise u.1 0x0303 { site with detail := BitVec.ofNat 64 (inFld 63 48 (e.remote.getD 0)) }
        else t
      | none =>
        match chain.find? (fun v => inside v && !edges.any (fun e => e.die == v.1 && e.unit == v.2)) with
        | none => s
        | some v =>
          let t := { s with free := s.free + 1 }
          if Config.silent s.free then
            t.raiseAs v.1 0x0302 (s.hangClass chain)
              (if v = u then { site with detail := detail chain.length }
               else { typ := 0x01, sub := v.2, detail := detail chain.length })
          else t

/-- A detector run over the suspects that are still suspects. -/
def State.detect (s : State) (edges : List Edge) (mine : Nat → Bool) (inside : UnitId → Bool) : State :=
  forEach s.flt.suspects (fun x t =>
    if t.flt.suspects.contains x && mine (t.slotDie x.1) then t.findHang edges x.1 x.2 inside else t) s

/-- The die's detector keeps its last graph (R406). -/
def State.keepGraph (s : State) (die : Nat) (edges : List Edge) : State :=
  { s with flt := { s.flt with graph := SMap.set (fun _ => []) s.flt.graph die edges } }

/-- DIE_DETECTOR_TICK: the edges that start in one die. -/
def execDieDetectorTick (die : Nat) (edges : List Edge) (s : State) : Out :=
  onUnit (decide (die < 64))
    ((s.keepGraph die (edges.filter (fun e => e.die == die))).detect (edges.filter (fun e => e.die == die)) (fun d => d == die) (fun v => v.1 == die))

/-- MODULE_DETECTOR_TICK: the edges of all dies. The tick comes every millisecond (R404), and so a restore's inventory that waits
for the partner counts its second by it (R378, R388: DEDUCED, log entry 26). -/
def execModuleDetectorTick (edges : List Edge) (s : State) : Out :=
  ok (s.detect edges (fun _ => true) (fun _ => true)).inventoryTick

/-! ## Heartbeat and management handover (R401, R443, R450) -/

/-- HEARTBEAT_TIMEOUT: HEARTBEAT_LOST, MODULE_FATAL. -/
def heartbeatTimeout (s : State) : State :=
  if s.pwr.railsOn then s.raise (60 + s.sec.active) 0x0304 { typ := 0x01, inst := s.sec.active } else s

def execHeartbeatTimeout (s : State) : Out := ok (heartbeatTimeout s)

/-- MGMT_HANDOVER: the active management die has failed. The standby takes over with the checkpointed state; an update whose
new image ran on the failed die reverts. With no standby the pair is lost. -/
def mgmtHandover (s : State) : State :=
  let a := s.sec.active
  let b := 1 - a
  if !s.pwr.railsOn then s
  else if (s.md b).running.isNone ∨ !(s.md b).inService then
    s.raise (60 + a) 0x0707 { typ := 0x01, inst := a }
  else
    let t := s.setMd a { s.md a with running := none }
    let t := ((({ t with sec := { t.sec with active := b, handover := true } }).setSvc (60 + a) 1).setSvc (60 + b) 2)
    let t := if t.sec.upd = .activated ∧ t.sec.target = a then t.revertUpdate else t
    t.raise (60 + b) 0x0706 { typ := 0x01, inst := b }

def execMgmtHandover (s : State) : Out := ok (mgmtHandover s)

/-! ## The remaining events -/

/-- REPLAY_MAX_EXCEEDED (R350, R386): recovery moves to the reset of the partition's die. -/
def replayMaxExceeded (sid : Nat) (s : State) : State :=
  if s.replayMax < (s.slot sid).replays ∧ s.slotUsed sid then s.beginReset (s.partitionDomain sid) else s

def execReplayMaxExceeded (sid : Nat) (s : State) : Out := onUnit (decide (sid < 60)) (replayMaxExceeded sid s)

/-- FABRIC_EDGE_DOWN (R398, R219). -/
def fabricEdgeDown (die edge : Nat) (s : State) : State :=
  if s.field die 0x10 0x060 (2 * edge + 1) (2 * edge) = 0 then s
  else (s.setEdge die edge 0).raise die 0x0509 { typ := 0x08, sub := edge }

def execFabricEdgeDown (die edge : Nat) (s : State) : Out :=
  onUnit (decide (die < 48 ∧ edge < 4)) (fabricEdgeDown die edge s)

/-- I3C_TRANSACTION_TIMEOUT (R294): the bus is released; no state of the module changes. -/
def execI3cTransactionTimeout (s : State) : Out := ok s

end Sys2Proof.Machine
end

