-- ==== Sys2Proof/Machine/Host.lean ====
section
/-!
DEFINITION. Pulls and pushes (R281 to R285, R290), the correction of input faults (R283), the initial state (R383),
acknowledgements and resending of events (R286), and sessions of the confidential host path (R288, R289).
-/

namespace Sys2Proof.Machine

/-! ## Entries (R281, R290) -/

/-- The header of an entry as its writer fills it in, with the hallmark over the plaintext. -/
def entryHeader (q : Nat) (st : Step) (id : Nat) (data : List Byte) : List Byte :=
  let h := leBytes 8 q ++ leBytes 8 (stepWord st).toNat ++ leBytes 4 id ++ leBytes 4 data.length
  h ++ leBytes 4 (crc32c (data ++ h)).toNat ++ zeros 4

def hdrSeq (h : List Byte) : Nat := natAt h 0 8
def hdrLen (h : List Byte) : Nat := natAt h 0x14 4
def hdrRev (h : List Byte) : Nat := natAt h 0x1C 4

/-- The hallmark of an entry covers its plaintext and header bytes 0x00-0x17. -/
def hallmarkOk (h plain : List Byte) : Bool := (crc32c (plain ++ bytesAt h 0 0x18)).toNat == natAt h 0x18 4

/-- The nonce of an entry. -/
def entryNonce (w rev q : Nat) : List Byte := leBytes 1 w ++ leBytes 3 rev ++ leBytes 8 q

/-- The plaintext of an entry's data as read, or none when its tag fails. -/
def State.entryPlain (s : State) (p : Pull) : Option (List Byte) :=
  if !s.sec.conf then some p.data
  else match s.ctl.session with
    | none => none
    | some k => gcmOpen (bytesAt k.entryKeys 0 32) (entryNonce p.win (hdrRev p.header) p.q) p.header p.data

/-- Bytes of data to read after a header: in confidential mode the tag follows. -/
def State.dataBytes (s : State) (h : List Byte) : Nat := hdrLen h + (if s.sec.conf then 16 else 0)

/-! ## Faults of pulls (R283) -/

/-- Where a link slot's control port stands in a record. -/
def portSite (sid op : Nat) (detail : Word) : Site :=
  { typ := 0x11, inst := sid - 54, op := op, eclass := 0x0F, detail := detail }

/-- INPUT_TIMEOUT, INPUT_MISMATCH, INPUT_CORRUPT or INPUT_OVERRUN: DEFERRED, with the event of the same name; the pull
waits for a correction. -/
def State.inputFault (s : State) (p : Pull) (code : Nat) : State :=
  let t := s.setPull { p with stage := .faulted, code := code }
  let t := t.raise p.sid code (portSite p.sid p.op (windowAddr p.win (s.entryOff p.win p.q)))
  t.event (0x0020 + (code - 0x0210)) p.win (stepWord p.step) (BitVec.ofNat 64 p.q)

/-- The initial set fails: a FAULT event will name the refusal code, and GENESIS is rejected until a good set is loaded
(R383). -/
def State.initFail (s : State) (p : Pull) (refusal : Nat) : State :=
  let t := s.dropPull p
  let t := { t with ldg := { t.ldg with initBad := true, initSet := [] } }
  t.raise p.sid 0x0211 (portSite p.sid 0xFFFFFF (BitVec.ofNat 64 refusal))

/-! ## The initial set (R383) -/

/-- The set is the manifest followed by its ingots in manifest order: where it ends, once enough of it is held. -/
def setEnd (b : List Byte) : Nat → Nat → Option Nat
  | 0, pos => some pos
  | n + 1, pos => if b.length < pos + 0x100 then none else setEnd b n (pos + ingotLen (b.drop pos))

def initEnd (b : List Byte) : Option Nat :=
  if b.length < 0x80 then none
  else match setEnd b (natAt b 7 1) (0x80 + 96 * natAt b 7 1) with
    | some e => if e ≤ b.length then some e else none
    | none => none

/-- The ingots of a set with the manifest entries that list them. -/
def setIngots (b : List Byte) : Nat → Nat → Nat → List (List Byte × List Byte)
  | 0, _, _ => []
  | n + 1, i, pos =>
    let g := b.drop pos
    (manifestEntry b i, g.take (ingotLen g)) :: setIngots b n (i + 1) (pos + ingotLen g)

/-- JOB_ID of the plan set that the next genesis will run: the shadow set, or the active set while a job is in the
ledger. -/
def State.initJob (s : State) : Word :=
  match s.usedSlots with
  | [] => 0
  | n :: _ => s.imgWord n (!s.jobIn) 0x08

/-- The refusal code of a set, if it fails (R379, R380). -/
def State.initRefusal (s : State) (b : List Byte) (gs : List (List Byte × List Byte)) : Option Nat :=
  let denied := s.ckpF 4 4 == 0
  if !manifestGood b then some 0x02
  else if natAt b 0x10 8 ≠ 2 ^ 64 - 1 then some 0x03
  else if natAt b 8 8 ≠ s.initJob.toNat then some 0x04
  else gs.findSome? (fun (g : List Byte × List Byte) =>
    if !headerMatches b g.1 g.2 then some 0x03
    else if natAt g.2 7 1 / 4 % 2 = 1 then some 0x07
    else if !ingotGood g.2 || !ingotHallmarks g.2 || !s.ingotSigned g.2 || ingotDigest g.2 != bytesAt g.1 0x18 64 then some 0x02
    else if natAt g.2 7 1 % 2 = 1 ∧ denied then some 0x06
    else none)

/-- Places one FROZEN entry at its tensor's planned address: its stored bytes follow the 64-byte digest. -/
def State.placeFrozen (s : State) (sid : Nat) (b e : List Byte) (sh : Bool) : State :=
  match (s.tensors sid sh).find? (fun t => t.id == natAt e 0 4 && t.mode == 2) with
  | none => s
  | some t =>
    let off := 0x100 + 64 * natAt b 0x30 4 + natAt e 0x20 8 + 64
    let u := s.writeLoc (s.tileLoc (s.slotDie sid) 0 t 0 0) (bytesAt b off t.bytes)
    forN t.tiles (fun i v => v.tileSeal (v.slotDie sid) 0 t 0 i (-1)) u

/-- Each slot's state goes to copy 1 and each frozen tensor to its planned address. -/
def State.placeInit (s : State) (gs : List (List Byte × List Byte)) (sh : Bool) : State :=
  forEach s.compSlots (fun n t =>
    match gs.find? (fun g => natAt g.1 0 8 == t.iw n sh 0x28 && natAt g.1 8 8 == t.iw n sh 0x30) with
    | none => t
    | some g => forEach (ingotDir g.2) (fun e u =>
        if natAt e 6 1 = 0 then u.placeEntry n (-1) 2 g.2 e sh else u.placeFrozen n g.2 e sh) t) s

/-- One more entry of the initial set is held: the set is complete and judged, or the next entry is pulled. -/
def State.initEntry (s : State) (p : Pull) (plain : List Byte) : State :=
  let b := s.ldg.initSet ++ plain
  match initEnd b with
  | none =>
    if plain.isEmpty then s.initFail p 0x01
    else
      let t := { s with ldg := { s.ldg with initSet := b } }
      (t.dropPull p).startPull { sid := p.sid, op := p.op, win := p.win, q := p.q + 1, init := true, step := p.step }
  | some _ =>
    let gs := setIngots b (natAt b 7 1) 0 (0x80 + 96 * natAt b 7 1)
    match s.initRefusal b gs with
    | some c => s.initFail p c
    | none =>
      let t := (s.dropPull p).placeInit gs (!s.jobIn)
      { t with ldg := { t.ldg with initBad := false, initSet := [] } }

/-- CKP_CTL.LOAD_INIT (R383). -/
def loadInit (p : Path) (win : Nat) (s : State) : State :=
  if p = .mgmt then s.reject 62 0x20 0x220 rejAccess
  else
    let x : Pull := { sid := 54, op := 0xFFFFFF, win := win % 32, q := 0, step := -1, init := true }
    let t := { s with
      ctl := { s.ctl with
        pulls := s.ctl.pulls.filter (fun y => !y.init), dma := s.ctl.dma.filter (fun d => d.op != 0xFFFFFF) },
      ldg := { s.ldg with initSet := [] } }
    if fld (s.winCfg x.win) 63 62 = 1 then t.startPull x else t.initFail x 0x01

def execLoadInit (p : Path) (win : Nat) (s : State) : Out := ok (loadInit p win s)

/-! ## Pulls (R282, R283) -/

/-- The op of a pull. -/
def State.pullOp (s : State) (p : Pull) : Op := s.opAt p.sid false p.op

/-- The op of a pull or push is running in the open step of its slot. -/
def State.pullLive (s : State) (p : Pull) : Bool :=
  !p.init && (s.slot p.sid).step == p.step && (s.opRun p.sid p.op).phase == .running && (s.slot p.sid).phase == .opened

/-- A pull's data is good: operand 0 and the crucible take it, and CTL_WIN_STAT its sequence number. For a pull that
recovers a crucible copy, the copy alone is written (R209, R284). -/
def State.pullDone (s : State) (p : Pull) (plain : List Byte) : State :=
  if p.init then s.initEntry p plain
  else
    let o := s.pullOp p
    let t := s.dropPull p
    let kept := t.retainedOf p.step p.op p.sid 0 (fun r => r.sid == inputHome p.sid o)
    match kept with
    | some r => t.stN r.off plain
    | none =>
      if !s.pullLive p then t
      else
        let t := t.putOut p.sid o 0 plain
        let t := if o.retain then t.retain (inputHome p.sid o) p.step p.op p.sid 0 plain none (t.operandMarks p.sid o 0) else t
        (t.wr 54 0x1E (0x110 + 24 * p.win) (BitVec.ofNat 64 p.q)).finish p.sid o 0

/-- Reads the next part of an entry's data: at most 64 KiB for each request. -/
def State.readData (s : State) (p : Pull) : State :=
  let n := s.dataBytes p.header
  (s.setPull p).readEntry p (32 + p.data.length) (Nat.min 65536 (n - p.data.length))

/-- The data has been read: its tag and hallmark are judged. A good entry's header is read again; the first failure reads
the data once more; after a second one the header shows whether the SEQ has changed. -/
def State.judgeData (s : State) (p : Pull) : State :=
  let good := match s.entryPlain p with
    | some d => hallmarkOk p.header d
    | none => false
  if good || p.second then (s.setPull { p with stage := .check }).readEntry p 0 32
  else s.readData { p with second := true, data := [] }

/-- An entry without data bytes is judged at once. -/
def State.beginData (s : State) (p : Pull) : State :=
  if s.dataBytes p.header = 0 then s.judgeData p else s.readData p

/-- The header that follows the data: unchanged, the entry is taken; changed, the data is read once more. -/
def State.judgeCheck (s : State) (p : Pull) (h : List Byte) : State :=
  let bad (t : State) (code refusal : Nat) : State := if p.init then t.initFail p refusal else t.inputFault p code
  if hdrSeq h ≠ p.q then
    (if p.second then bad s 0x0213 0x02 else s.beginData { p with stage := .data, second := true, data := [] })
  else match s.entryPlain p with
    | some d => if hallmarkOk p.header d then s.pullDone p d else bad s 0x0212 0x02
    | none => bad s 0x0212 0x02

/-- The header agrees with what the op expects (R283, R290). -/
def State.headerFits (s : State) (p : Pull) (h : List Byte) : Bool :=
  let o := s.pullOp p
  decide (hdrLen h + 48 ≤ s.entryBytes p.win) && (!s.sec.conf || decide (hdrRev h < 2 ^ 24))
    && (p.init || (natAt h 8 8 == (stepWord p.step).toNat && natAt h 0x10 4 == fld (o.pword 2) 63 32 && hdrLen h == o.bytes 0))

/-- TRIES of a pull's op; the pulls of the initial set read each header once. -/
def State.pullTries (s : State) (p : Pull) : Nat := if p.init then 1 else fld ((s.pullOp p).pword 3) 47 40

/-- The entry is not there yet: another read after the back-off, or INPUT_TIMEOUT after TRIES reads. -/
def State.notPresent (s : State) (p : Pull) : State :=
  if p.reads + 1 < s.pullTries p then s.setPull { p with reads := p.reads + 1, stage := .backoff }
  else if p.init then s.initFail p 0x01
  else s.inputFault { p with reads := p.reads + 1 } 0x0210

/-- A header read is judged (R283). -/
def State.judgeHeader (s : State) (p : Pull) (h : List Byte) : State :=
  if hdrSeq h < p.q then s.notPresent p
  else
    let p := { p with reads := p.reads + 1 }
    if hdrSeq h = p.q then
      (if s.headerFits p h then s.beginData { p with stage := .data, header := h, data := [] }
       else if p.init then s.initFail p 0x03 else s.inputFault p 0x0211)
    else if p.init then s.initFail p 0x01 else s.inputFault p 0x0213

/-- PULL: when the op starts, its first header read goes out. A replay reads the crucible copy of a retained input
(R335). -/
def pull (sid op : Nat) (s : State) : State :=
  match s.opOf sid op 0x0F 1 with
  | none => s
  | some o =>
    let (t, go) := s.begin' sid o
    if !go then t
    else
      let st := (t.slot sid).step
      let win := fld (o.pword 0) 63 59
      let q := o.p 1 + st.toNat * fld (o.pword 0) 31 0
      match (if o.retain then t.keptInput sid o else none) with
      | some r => (t.putOut sid o 0 (t.ldN r.off r.len)).finish sid o 0
      | none => t.startPull { sid := sid, op := op, win := win, q := q, step := st }

def execPull (sid op : Nat) (s : State) : Out := onUnit (decide (sid < 60)) (pull sid op s)

/-! ## Pushes (R284) -/

/-- The next part of a push's entry. -/
def State.writeEntry (s : State) (p : Pull) : State :=
  let n := Nat.min 65536 (p.data.length - p.reads)
  (s.setPull p).issueDma { tag := 0, port := .cpA, write := true, win := p.win, off := s.entryOff p.win p.q + p.reads, bytes := n,
                           data := bytesAt p.data p.reads n, sid := p.sid, op := p.op }

/-- The data of entry q as a push writes it: sealed under the module's entry key in confidential mode, with REV 0 (R290). -/
def State.pushBody (s : State) (sid : Nat) (o : Op) (win q : Nat) : List Byte :=
  let d := s.inBytes sid o 0
  match s.ctl.session with
  | some k =>
    if s.sec.conf then
      gcmSeal (bytesAt k.entryKeys 32 32) (entryNonce win 0 q) (entryHeader q (s.slot sid).step (fld (o.pword 2) 63 32) d) d
    else d
  | none => d

/-- A push waits, unstarted, while no session stands in confidential mode: there is then no entry key to seal under (R290). -/
def State.noEntryKey (s : State) : Bool := s.sec.conf && s.ctl.session.isNone

/-- PUSH: header and data of entry q. -/
def push (sid op : Nat) (s : State) : State :=
  match s.opOf sid op 0x0F 2 with
  | none => s
  | some o =>
    let (t, go) := if s.noEntryKey then (s, false) else s.begin' sid o
    if !go then t
    else
      let st := (t.slot sid).step
      let win := fld (o.pword 0) 63 59
      let q := o.p 1 + st.toNat * fld (o.pword 0) 31 0
      let h := entryHeader q st (fld (o.pword 2) 63 32) (t.inBytes sid o 0)
      let p : Pull := { sid := sid, op := op, win := win, q := q, step := st, stage := .writing, push := true,
                        data := h ++ t.pushBody sid o win q }
      let t := { t with ctl := { t.ctl with pulls := t.ctl.pulls.filter (fun (x : Pull) => !x.same p) ++ [p] } }
      t.writeEntry p

def execPush (sid op : Nat) (s : State) : Out := onUnit (decide (sid < 60)) (push sid op s)

/-! ## Answers (R285) -/

/-- The pull or push that a request belongs to. -/
def State.dmaPull (s : State) (d : Dma) : Option Pull :=
  s.ctl.pulls.find? (fun p => p.sid == d.sid && p.op == d.op && p.win == d.win && p.push == d.write
    && decide (s.entryOff p.win p.q ≤ d.off) && decide (d.off < s.entryOff p.win p.q + s.entryBytes p.win))

def State.dropDma (s : State) (tag : Nat) : State :=
  { s with ctl := { s.ctl with dma := s.ctl.dma.filter (fun d => d.tag != tag) } }

/-- DMA_READ_DATA: an answer whose tag or length matches no outstanding request is counted and dropped. -/
def dmaReadData (p : Path) (f : Frame) (s : State) : State :=
  match s.recv p f 6 with
  | (t, none) => t
  | (t, some g) =>
    match t.ctl.dma.find? (fun d => d.tag == g.tag && !d.write && d.bytes == g.data.length) with
    | none => t.countBad p
    | some d =>
      let u := t.dropDma d.tag
      match u.dmaPull d with
      | none => u
      | some x =>
        match x.stage with
        | .header => u.judgeHeader x g.data
        | .check => u.judgeCheck x g.data
        | .data =>
          let y := { x with data := x.data ++ g.data }
          if y.data.length < u.dataBytes y.header then u.readData y else u.judgeData y
        | _ => u

def execDmaReadData (p : Path) (f : Frame) (s : State) : Out := ok (dmaReadData p f s)

/-- DMA_WRITE_ACK: the next part of the entry follows; after the last one the push is done. -/
def dmaWriteAck (p : Path) (f : Frame) (s : State) : State :=
  match s.recv p f 8 with
  | (t, none) => t
  | (t, some g) =>
    match t.ctl.dma.find? (fun d => d.tag == g.tag && d.write) with
    | none => t.countBad p
    | some d =>
      let u := t.dropDma d.tag
      match u.dmaPull d with
      | none => u
      | some x =>
        let y := { x with reads := x.reads + d.bytes }
        if y.reads < y.data.length then u.writeEntry y
        else
          let v := (u.dropPull y).wr 54 0x1E (0x110 + 24 * y.win) (BitVec.ofNat 64 y.q)
          if u.pullLive y then v.finish y.sid (u.pullOp y) 0 else v

def execDmaWriteAck (p : Path) (f : Frame) (s : State) : Out := ok (dmaWriteAck p f s)

/-- PULL_BACKOFF_EXPIRY: the header is read again. -/
def pullBackoffExpiry (sid op : Nat) (s : State) : State :=
  match s.ctl.pulls.find? (fun p => p.sid == sid && p.op == op && p.stage == .backoff) with
  | none => s
  | some p => s.readHeader p

def execPullBackoffExpiry (sid op : Nat) (s : State) : Out := onUnit (decide (sid < 60)) (pullBackoffExpiry sid op s)

/-- Retries allowed for a request (CTL_CFG.DMA_RETRIES). -/
def State.dmaRetries (s : State) (d : Dma) : Nat := s.field (pathDie d.port) 0x1E 0x048 19 16

/-- DMA_TIMEOUT: DEFERRED, with its event; the pull stands still. -/
def State.dmaTimeout (s : State) (d : Dma) : State :=
  let a := windowAddr d.win d.off
  let t := s.dropDma d.tag
  match s.dmaPull d with
  | none => t
  | some p =>
    if p.init then t.initFail p 0x01
    else
      let t := t.setPull { p with stage := .faulted, code := 0x0214 }
      (t.raise d.sid 0x0214 (portSite d.sid d.op a)).event 0x0024 d.win (stepWord p.step) a

/-- Nothing can be sent: both control ports are down, or no session stands (R289, R297). -/
def State.hostCut (s : State) : Bool :=
  (!s.portUp 48 && !s.portUp 49) || (s.sec.conf && s.ctl.session.isNone)

/-- DMA_TMO_EXPIRY (R285, R289, R297): a missing answer is asked for again with the same tag, on the other port when its
own is not UP; a pull then starts again from its header. While nothing can be sent, a pull's schedule runs on and a push
waits. -/
def dmaTmoExpiry (tag : Nat) (s : State) : State :=
  match s.ctl.dma.find? (fun d => d.tag == tag) with
  | none => s
  | some d =>
    if s.hostCut then
      (if d.write then s
       else match s.dmaPull d with
        | none => s.dropDma tag
        | some p => (s.dropDma tag).notPresent p)
    else
      let want := s.dmaPath d.sid
      let moved := want != d.port
      if s.dmaRetries d ≤ d.tries then s.dmaTimeout d
      else
        let t := s.bump (pathDie want) 0x1E 0xC18
        if moved ∧ !d.write then
          match t.dmaPull d with
          | none => t.dropDma tag
          | some p => (t.dropDma tag).readHeader p
        else
          let e := { d with port := want, tries := d.tries + 1 }
          let l : List Dma := t.ctl.dma.map (fun (x : Dma) => if x.tag == tag then e else x)
          ({ t with ctl := { t.ctl with dma := l } }).sendDma e

def execDmaTmoExpiry (tag : Nat) (s : State) : Out := ok (dmaTmoExpiry tag s)

/-! ## Corrections (R283) -/

/-- A pull that ended in one of the four input faults. -/
def Pull.inputFaulted (p : Pull) (win : Nat) : Bool :=
  p.win == win && p.stage == .faulted && decide (0x0210 ≤ p.code) && decide (p.code ≤ 0x0213)

/-- CTL_PULL_FIX: each such pull on the window is tried once more from its first header read, under the same schedule. -/
def ctlPullFix (p : Path) (win : Nat) (s : State) : State :=
  if p = .mgmt then s.reject 54 0x1E 0x060 rejAccess
  else if 32 ≤ win then s.reject 54 0x1E 0x060 rejReserved
  else forEach (s.ctl.pulls.filter (fun (x : Pull) => x.inputFaulted win)) (fun x t =>
    t.readHeader { x with reads := 0, second := false, data := [], header := [], code := 0 }) s

def execCtlPullFix (p : Path) (win : Nat) (s : State) : Out := ok (ctlPullFix p win s)

/-- The record of an input fault of a pull. -/
def Pull.isRecord (p : Pull) (addr : Word) (r : FaultRec) : Bool :=
  r.isOpen && r.code == p.code && r.part == p.sid && r.detail == addr && r.cls == 2

/-- FIX_S_EXPIRY: without a correction the record is raised to PARTITION_FATAL of the link partition. -/
def fixSExpiry (win : Nat) (s : State) : State :=
  forEach (s.ctl.pulls.filter (fun (x : Pull) => x.inputFaulted win)) (fun x t =>
    let a := windowAddr x.win (t.entryOff x.win x.q)
    let up (r : FaultRec) : FaultRec := if x.isRecord a r then { r with cls := 3, escalated := true } else r
    let q := SMap.get (fun _ => []) t.flt.collectors x.sid
    let f := { t.flt with
      log := t.flt.log.map up, collectors := SMap.set (fun _ => []) t.flt.collectors x.sid (q.map up) }
    ({ t with flt := f }).partitionFatal x.sid) s

def execFixSExpiry (win : Nat) (s : State) : Out := ok (fixSExpiry win s)

/-! ## Events (R286, R297) -/

/-- Sends every unacknowledged event again. -/
def State.resendEvents (s : State) : State := forEach s.ctl.events (fun e t => t.sendEvent e) s

def execEventResendTimer (s : State) : Out := ok s.resendEvents

/-- EVENTS_LOST names the events replaced since the last one. -/
def State.reportLost (s : State) : State :=
  if s.ctl.lost = 0 then s
  else
    let n := s.ctl.lost
    ({ s with ctl := { s.ctl with lost := 0 } }).event 0x00FF 0 0 (BitVec.ofNat 64 n)

/-- EVENT_ACK: every event up to the named one is acknowledged. Events also go to the management port (R291); the module
keeps one queue of them, and an acknowledgement on either port counts (DESIGN CHOICE, log entry 19). -/
def eventAck (p : Path) (f : Frame) (s : State) : State :=
  match s.recv p f 0x0A with
  | (t, none) => t
  | (t, some g) =>
    let t := { t with ctl := { t.ctl with events := t.ctl.events.filter (fun e => decide (g.addr < e.seq)) } }
    let hi := Nat.max (t.rd 54 0x1E 0x058).toNat (Nat.min g.addr (t.ctl.nextEvt - 1))
    ((t.wr 54 0x1E 0x058 (BitVec.ofNat 64 hi)).wr 55 0x1E 0x058 (BitVec.ofNat 64 hi)).reportLost

def execEventAck (p : Path) (f : Frame) (s : State) : Out := ok (eventAck p f s)

/-! ## Sessions (R288, R289) -/

def sessionName : List Byte := ascii [0x46, 0x4C, 0x50, 0x2D, 0x43, 0x50, 0x2D, 0x53, 0x45, 0x53, 0x53, 0x49, 0x4F, 0x4E]

/-- The answer to KEY_EXCHANGE, and the session it starts. Rekeying keeps the entry keys. -/
def State.exchangeKeys (s : State) (p : Path) (f : Frame) : State :=
  let node := bytesAt f.data 0 56
  let priv := Config.ephemeralKey s.free
  let mod := x448Public priv
  let sig := edSign deviceKey [] (node ++ mod ++ bytesAt f.data 56 16)
  let k := shake256 136 (x448 priv node ++ sessionName ++ node ++ mod)
  let data := mod ++ sig
  let t := { s with free := s.free + 1 }
  let t := t.sendFrame p { typ := 0x0B, tag := f.tag, len := data.length, data := data }
  let fresh : Session := { keys := k.take 72, entryKeys := k.drop 72 }
  match t.ctl.session with
  | some o =>
    let n : Session := { keys := k.take 72, entryKeys := o.entryKeys, old := o.keys, oldRx := o.rx, oldUntil := f.time + 1000 }
    { t with ctl := { t.ctl with session := some n, exchange := none } }
  | none =>
    let u := ({ t with ctl := { t.ctl with session := some fresh, exchange := none, fails := [] } }).setCpStatus 1
    let v := u.resendEvents
    let v := forEach v.ctl.dma (fun d w => if d.write then w.dropDma d.tag else w.sendDma d) v
    forEach (v.ctl.pulls.filter (fun x => x.push && x.stage == .writing)) (fun x w =>
      w.writeEntry { x with reads := 0, data := x.data.take 32 ++ w.pushBody x.sid (w.pullOp x) x.win x.q }) v

/-- KEY_EXCHANGE: only in confidential mode; the node's key and nonce are 72 bytes, and AUX is 0. -/
def keyExchange (p : Path) (f : Frame) (s : State) : State :=
  match s.recv p f 0x0B with
  | (t, none) => t
  | (t, some g) =>
    if p = .mgmt ∨ p = .firmware then t
    else if !t.sec.conf then t.sendFrame p { typ := 0x0B, tag := g.tag, status := 5 }
    else if g.data.length ≠ 72 ∨ g.aux ≠ 0 ∨ g.addr ≠ 0 then t.sendFrame p { typ := 0x0B, tag := g.tag, status := 4 }
    else if !t.firmwareUp then { t with ctl := { t.ctl with exchange := some p } }
    else t.exchangeKeys p g

def execKeyExchange (p : Path) (f : Frame) (s : State) : Out := ok (keyExchange p f s)

/-- KEY_EXCHANGE_TIMEOUT: an exchange that has not completed within 100 ms counts a failure on its port. -/
def keyExchangeTimeout (s : State) : State :=
  match s.ctl.exchange with
  | none => s
  | some p => ({ s with ctl := { s.ctl with exchange := none } }).bump (pathDie p) 0x1E 0xC20

def execKeyExchangeTimeout (s : State) : Out := ok (keyExchangeTimeout s)

/-- FRAME_COUNTER_LIMIT: either counter has reached 2^32 without a rekey, and the session ends. -/
def frameCounterLimit (s : State) : State :=
  match s.ctl.session with
  | none => s
  | some k => if 2 ^ 32 ≤ k.rx.next ∨ 2 ^ 32 ≤ k.txc then s.endSession else s

def execFrameCounterLimit (s : State) : Out := ok (frameCounterLimit s)

end Sys2Proof.Machine
end

