-- ==== Sys2Proof/Machine/Security.lean ====
section
/-!
DEFINITION. The frames of the management port for attestation, firmware update and revocation, the installation frame,
the change of mode and its scrub (R443 to R456, R468).
-/

namespace Sys2Proof.Machine

/-- A frame of a type that only the management port carries (R446): on a control port the type is reserved, and the frame
is discarded and counted (R277). -/
def State.mgmtFrame (s : State) (p : Path) (f : Frame) (typ : Nat) : State × Option Frame :=
  match p with
  | .mgmt => s.recv .mgmt f typ
  | .firmware => (s, none)
  | _ => if f.typ = typ ∧ s.cpStatus p = 1 then ((s.bump (pathDie p) 0x1E 0xC00).countBad p, none) else (s, none)

/-- FW_RESP with a result code of R445. -/
def State.fwResp (s : State) (f : Frame) (code : Nat) (status : Nat := 0) : State :=
  s.sendFrame .mgmt { typ := 0x26, tag := f.tag, addr := f.addr, status := status, aux := code }

/-! ## Identity and reports (R447 to R451) -/

/-- CERT_REQ (R448). -/
def certReq (p : Path) (f : Frame) (s : State) : State :=
  match s.mgmtFrame p f 0x22 with
  | (t, none) => t
  | (t, some f) =>
    if certBad then t.sendFrame .mgmt { typ := 0x23, tag := f.tag, status := 1 }
    else t.sendFrame .mgmt
      { typ := 0x23, tag := f.tag, aux := 3, len := Config.certChain.length, data := Config.certChain }

def execCertReq (p : Path) (f : Frame) (s : State) : Out := ok (certReq p f s)

/-- A standby management die is in service and runs firmware. -/
def State.hasStandby (s : State) : Bool :=
  let b := s.md (1 - s.sec.active)
  b.inService && b.running.isSome && (s.md s.sec.active).running.isSome

/-- The running image's header of a management die, if it runs one. -/
def State.runningHeader (s : State) (die : Nat) : Option (List Byte) :=
  (s.md die).running.map (fun slot => s.imageHeader die slot)

/-- The partitions with an open PARTITION_FATAL record: their values [15:8] SLOT_KIND, [7:0] slot, in increasing value, and
how many partitions recover. -/
def State.recovering (s : State) : List Nat × Nat :=
  let open_ (r : FaultRec) : Bool := r.isOpen && r.cls == 3
  let parts := ((s.flt.log.filter open_ ++ s.flt.collectors.flatMap (fun e => e.2.filter open_)).map (fun r => r.part)).eraseDups
  let slots := (parts.filter (fun p => decide (p < 60))).map (fun p => slotKind p * 256 + slotNum p)
  (sortBy (fun a b => decide (a ≤ b)) slots, parts.length)

/-- ROM recovery: the active die runs the boot ROM only. -/
def State.romRecovery (s : State) : Bool := (s.md s.sec.active).running.isNone

/-- The STATE flags of a report (R450). -/
def State.reportState (s : State) : Nat :=
  flagBit (s.sec.upd != .idle) 0 + flagBit s.sec.handover 1 + flagBit (decide (0 < s.recovering.2)) 2 + flagBit s.sec.conf 3
    + flagBit s.sec.debugLocked 4 + flagBit s.ckp.narrowStep.isSome 5 + flagBit (!s.hasStandby) 6 + flagBit s.romRecovery 7

/-- The fields of a register that the control software may write: RW fields of registers that no other path is reserved. -/
def softMask (die blk off : Nat) : Nat :=
  match rowOf die blk off with
  | none => 0
  | some r =>
    if r.writer != .any then 0
    else r.fields.foldl (fun a f => if f.kind = .rw then a ||| maskBits f.hi f.lo else a) 0

/-- The global pages in increasing register address, by the active dies (R451, R480). -/
def globalPages : List (Nat × Nat × List Nat) :=
  let offs (lo n : Nat) : List Nat := (List.range n).map (fun i => lo + 8 * i)
  [(60, 0x00, offs 0x100 96), (60, 0x21, offs 0x040 120), (60, 0x22, offs 0x040 120), (60, 0x23, offs 0x040 120),
   (62, 0x20, offs 0x040 120)]

/-- CONFIG_DIGEST (R451). -/
def State.configDigest (s : State) : List Byte :=
  digest64 (globalPages.flatMap (fun g => g.2.2.flatMap (fun o =>
    leBytes 8 (if isSel g.1 g.2.1 o then 0 else (s.rd g.1 g.2.1 o).toNat &&& softMask g.1 g.2.1 o))))

/-- Bytes 0x000 to 0x1FF of a report (R449). -/
def State.reportBody (s : State) (nonce : List Byte) : List Byte :=
  let a := s.sec.active
  let h := (s.runningHeader a).getD (zeros 512)
  let act := s.plan.activeGen
  let planDig := if act = 0 then zeros 64 else (List.range 8).flatMap (fun i => leBytes 8 (s.rd 60 0 (0x140 + 8 * i)).toNat)
  let tgt := s.sec.target
  let st := s.imageHeader tgt (1 - (s.md tgt).pref)
  let staged := s.sec.upd == .staged
  let sealed := s.rd 62 0x20 0x078
  let (parts, n) := s.recovering
  ascii [0x46, 0x4C, 0x50, 0x41] ++ leBytes 2 1 ++ leBytes 2 s.reportState ++ leBytes 8 Config.serial.toNat ++ bytesAt nonce 0 32
    ++ leBytes 2 s.moduleId ++ leBytes 1 a ++ leBytes 1 (((s.md a).running).getD 0) ++ leBytes 4 Config.romVersion.toNat
    ++ leBytes 4 (imgVersion h) ++ leBytes 1 (imgSvn h) ++ leBytes 1 s.arbCount ++ leBytes 1 (imgKeySlot h)
    ++ leBytes 1 s.revokedSet ++ imgDigest h ++ s.configDigest ++ planDig ++ leBytes 4 act
    ++ leBytes 4 (if staged then imgVersion st else 0) ++ leBytes 8 (s.rd 62 0x20 0x070).toNat ++ leBytes 8 sealed.toNat
    ++ (if staged then imgDigest st else zeros 64) ++ leBytes 1 (Nat.min 255 n) ++ zeros 7
    ++ (List.range 16).flatMap (fun i => leBytes 2 (parts.getD i 0xFFFF))
    ++ leBytes 8 (match s.ckp.narrowStep with
        | some n => (stepWord n).toNat
        | none => 2 ^ 64 - 1)
    ++ (if s.hasStandby then ((s.runningHeader (1 - a)).map imgDigest).getD (zeros 64) else zeros 64) ++ zeros 56

/-- The signed report. -/
def State.report (s : State) (nonce : List Byte) : List Byte :=
  let b := s.reportBody nonce
  b ++ edSign deviceKey (ascii [0x46, 0x4C, 0x50, 0x2D, 0x41, 0x54, 0x54, 0x45, 0x53, 0x54]) b ++ zeros 14

/-- ATTEST_REQ (R449). -/
def attestReq (p : Path) (f : Frame) (s : State) : State :=
  match s.mgmtFrame p f 0x20 with
  | (t, none) => t
  | (t, some f) =>
    if f.data.length ≠ 32 then t.mgmtBad f 0x20
    else
      let r := t.report f.data
      t.sendFrame .mgmt { typ := 0x21, tag := f.tag, len := r.length, data := r }

def execAttestReq (p : Path) (f : Frame) (s : State) : Out := ok (attestReq p f s)

/-! ## Firmware update (R443, R444) -/

/-- SEC_UPD.ALLOW_RESET, treated as set in ROM recovery (R441). -/
def State.allowReset (s : State) : Bool := s.field 60 0x23 0x048 0 0 == 1 || s.romRecovery

def State.setUpd (s : State) (u : UpdPhase) : State := { s with sec := { s.sec with upd := u } }

/-- The slot an update writes: the uncommitted one of its target die. -/
def State.updSlot (s : State) : Nat := 1 - (s.md s.sec.target).pref

/-- FW_DATA: a chunk is written to flash while RECEIVING. -/
def fwData (p : Path) (f : Frame) (s : State) : State :=
  match s.mgmtFrame p f 0x24 with
  | (t, none) => t
  | (t, some f) =>
    if t.sec.upd ≠ .receiving then t.fwResp f 0 5
    else if 2 ^ 26 < f.addr + f.data.length then t.fwResp f 0 4
    else
      let m := t.md t.sec.target
      let fl := SMap.setRun (fun _ => 0) m.flash (t.updSlot * 2 ^ 27 + f.addr) f.data
      (t.setMd t.sec.target { m with flash := fl }).fwResp f 0

def execFwData (p : Path) (f : Frame) (s : State) : Out := ok (fwData p f s)

/-- A FW_CTL frame of an operation. -/
def State.fwCtl (s : State) (p : Path) (f : Frame) (op : Nat) : State × Option Frame :=
  if f.aux % 256 ≠ op then (s, none) else s.mgmtFrame p f 0x25

/-- FW_BEGIN: the target die's uncommitted slot is erased. -/
def fwBegin (p : Path) (f : Frame) (s : State) : State :=
  match s.fwCtl p f 1 with
  | (t, none) => t
  | (t, some f) =>
    if t.sec.upd ≠ .idle then t.fwResp f 8
    else if !t.hasStandby && !(t.allowReset && !t.jobIn) then t.fwResp f 9
    else
      let tgt := if t.hasStandby then 1 - t.sec.active else t.sec.active
      let t := { t with sec := { t.sec with target := tgt, upd := .receiving } }
      (t.eraseSlot tgt t.updSlot).fwResp f 0

def execFwBegin (p : Path) (f : Frame) (s : State) : Out := ok (fwBegin p f s)

/-- The state formats of two images fit both ways. -/
def formatsFit (a b : List Byte) : Bool :=
  decide (imgStateMin a ≤ imgStateFormat b) && decide (imgStateMin b ≤ imgStateFormat a)

/-- The result of the STAGE check: R440, then STATE_INCOMPATIBLE. -/
def State.stageCode (s : State) : Nat :=
  let c := s.slotCode s.sec.target s.updSlot
  if c ≠ 0 then c
  else match s.runningHeader s.sec.active with
    | none => 0
    | some h => if formatsFit h (s.imageHeader s.sec.target s.updSlot) then 0 else 7

/-- FW_STAGE. -/
def fwStage (p : Path) (f : Frame) (s : State) : State :=
  match s.fwCtl p f 2 with
  | (t, none) => t
  | (t, some f) =>
    if t.sec.upd ≠ .receiving then t.fwResp f 0 5
    else
      let c := t.stageCode
      let v := imgVersion (t.imageHeader t.sec.target t.updSlot)
      let t := t.fwResp f 0
      if c = 0 then (t.setUpd .staged).event 0x0050 v 0 0
      else ((t.eraseSlot t.sec.target t.updSlot).setUpd .idle).event 0x0051 v 0 (BitVec.ofNat 64 c)

def execFwStage (p : Path) (f : Frame) (s : State) : Out := ok (fwStage p f s)

/-- The two management dies change roles; `slot` is what the die that becomes standby runs. -/
def State.changeRoles (s : State) (slot : Nat) : State :=
  let a := s.sec.active
  let b := 1 - a
  let t := s.setMd a { s.md a with running := some slot }
  let t := ((({ t with sec := { t.sec with active := b } }).setSvc (60 + a) 6).setSvc (60 + b) 2)
  t.raise (60 + b) 0x0706 { typ := 0x01, inst := b }

/-- FW_ACTIVATE: orders 3 to 6 of R444, or a trial module reset. -/
def fwActivate (p : Path) (f : Frame) (s : State) : State :=
  match s.fwCtl p f 3 with
  | (t, none) => t
  | (t, some f) =>
    let tgt := t.sec.target
    if t.sec.upd ≠ .staged then t.fwResp f 0 5
    else if t.hasStandby && tgt != t.sec.active then
      let t := (t.fwResp f 0).setMd tgt { t.md tgt with running := some t.updSlot }
      ((t.countReset (.die (60 + tgt))).setUpd .activated).changeRoles (t.md t.sec.active).pref
    else if t.allowReset && !t.jobIn then
      ((t.fwResp f 0).setMd tgt { t.md tgt with trial := some t.updSlot }).beginReset .module
    else t.fwResp f 9

def execFwActivate (p : Path) (f : Frame) (s : State) : Out := ok (fwActivate p f s)

/-- Copies an image to another die's slot. -/
def State.copyImage (s : State) (a sa b sb : Nat) : State :=
  let t := s.eraseSlot b sb
  let m := t.md b
  let src := SMap.slice (s.md a).flash (sa * 2 ^ 27) ((sa + 1) * 2 ^ 27)
  t.setMd b { m with flash := src.foldl (fun x e => SMap.set (fun _ => 0) x (e.1 - sa * 2 ^ 27 + sb * 2 ^ 27) e.2) m.flash }

/-- FW_COMMIT: order 7 of R444. -/
def fwCommit (p : Path) (f : Frame) (s : State) : State :=
  match s.fwCtl p f 4 with
  | (t, none) => t
  | (t, some f) =>
    let a := t.sec.active
    let b := 1 - a
    let slot := t.updSlot
    if t.sec.upd ≠ .activated ∨ t.sec.target ≠ a ∨ (t.md a).running ≠ some slot then t.fwResp f 0 5
    else
      let v := imgVersion (t.imageHeader a slot)
      let t := t.fwResp f 0
      let t := if t.hasStandby then
          (let sb := 1 - (t.md b).pref
           let u := t.copyImage a slot b sb
           if u.slotCode b sb = 0 then (u.setMd b { u.md b with pref := sb, running := some sb }).countReset (.die (60 + b)) else u)
        else t
      let t := (t.setMd a { t.md a with pref := slot }).blowArb
      (t.setUpd .idle).event 0x0052 v 0 0

def execFwCommit (p : Path) (f : Frame) (s : State) : Out := ok (fwCommit p f s)

/-- FW_ABORT. -/
def fwAbort (p : Path) (f : Frame) (s : State) : State :=
  match s.fwCtl p f 5 with
  | (t, none) => t
  | (t, some f) =>
    if t.sec.upd = .receiving ∨ t.sec.upd = .staged then (t.fwResp f 0).revertUpdate
    else if t.sec.upd = .activated then
      (let t := t.fwResp f 0
       if t.hasStandby && t.sec.target == t.sec.active then
         (t.changeRoles (t.md t.sec.active).pref).revertUpdate
       else t.revertUpdate.beginReset .module)
    else t.fwResp f 0 5

def execFwAbort (p : Path) (f : Frame) (s : State) : Out := ok (fwAbort p f s)

/-! ## Revocation (R445) -/

/-- The public keys that the images in flash carry. -/
def State.knownKeys (s : State) : List (List Byte) :=
  [(0, 0), (0, 1), (1, 0), (1, 1)].map (fun x => bytesAt (s.imageHeader x.1 x.2) 0x80 57)

/-- The result code of a revocation of slot `k`. -/
def State.revokeCode (s : State) (k : Nat) (sig : List Byte) : Nat :=
  let msg := leBytes 8 Config.serial.toNat ++ leBytes 1 k ++ zeros 7
  let ctx := ascii [0x46, 0x4C, 0x50, 0x2D, 0x52, 0x45, 0x56, 0x4F, 0x4B, 0x45]
  let signed := s.knownKeys.any (fun pk =>
    [0, 1, 2].any (fun j => j != k && !s.keyRevoked j && digest64 pk == Config.rootKey j) && edVerify pk ctx msg sig)
  if 3 ≤ k ∨ sig.length ≠ 114 ∨ !signed then 11
  else if s.keyRevoked k then 11
  else if [0, 1, 2].all (fun j => j == k || s.keyRevoked j) then 10
  else if [0, 1].any (fun d => imgKeySlot (s.imageHeader d (s.md d).pref) == k) then 11
  else 0

/-- REVOKE. -/
def revoke (p : Path) (f : Frame) (s : State) : State :=
  match s.fwCtl p f 6 with
  | (t, none) => t
  | (t, some f) =>
    let k := f.aux / 256 % 256
    if t.sec.upd ≠ .idle then t.fwResp f 8
    else
      let c := t.revokeCode k f.data
      if c ≠ 0 then t.fwResp f c
      else (t.programFuses { t with sec := { t.sec with revoked := Nat.lor t.sec.revoked (2 ^ k) } }).fwResp f 0

def execRevoke (p : Path) (f : Frame) (s : State) : Out := ok (revoke p f s)

/-! ## Installation (R468) -/

/-- One cabling entry: peer module, peer port, CABLED. -/
def cableOf (b : List Byte) : Nat × Nat × Bool := (natAt b 0 2, natAt b 2 1, natAt b 3 1 % 2 == 1)

/-- The data of an INSTALL frame are well formed. -/
def installGood (d : List Byte) : Bool :=
  let mask := natAt d 2 6
  d.length == 200 && decide (natAt d 0 2 ≤ 0xFFFE)
    && decide (((List.range 48).filter (fun n => mask / 2 ^ n % 2 == 1)).length ≤ 8)
    && (List.range 48).all (fun p => let b := bytesAt d (8 + 4 * p) 4; decide (natAt b 2 1 < 48) && decide (natAt b 3 1 < 2))

/-- The installation section that the data of INSTALL spells (R468). -/
def installOf (d : List Byte) : Installation :=
  { present := true, module := natAt d 0 2, spares := (List.range 48).filter (fun n => natAt d 2 6 / 2 ^ n % 2 == 1),
    cables := (List.range 48).map (fun p => cableOf (bytesAt d (8 + 4 * p) 4)) }

/-- With fewer than 40 slots the start stands at order 10; enough slots release it (R468). -/
def State.restage (s : State) : State :=
  if s.slotPlan.length < 40 then ((s.setStage 10).setCpStatus 0).showPair .fault
  else if s.field 60 0 0x380 23 20 = 10 then
    (if s.flt.hold then s.setStage 9 else ((s.setStage 8).setCpStatus (if s.sec.conf then 2 else 1)).showPair .alive)
  else s

/-- The section is written, the ports take their new peers, and the spare mask is applied. -/
def State.installed (s : State) (i : Installation) : State :=
  let t := { s with stu := { s.stu with install := i } }
  let t := forN 48 (fun p u => brzDisable p u) t
  let t := (t.setField 60 0 0x380 63 48 i.module).assignSlots.restage
  t.applyCables (!t.flt.hold)

/-- INSTALL (R468). -/
def install (p : Path) (f : Frame) (s : State) : State :=
  match s.mgmtFrame p f 0x27 with
  | (t, none) => t
  | (t, some f) =>
    if !installGood f.data then t.respond .mgmt f 1 0
    else if t.jobIn then t.respond .mgmt f 5 0
    else (t.installed (installOf f.data)).respond .mgmt f 0 0

def execInstall (p : Path) (f : Frame) (s : State) : Out := ok (install p f s)

/-! ## Confidential mode (R452 to R454) -/

/-- SEC_CTL.APPLY: the reason for which it is rejected, if any. -/
def State.applyReject (s : State) (p : Path) : Option Nat :=
  if p = .mgmt then some rejAccess
  else if s.jobIn ∨ s.sec.upd ≠ .idle ∨ (s.field 60 0x23 0x040 0 0 == 1) = s.sec.conf then some rejState
  else none

/-- APPLY: the new mode and SCRUB_PENDING are recorded, and a module reset begins. -/
def apply (p : Path) (s : State) : State :=
  match s.applyReject p with
  | some r => s.reject 60 0x23 0x040 r
  | none => ({ s with sec := { s.sec with conf := !s.sec.conf, scrubPending := true } }).beginReset .module

def execApply (p : Path) (s : State) : Out := ok (apply p s)

/-- DEBUG_LOCK: sticky until module reset. -/
def debugLock (p : Path) (s : State) : State :=
  if p = .mgmt then s.reject 60 0x23 0x040 rejAccess
  else { s with sec := { s.sec with debugLocked := true } }

def execDebugLock (p : Path) (s : State) : Out := ok (debugLock p s)

/-- Order 2 of R453 for one stack: every byte zero, poison cleared, its ingot bays empty. -/
def State.zeroStack (s : State) (st : Nat) : State :=
  let t := s.setStack (SMap.clear s.mem.stack (st * stackBytes) ((st + 1) * stackBytes))
  { t with
    mem := { t.mem with poison := t.mem.poison.filter (fun g => g / (stackBytes / 256) != st) },
    ckp := { t.ckp with bays := SMap.clear t.ckp.bays (4 * st) (4 * st + 4) } }

/-- SCRUB_DONE: orders 2 to 5 of R453. -/
def scrubDone (s : State) : State :=
  if !s.sec.scrubbing then s
  else
    let t := forEach s.sec.toScrub (fun st u => u.zeroStack st) s
    let t := { t with
      units := { t.units with acc := [], obuf := [], dsm := [], dsmDirty := [], cores := [], strands := [], disputes := [] },
      sec := { t.sec with scrubbing := false, scrubPending := false, toScrub := [] } }
    if t.flt.hold then t.setStage 9 else t.openPorts

def execScrubDone (s : State) : Out := ok (scrubDone s)

/-- STACK_SCRUB_TIMEOUT: the stack leaves service as for a stack PHY (R411, R453). -/
def stackScrubTimeout (stack : Nat) (s : State) : State :=
  if !s.sec.scrubbing ∨ !s.sec.toScrub.contains stack then s
  else
    let t := { s with sec := { s.sec with toScrub := NSet.del s.sec.toScrub stack } }
    (t.raise stack 0x0312 { typ := 0x06 }).leaveService (.stackPhy stack)

def execStackScrubTimeout (stack : Nat) (s : State) : Out := onUnit (decide (stack < 48)) (stackScrubTimeout stack s)

end Sys2Proof.Machine
end

