-- ==== Sys2Proof/Machine/Control.lean ====
section
/-!
DEFINITION. REG_READ and REG_WRITE (R277, R278, R291, R478 to R500): what each register reads as, the acceptance of each
written register in turn, and the commands that registers carry.
-/

namespace Sys2Proof.Machine

/-! ## Where a register can be reached -/

/-- A stack base page reached through a block (R479): block 0x0F while PD.1 of its die is powered, the alternate views
while the stack's fabric port is UP. -/
def State.stackOut (s : State) (die blk : Nat) : Bool :=
  if blk = 0x0F then s.field die 0 0x048 1 1 != 1
  else if blk = 0x11 then s.field (die - 1) 0x0F 0x058 1 0 != 2
  else if blk = 0x12 then s.field (die + 1) 0x0F 0x058 1 0 != 2
  else false

/-- A management or ledger die's own offsets cannot be reached: it is off, fenced or in reset (R480, R485). -/
def State.ownGone (s : State) (die blk off : Nat) : Bool :=
  let svc := s.field die 0 0x040 3 0
  decide (60 ≤ die) && blk == 0 && (decide (62 ≤ die) || !globalOffset off)
    && (svc == 0 || svc == 4 || s.flt.resetting.any (fun d => d == .die die))

/-- A request for registers from `off` on is answered NO_DIE (R278, R479, R485). -/
def State.unreachable (s : State) (die blk off n : Nat) : Bool :=
  s.dieGone die || ((blockType die blk).isSome && s.stackOut die blk)
    || (List.range n).any (fun i => s.ownGone die blk (off + 8 * i))

/-! ## Windows: registers computed when they are read -/

/-- The active die that serves a page (R480, R482). -/
def State.servingDie (s : State) (die blk : Nat) : Nat :=
  if blk = 0x20 then 62 + s.ldg.active
  else if 0x21 ≤ blk ∧ blk ≤ 0x23 ∨ (blk = 0 ∧ (die = 60 ∨ die = 61)) then 60 + s.sec.active
  else die

/-- BLK_ID (R482); a stack base page has one identity in all its views. -/
def State.blkId (s : State) (die blk : Nat) : Nat :=
  let a := canonAddr die blk 0x040
  let d := if blk = 0x11 ∨ blk = 0x12 then addrDie a else s.servingDie die blk
  let b := if blk = 0x11 ∨ blk = 0x12 then 0x0F else blk
  inFld 29 24 d + inFld 23 16 ((blockType die blk).getD 0) + inFld 15 8 (blockInst d b) + inFld 7 0 b

/-- The reset domains that hold a page's block, smallest first (R407). -/
def pageDomains (die blk : Nat) : List Domain :=
  let own : List Domain :=
    if die < 48 ∧ 0x01 ≤ blk ∧ blk ≤ 0x0C then [.core (4 * die + (blk - 1) % 4)]
    else if die < 48 ∧ blk = 0x0F then [.stackPhy die]
    else if 48 ≤ die ∧ die < 56 ∧ 0x18 ≤ blk ∧ blk ≤ 0x1D then [.port (6 * (die - 48) + (blk - 0x18))]
    else []
  own ++ (if die < 48 ∨ 60 ≤ die then [.die die] else if die < 56 then [.linkDie die] else [.hub die]) ++ [.module]

/-- BLK_STAT.STATE: the state of the block's reset domain (R482). -/
def State.blkState (s : State) (die blk : Nat) : Nat :=
  let a := canonAddr die blk 0x040
  let d := if blk = 0x11 ∨ blk = 0x12 then addrDie a else s.servingDie die blk
  let b := if blk = 0x11 ∨ blk = 0x12 then 0x0F else blk
  let l := pageDomains d b
  if s.flt.resetting.any (fun x => l.contains x) then 1
  else if s.flt.fenced.contains d then 3
  else if s.flt.outOfService.any (fun x => l.contains x) || s.field d 0 0x040 3 0 == 5 then 4
  else if s.field d 0 0x040 3 0 = 0 then 0
  else 2

/-- BLK_ERRSUM: the newest record of the block, and the highest class of its open ones (R482). -/
def State.errSum (s : State) (die blk : Nat) : Nat :=
  let mine := s.flt.log.filter (fun r => let p := recBlock r; pageKey p.1 p.2 == pageKey die blk)
  let open_ := mine.filter (fun r => r.isOpen)
  match mine.getLast? with
  | none => 0
  | some r =>
    inFld 63 63 (if open_.isEmpty then 0 else 1) + inFld 58 56 (open_.foldl (fun a x => Nat.max a x.cls) 0)
      + inFld 47 32 r.code + inFld 23 0 r.seq

/-- The fault page's windows (R406, R492). -/
def State.faultWindow (s : State) (p : Path) (off : Nat) : Option Word :=
  if off = 0x068 then
    let newest := match s.flt.log.getLast? with
      | some r => r.seq
      | none => 0
    some (BitVec.ofNat 64 (inFld 63 40 newest + inFld 37 24 (s.flt.log.filter (fun r => r.isOpen)).length
      + inFld 16 16 (if s.flt.hold then 1 else 0) + inFld 13 0 s.flt.log.length))
  else if 0x078 ≤ off ∧ off < 0x0B8 then
    let q := fld (s.sel p 60 0x21 0x070) 23 0
    match s.flt.log.find? (fun r => r.seq == q) with
    | some r => some (wordAt r.bytes ((off - 0x078) / 8))
    | none => some 0
  else if off = 0x0C0 then some (BitVec.ofNat 64 (SMap.get (fun _ => 0) s.flt.counts (fld (s.sel p 60 0x21 0x0B8) 15 0)))
  else if off = 0x0D0 ∨ (0x100 ≤ off ∧ off < 0x200) then
    let w := s.sel p 60 0x21 0x0C8
    let hit := s.flt.snapshots.find? (fun x => x.num == fld w 7 0)
    let newest := match s.flt.snapshots.getLast? with
      | some x => x.num
      | none => 0
    let bytes := match hit with
      | some x => (Config.snapBytes x.draw).toNat
      | none => 0
    if off = 0x0D0 then
      some (BitVec.ofNat 64 (inFld 63 32 bytes + inFld 8 8 (if hit.isSome then 1 else 0) + inFld 7 0 newest))
    else
      let k := fld w 26 8 / 32 * 32 + (off - 0x100) / 8
      match hit with
      | some x => some (if 8 * k < bytes then Config.snapWord x.draw k else 0)
      | none => some 0
  else if 0xC00 ≤ off ∧ off < 0xE00 then some (BitVec.ofNat 64 (SMap.get (fun _ => 0) s.flt.dross ((off - 0xC00) / 8)))
  else none

/-- The ledger page's windows (R361, R363, R496). -/
def State.ledgerWindow (s : State) (p : Path) (off : Nat) : Option Word :=
  let r := s.stepRec (wordStep (s.sel p 62 0x20 0x058))
  if off = 0x060 then
    match r with
    | none => some 0
    | some x =>
      let busy := x.opened.filter (fun n => !x.computed.contains n && !x.replaying.contains n)
      let code := match x.phase with
        | .opened => 0
        | .computed => 1
        | .checked => 2
        | .sealed => 3
        | .released => 4
        | .replaying => 5
        | .deferred => 6
      some (BitVec.ofNat 64 (inFld 63 32 x.gen + inFld 31 24 x.replaying.length + inFld 23 16 busy.length + inFld 8 8 1 + code))
  else if off = 0x068 then some (if r.isSome then BitVec.ofNat 64 (Config.spanUs s.free).toNat else 0)
  else if 0x088 ≤ off ∧ off < 0x0A8 then
    (s.ldg.defers[fld (s.sel p 62 0x20 0x080) 13 0]?).map (fun d => wordAt (deferBytes d) ((off - 0x088) / 8))
  else none

/-- The key of the object that SYN_SEL selects on a die (R498). -/
def State.selObj (s : State) (p : Path) (die : Nat) : Nat :=
  let w := s.sel p die 0x24 0x040
  let obj := fld w 11 0
  die * 2 ^ 13 + (if fld w 18 16 = 1 then fld w 13 12 * 48 + obj else if fld w 18 16 = 2 then 256 + obj else 512 + obj % 512)

/-- The sync page's windows (R262, R266). -/
def State.syncWindow (s : State) (p : Path) (die off : Nat) : Option Word :=
  if off = 0x048 then some (s.objWord0 (s.selObj p die))
  else if off = 0x050 then some (s.objWord1 (s.selObj p die))
  else if off = 0x058 then
    let n := (s.syn.parked.filter (fun x => objDie x.obj == die)).length
    let kib := if 48 ≤ die ∧ die < 56 then cdiv (s.earlyBuf die) 1024 else 0
    some (BitVec.ofNat 64 (inFld 47 32 kib + inFld 12 0 n))
  else none

/-- SEC_STAT (R455). -/
def State.secStat (s : State) : Word :=
  let upd := match s.sec.upd with
    | .idle => 0
    | .receiving => 1
    | .staged => 2
    | .activated => 3
  let scrub := if s.sec.scrubbing then 1 else if s.sec.scrubPending then 2 else 0
  BitVec.ofNat 64 (inFld 26 24 s.revokedSet + inFld 22 16 s.arbCount + inFld 9 8 scrub + inFld 5 4 upd
    + inFld 1 1 (if s.sec.debugLocked || s.sec.conf then 1 else 0) + inFld 0 0 (if s.sec.conf then 1 else 0))

/-- The die control page's windows (R58, R491). PLN_OPEN_STEP shows 0 outside a job and, between genesis and the first
opening, genesis's own step -1, all ones: the spec does not say what it then shows (DESIGN CHOICE, log entry 18). -/
def State.dieWindow (s : State) (p : Path) (die off : Nat) : Option Word :=
  if off = 0x040 then
    let slot := match s.dieSlot die with
      | some sid => slotNum sid
      | none => 0x3F
    some (setFld (s.rd die 0 0x040) 13 8 slot)
  else if off = 0x108 ∧ 48 ≤ die ∧ die < 56 then some (s.route die ((s.sel p die 0 0x100).toNat % 2 ^ 16))
  else if off = 0x130 ∧ (die = 60 ∨ die = 61) then
    some (if s.ldg.newestOpened = -2 then 0 else stepWord s.ldg.newestOpened)
  else none

/-- A register that has no home of its own in the register map. -/
def State.window (s : State) (p : Path) (die blk ty off : Nat) : Option Word :=
  if off = 0x000 then some (BitVec.ofNat 64 (s.blkId die blk))
  else if off = 0x008 then
    some (BitVec.ofNat 64 (inFld 31 16 (Config.dieRevision (s.servingDie die blk)).toNat + 1))
  else if off = 0x010 then some (setFld (s.rd die blk 0x010) 3 0 (s.blkState die blk))
  else if off = 0x020 then some (BitVec.ofNat 64 (s.errSum die blk))
  else if ty = 0x01 then s.dieWindow p die off
  else if ty = 0x07 ∧ (off = 0x040 ∨ off = 0x840) then
    let w := s.rd die blk off
    some (setFld w 5 0 (48 - fld w 19 16 - fld w 28 24))
  else if ty = 0x03 ∧ off = 0x090 then
    let core := 4 * die + (blk - 0x05)
    some (setFld (s.rd die blk off) 16 16 (if s.forceDual core || decide (0 < s.retiredChecks core) then 1 else 0))
  else if ty = 0x20 then s.ledgerWindow p off
  else if ty = 0x21 then s.faultWindow p off
  else if ty = 0x22 ∧ 0x068 ≤ off ∧ off < 0x088 then some (BitVec.ofNat 64 (inFld 3 0 (s.admitted ((off - 0x068) / 8))))
  else if ty = 0x23 ∧ off = 0x050 then some s.secStat
  else if ty = 0x24 then s.syncWindow p die off
  else none

/-- The WO fields of a row, which read as zero. -/
def woMask (r : RegRow) : Nat := r.fields.foldl (fun a f => if f.kind = .wo then Nat.lor a (maskBits f.hi f.lo) else a) 0

/-- Debug access is locked: counters and telemetry of the work-bearing pages read as zero (R454). -/
def State.telemetryHidden (s : State) (ty off : Nat) : Bool :=
  (s.sec.debugLocked || s.sec.conf) && decide (0xC00 ≤ off) && decide (0x02 ≤ ty) && decide (ty ≤ 0x08)

/-- What a register reads as on a path: reserved areas, unused shadow copies and WO fields read as zero (R481, R483,
R486). -/
def State.readReg (s : State) (p : Path) (die blk off : Nat) : Word :=
  let ty := (blockType die blk).getD 0
  match rowOf die blk off with
  | none => 0
  | some r =>
    if 0x800 ≤ off ∧ off < 0xC00 ∧ !r.swapped then 0
    else if s.telemetryHidden ty off then 0
    else match s.window p die blk ty off with
      | some w => w
      | none =>
        let w := if isSel die blk off then s.sel p die blk off else s.rd die blk off
        BitVec.ofNat 64 (w.toNat &&& (2 ^ 64 - 1 - woMask r))

/-! ## REG_READ -/

/-- A request's address and COUNT fields break R277 or R478. -/
def addrBad (f : Frame) : Bool :=
  decide (2 ^ 26 ≤ f.addr) || f.addr % 8 != 0 || f.aux == 0 || decide (64 < f.aux) || decide (0x1000 < addrOff f.addr + 8 * f.aux)

/-- In confidential mode the management port reads the fault, power and security pages only (R291). -/
def State.readDenied (s : State) (p : Path) (blk : Nat) : Bool :=
  p == .mgmt && s.sec.conf && !(decide (0x21 ≤ blk) && decide (blk ≤ 0x23))

/-- REG_READ (R277, R278, R291, R479). -/
def regRead (p : Path) (f : Frame) (s : State) : State :=
  match s.recv p f 1 with
  | (t, none) => t
  | (t, some g) =>
    let die := addrDie g.addr
    let blk := addrBlk g.addr
    let off := addrOff g.addr
    if addrBad g ∨ g.len ≠ 0 then t.respond p g 4 0
    else if t.unreachable die blk off g.aux then t.respond p g 3 0
    else if t.readDenied p blk then t.respond p g 2 0 (zeros (8 * g.aux))
    else if (blockType die blk).isNone then t.respond p g 1 0 (zeros (8 * g.aux))
    else
      let d := (List.range g.aux).flatMap (fun i => leBytes 8 (t.readReg p die blk (off + 8 * i)).toNat)
      ({ t with free := t.free + 1 }).respond p g 0 0 d

def execRegRead (p : Path) (f : Frame) (s : State) : Out := ok (regRead p f s)

/-! ## REG_WRITE -/

/-- How one register of a REG_WRITE went: the state after it, whether it was rejected, and whether for its path. -/
structure Wrote where
  st : State
  rej : Bool := false
  path : Bool := false

/-- Runs a command that a register carries. The command records its own rejection on the page it belongs to; it is
recorded where the register was addressed. -/
def State.viaReg (s : State) (home : Nat × Nat) (die blk off : Nat) (act : State → State) : Wrote :=
  let w := s.rd home.1 home.2 0x010
  let t := act (s.setField home.1 home.2 0x010 48 16 0)
  let a := t.rd home.1 home.2 0x010
  let hit := bitAt a 48 && fld a 47 36 != 0x038
  let old := setFld w 5 0 (fld a 5 0)
  if hit then { st := (t.wr home.1 home.2 0x010 old).reject die blk off (fld a 35 32), rej := true }
  else if bitAt a 48 then { st := t }
  else { st := t.wr home.1 home.2 0x010 old }

/-- A register whose write carries a command, with the page on which the command reports: LDG_CTL, CKP_CTL and their like.
None for a register that only holds a value. -/
def State.regCommand (s : State) (p : Path) (die ty off : Nat) (v : Word) : Option ((Nat × Nat) × (State → State)) :=
  let none' : State → State := fun t => t
  if ty = 0x01 ∧ (die = 60 ∨ die = 61) ∧ off = 0x118 then
    some ((60, 0), if bitAt v 0 && bitAt v 1 then fun t => t.reject 60 0 0x118 rejRelation
      else if bitAt v 0 then swapReq else if bitAt v 1 then fun t => t.cancelSwap 2 else none')
  else if ty = 0x01 ∧ (die = 60 ∨ die = 61) ∧ off = 0x138 then
    let n := fld v 32 32 + fld v 33 33 + fld v 34 34
    some ((60, 0), if 1 < n then fun t => t.reject 60 0 0x138 rejRelation
      else if bitAt v 32 then plnLoadBegin (fld v 31 0) else if bitAt v 33 then plnLoadCommit
      else if bitAt v 34 then plnLoadDiscard else none')
  else if ty = 0x01 ∧ (die = 60 ∨ die = 61) ∧ off = 0x390 then some ((60, 0), stuLoopStart p v)
  else if ty = 0x01 ∧ 48 ≤ die ∧ die < 56 ∧ off = 0x108 then some ((die, 0), routeWrite p die v)
  else if ty = 0x05 ∧ off = 0x040 then some ((die, 0x0D), engSvcWrite p die v)
  else if ty = 0x11 ∧ off = 0x060 then some ((54, 0x1E), ctlPullFix p (fld v 63 0))
  else if ty = 0x12 ∧ off = 0x050 then
    some ((die, 0x1F), if bitAt v 0 then cxlRetrain p (die - 56) else none')
  else if (ty = 0x20 ∧ off = 0x050) ∨ (ty = 0x21 ∧ off = 0x0D8) then
    let page : Nat × Nat := if p = .mgmt then (60, 0x21) else (62, 0x20)
    let n := fld v 0 0 + fld v 1 1 + fld v 2 2
    some (page, if 1 < n then fun t => t.ctlReject p rejRelation
      else if bitAt v 0 then genesisWrite p else if bitAt v 1 then endJob p else if bitAt v 2 then replayJob p else none')
  else if ty = 0x20 ∧ 0x088 ≤ off ∧ off < 0x0A0 then
    if s.jobIn then some ((62, 0x20), fun t => t.ldgReject off rejState) else none
  else if ty = 0x20 ∧ off = 0x0A0 then some ((62, 0x20), ldgDeferStore p v)
  else if ty = 0x20 ∧ off = 0x220 then
    some ((62, 0x20), fun t =>
      let u := if bitAt v 0 then loadInit p (fld v 12 8) t else t
      if bitAt v 1 then restoreWrite u else u)
  else if ty = 0x21 ∧ off = 0x050 then some ((60, 0x21), fltClaim p (fld v 63 0))
  else if ty = 0x21 ∧ off = 0x058 then some ((60, 0x21), fltDone p (fld v 63 0))
  else if ty = 0x21 ∧ off = 0x060 then some ((60, 0x21), if bitAt v 0 then fltRelease p else none')
  else if ty = 0x21 ∧ off = 0x0E8 then some ((60, 0x21), fltAryRel p v)
  else if ty = 0x22 ∧ off = 0x098 then
    some ((60, 0x22), if bitAt v 0 && bitAt v 1 then fun t => t.reject 60 0x22 0x098 rejRelation
      else if bitAt v 0 then sleepReq else if bitAt v 1 then fun t => t.wakeModule else none')
  else none

/-- A write of BRZ_CFG acts at once: on ENABLE and on LOOP when they change (R234, R240), and on LANE_EN and MIN_WIDTH through
the width they leave (R232, R243). -/
def State.brzEdge (s : State) (die blk : Nat) (old v : Word) : State :=
  let p := 6 * (die - 48) + (blk - 0x18)
  if bitAt v 16 && !bitAt old 16 then brzEnable p s
  else if bitAt old 16 && !bitAt v 16 then brzDisable p s
  else s.healthChanged p

/-- The "first op" register of a flags register: its VALID bit clears when the flags become zero (R126, R162). -/
def firstReg (ty off : Nat) : Option Nat :=
  if ty = 0x02 ∧ off = 0x048 then some 0x050
  else if ty = 0x04 ∧ off = 0x040 then some 0x048
  else if ty = 0x05 ∧ off = 0x048 then some 0x050
  else none

/-- Clears VALID of the "first op" register beside a flags register that has become zero. -/
def State.flagsCleared (s : State) (die blk ty off : Nat) : State :=
  match firstReg ty off with
  | none => s
  | some first => if s.rd die blk off = 0 then s.setField die blk first 63 63 0 else s

/-- What a written register sets going beside its new value: a Braze port's configuration (R234, R243), the array map (R128),
the fabric port of a stack (R217), and flags that have become zero (R126). -/
def State.afterWrite (s : State) (die blk ty off : Nat) (old v : Word) : State :=
  if ty = 0x10 ∧ off = 0x040 then s.brzEdge die blk old v
  else if ty = 0x03 ∧ off = 0x078 then s.mapWritten (4 * die + (blk - 0x05)) old v
  else if ty = 0x07 ∧ off = 0x058 then s.trainStack (if blk = 0x0F then die else addrDie (canonAddr die blk off))
  else s.flagsCleared die blk ty off

/-- BLK_STAT: clearing REJ_VALID clears the other fields of the rejection (R482). -/
def State.clearRej (s : State) (die blk : Nat) (v : Word) : State :=
  if bitAt v 48 then s.setField die blk 0x010 48 16 0 else s

/-- SEC_CTL (R452, R454, R495): CONF_NEXT is stored, then DEBUG_LOCK and APPLY act. -/
def State.secCtl (s : State) (p : Path) (v : Word) : Wrote :=
  let t := s.setField 60 0x23 0x040 0 0 (fld v 0 0)
  let w := if bitAt v 4 then t.viaReg (60, 0x23) 60 0x23 0x040 (apply p) else { st := t }
  if w.rej then { w with st := w.st.setField 60 0x23 0x040 0 0 (s.field 60 0x23 0x040 0 0) }
  else if bitAt v 8 then { w with st := debugLock p w.st }
  else w

/-- One register of a REG_WRITE: checked, and applied when no check fails (R278, R485). -/
def State.writeReg (s : State) (p : Path) (die blk off : Nat) (v : Word) : Wrote :=
  let ty := (blockType die blk).getD 0
  match s.checkWrite p die blk off v with
  | some reason =>
    let forPath := match rowOf die blk off with
      | some r => accessBad p blk r (decide (0x800 ≤ off ∧ off < 0xC00))
      | none => p == .mgmt && !(decide (blk = 0x21) || decide (blk = 0x22))
    let t := if ty = 0x05 ∧ off = 0x040 then engSvcWrite p die v s else s.reject die blk off reason
    { st := t, rej := true, path := forPath }
  | none =>
    if off = 0x010 then { st := s.clearRej die blk v }
    else if off = 0x018 then
      let (t, bad) := s.blkCtl die blk v
      { st := t, rej := bad }
    else if ty = 0x23 ∧ off = 0x040 then s.secCtl p v
    else match s.regCommand p die ty off v with
      | some (home, act) => s.viaReg home die blk off act
      | none =>
        match rowOf die blk off with
        | none => { st := s }
        | some r =>
          if isSel die blk off then
            let a := canonAddr die blk off + pathNum p * 2 ^ 26
            { st := s.setReg a (written r (s.reg a) v) }
          else
            let old := s.rd die blk off
            let new := written r old v
            if r.writer == .split && decide (off < 0x800) then { st := s.fwXlat ((off - 0x200) / 8) new }
            else { st := (s.wr die blk off new).afterWrite die blk ty off old new }

/-- The registers of a REG_WRITE in increasing address order: the state, the bitmap of rejected registers, and whether one
was rejected for the path. -/
def State.writeRegs (s : State) (p : Path) (die blk off : Nat) : List Word → Nat → Nat → Bool → State × Nat × Bool
  | [], _, bits, na => (s, bits, na)
  | v :: vs, i, bits, na =>
    let w := s.writeReg p die blk (off + 8 * i) v
    w.st.writeRegs p die blk off vs (i + 1) (if w.rej then bits + 2 ^ i else bits) (na || (w.rej && w.path))

/-- REG_WRITE (R277, R278, R291, R479, R484, R485). -/
def regWrite (p : Path) (f : Frame) (s : State) : State :=
  match s.recv p f 2 with
  | (t, none) => t
  | (t, some g) =>
    let die := addrDie g.addr
    let blk := addrBlk g.addr
    let off := addrOff g.addr
    let all := 2 ^ g.aux - 1
    if addrBad g ∨ g.len ≠ 8 * g.aux then t.respond p g 4 0
    else if t.unreachable die blk off g.aux then t.respond p g 3 all
    else if (blockType die blk).isNone then t.respond p g 1 all
    else
      let vs := (List.range g.aux).map (fun i => wordAt g.data i)
      let (u, bits, na) := t.writeRegs p die blk off vs 0 0 false
      u.respond p g (if na then 2 else if bits = 0 then 0 else 1) bits

def execRegWrite (p : Path) (f : Frame) (s : State) : Out := ok (regWrite p f s)

end Sys2Proof.Machine
end

