-- ==== Sys2Proof/Machine/Dispatch.lean ====
section
/-!
DEFINITION. The dispatch of every command to its meaning.
-/

namespace Sys2Proof.Machine

/-- The effect of a command on everything but the queue. -/
def exec (i : Instr) (s : State) : Host.Outcome State Fault Refusal :=
  match i with
  | .regRead p f => Sys2Proof.Machine.execRegRead p f s
  | .regWrite p f => Sys2Proof.Machine.execRegWrite p f s
  | .planData p f => Sys2Proof.Machine.execPlanData p f s
  | .routeImageApply => Sys2Proof.Machine.execRouteImageApply s
  | .plnLoadBegin p gen => Sys2Proof.Machine.execPlnLoadBegin p gen s
  | .plnLoadCommit p => Sys2Proof.Machine.execPlnLoadCommit p s
  | .plnLoadDiscard p => Sys2Proof.Machine.execPlnLoadDiscard p s
  | .swapReq p => Sys2Proof.Machine.execSwapReq p s
  | .swapCancel p => Sys2Proof.Machine.execSwapCancel p s
  | .swapTimeout => Sys2Proof.Machine.execSwapTimeout s
  | .stepOpen sid => Sys2Proof.Machine.execStepOpen sid s
  | .binChange die => Sys2Proof.Machine.execBinChange die s
  | .product sid op => Sys2Proof.Machine.execProduct sid op s
  | .kFold sid op => Sys2Proof.Machine.execKFold sid op s
  | .accWrite sid op => Sys2Proof.Machine.execAccWrite sid op s
  | .chunk sid op row colTile upset c => Sys2Proof.Machine.execChunk sid op row colTile upset c s
  | .assay core upset c => Sys2Proof.Machine.execAssay core upset c s
  | .secondAssay core upset c => Sys2Proof.Machine.execSecondAssay core upset c s
  | .touchstoneRun core array index upset c => Sys2Proof.Machine.execTouchstoneRun core array index upset c s
  | .contextSave core => Sys2Proof.Machine.execContextSave core s
  | .contextRestore core => Sys2Proof.Machine.execContextRestore core s
  | .idleTaper core => Sys2Proof.Machine.execIdleTaper core s
  | .grantWindow quadrant => Sys2Proof.Machine.execGrantWindow quadrant s
  | .map sid op => Sys2Proof.Machine.execMap sid op s
  | .rowMax sid op => Sys2Proof.Machine.execRowMax sid op s
  | .rowMin sid op => Sys2Proof.Machine.execRowMin sid op s
  | .kFoldVector sid op => Sys2Proof.Machine.execKFoldVector sid op s
  | .tileRowComplete sid op group disagree => Sys2Proof.Machine.execTileRowComplete sid op group disagree s
  | .add core n d a b => Sys2Proof.Machine.execAdd core n d a b s
  | .sub core n d a b => Sys2Proof.Machine.execSub core n d a b s
  | .mul core n d a b => Sys2Proof.Machine.execMul core n d a b s
  | .fma core n d a b c => Sys2Proof.Machine.execFma core n d a b c s
  | .div core n d a b => Sys2Proof.Machine.execDiv core n d a b s
  | .sqrt core n d a => Sys2Proof.Machine.execSqrt core n d a s
  | .rsqrt core n d a => Sys2Proof.Machine.execRsqrt core n d a s
  | .neg core n d a => Sys2Proof.Machine.execNeg core n d a s
  | .abs core n d a => Sys2Proof.Machine.execAbs core n d a s
  | .max core n d a b => Sys2Proof.Machine.execMax core n d a b s
  | .min core n d a b => Sys2Proof.Machine.execMin core n d a b s
  | .cmplt core n d a b => Sys2Proof.Machine.execCmplt core n d a b s
  | .cmple core n d a b => Sys2Proof.Machine.execCmple core n d a b s
  | .cmpeq core n d a b => Sys2Proof.Machine.execCmpeq core n d a b s
  | .select core n d a b c => Sys2Proof.Machine.execSelect core n d a b c s
  | .exp core n d a => Sys2Proof.Machine.execExp core n d a s
  | .expm1 core n d a => Sys2Proof.Machine.execExpm1 core n d a s
  | .log core n d a => Sys2Proof.Machine.execLog core n d a s
  | .log1p core n d a => Sys2Proof.Machine.execLog1p core n d a s
  | .tanh core n d a => Sys2Proof.Machine.execTanh core n d a s
  | .sigmoid core n d a => Sys2Proof.Machine.execSigmoid core n d a s
  | .erf core n d a => Sys2Proof.Machine.execErf core n d a s
  | .gelu core n d a => Sys2Proof.Machine.execGelu core n d a s
  | .rand core n d seq => Sys2Proof.Machine.execRand core n d seq s
  | .mov core n d a => Sys2Proof.Machine.execMov core n d a s
  | .sum sid op => Sys2Proof.Machine.execSum sid op s
  | .sumsq sid op => Sys2Proof.Machine.execSumsq sid op s
  | .dot sid op => Sys2Proof.Machine.execDot sid op s
  | .meanvar sid op => Sys2Proof.Machine.execMeanvar sid op s
  | .mvCombine sid op => Sys2Proof.Machine.execMvCombine sid op s
  | .smaxBwd sid op => Sys2Proof.Machine.execSmaxBwd sid op s
  | .normFwd sid op => Sys2Proof.Machine.execNormFwd sid op s
  | .normBwd sid op => Sys2Proof.Machine.execNormBwd sid op s
  | .maxIdx sid op => Sys2Proof.Machine.execMaxIdx sid op s
  | .minIdx sid op => Sys2Proof.Machine.execMinIdx sid op s
  | .copy sid op => Sys2Proof.Machine.execCopy sid op s
  | .zero sid op => Sys2Proof.Machine.execZero sid op s
  | .gather sid op => Sys2Proof.Machine.execGather sid op s
  | .scatter sid op => Sys2Proof.Machine.execScatter sid op s
  | .scatterAdd sid op => Sys2Proof.Machine.execScatterAdd sid op s
  | .swage sid op => Sys2Proof.Machine.execSwage sid op s
  | .transpose sid op => Sys2Proof.Machine.execTranspose sid op s
  | .shake sid op => Sys2Proof.Machine.execShake sid op s
  | .crc sid op => Sys2Proof.Machine.execCrc sid op s
  | .verify sid op => Sys2Proof.Machine.execVerify sid op s
  | .sort sid op => Sys2Proof.Machine.execSort sid op s
  | .merge sid op => Sys2Proof.Machine.execMerge sid op s
  | .reduce sid op => Sys2Proof.Machine.execReduce sid op s
  | .broadcast sid op => Sys2Proof.Machine.execBroadcast sid op s
  | .nodeAdd sid op => Sys2Proof.Machine.execNodeAdd sid op s
  | .put sid op => Sys2Proof.Machine.execPut sid op s
  | .get sid op => Sys2Proof.Machine.execGet sid op s
  | .reslice sid op => Sys2Proof.Machine.execReslice sid op s
  | .farRead sid op => Sys2Proof.Machine.execFarRead sid op s
  | .farWrite sid op => Sys2Proof.Machine.execFarWrite sid op s
  | .sync sid op => Sys2Proof.Machine.execSync sid op s
  | .waitDeclared sid op => Sys2Proof.Machine.execWaitDeclared sid op s
  | .pull sid op => Sys2Proof.Machine.execPull sid op s
  | .push sid op => Sys2Proof.Machine.execPush sid op s
  | .stepEndAudit sid op => Sys2Proof.Machine.execStepEndAudit sid op s
  | .opComplete sid op => Sys2Proof.Machine.execOpComplete sid op s
  | .budgetOverrun sid op => Sys2Proof.Machine.execBudgetOverrun sid op s
  | .engineItemComplete sid op item engine disagree => Sys2Proof.Machine.execEngineItemComplete sid op item engine disagree s
  | .engSvcWrite p die v => Sys2Proof.Machine.execEngSvcWrite p die v s
  | .hallmarkReread sid op operand tile second => Sys2Proof.Machine.execHallmarkReread sid op operand tile second s
  | .verifyRead stack page rowSel symbol => Sys2Proof.Machine.execVerifyRead stack page rowSel symbol s
  | .pageCopyDone stack page => Sys2Proof.Machine.execPageCopyDone stack page s
  | .burnishRead addr symbol uncorrectable => Sys2Proof.Machine.execBurnishRead addr symbol uncorrectable s
  | .guardCopy stack block => Sys2Proof.Machine.execGuardCopy stack block s
  | .selfRefreshEntry stack => Sys2Proof.Machine.execSelfRefreshEntry stack s
  | .selfRefreshWake stack => Sys2Proof.Machine.execSelfRefreshWake stack s
  | .cxlRequestTimeout xp => Sys2Proof.Machine.execCxlRequestTimeout xp s
  | .cxlLinkDown xp => Sys2Proof.Machine.execCxlLinkDown xp s
  | .cxlRetrain p xp => Sys2Proof.Machine.execCxlRetrain p xp s
  | .tier0CopyDone sid => Sys2Proof.Machine.execTier0CopyDone sid s
  | .migrationDone sid => Sys2Proof.Machine.execMigrationDone sid s
  | .spareSubstitution sid => Sys2Proof.Machine.execSpareSubstitution sid s
  | .restore p => Sys2Proof.Machine.execRestore p s
  | .loadInit p win => Sys2Proof.Machine.execLoadInit p win s
  | .restorePlacementDone => Sys2Proof.Machine.execRestorePlacementDone s
  | .write die m => Sys2Proof.Machine.execWrite die m s
  | .fetch die m => Sys2Proof.Machine.execFetch die m s
  | .fetchData die m => Sys2Proof.Machine.execFetchData die m s
  | .complete die m => Sys2Proof.Machine.execComplete die m s
  | .segmentRetryResend xfer seg => Sys2Proof.Machine.execSegmentRetryResend xfer seg s
  | .arrive die m => Sys2Proof.Machine.execArrive die m s
  | .release die m => Sys2Proof.Machine.execRelease die m s
  | .routeWaitTimeout die => Sys2Proof.Machine.execRouteWaitTimeout die s
  | .vc3GapTimeout src => Sys2Proof.Machine.execVc3GapTimeout src s
  | .downList port => Sys2Proof.Machine.execDownList port s
  | .resendHoldTimeout die => Sys2Proof.Machine.execResendHoldTimeout die s
  | .undeclaredWaitLimit core => Sys2Proof.Machine.execUndeclaredWaitLimit core s
  | .dieRtDataWrite p die v => Sys2Proof.Machine.execDieRtDataWrite p die v s
  | .checked m => Sys2Proof.Machine.execChecked m s
  | .uncheck m => Sys2Proof.Machine.execUncheck m s
  | .seal m => Sys2Proof.Machine.execSeal m s
  | .replay m => Sys2Proof.Machine.execReplay m s
  | .reopen m => Sys2Proof.Machine.execReopen m s
  | .deferReq m => Sys2Proof.Machine.execDeferReq m s
  | .defer m => Sys2Proof.Machine.execDefer m s
  | .elasticWaitExpiry die obj => Sys2Proof.Machine.execElasticWaitExpiry die obj s
  | .inventory m => Sys2Proof.Machine.execInventory m s
  | .restorePick m => Sys2Proof.Machine.execRestorePick m s
  | .genesis p => Sys2Proof.Machine.execGenesis p s
  | .genesisHallmarksDone => Sys2Proof.Machine.execGenesisHallmarksDone s
  | .sealTreeTimeout => Sys2Proof.Machine.execSealTreeTimeout s
  | .endJob p => Sys2Proof.Machine.execEndJob p s
  | .replayJob p => Sys2Proof.Machine.execReplayJob p s
  | .replayMaxExceeded sid => Sys2Proof.Machine.execReplayMaxExceeded sid s
  | .ldgDeferWrite p v => Sys2Proof.Machine.execLdgDeferWrite p v s
  | .ledgerHandover => Sys2Proof.Machine.execLedgerHandover s
  | .dataFlit port f => Sys2Proof.Machine.execDataFlit port f s
  | .ack port f => Sys2Proof.Machine.execAck port f s
  | .nak port f => Sys2Proof.Machine.execNak port f s
  | .ackIntervalTimer port => Sys2Proof.Machine.execAckIntervalTimer port s
  | .flitTransmit port => Sys2Proof.Machine.execFlitTransmit port s
  | .retryLimReached port => Sys2Proof.Machine.execRetryLimReached port s
  | .brzEnableSet port => Sys2Proof.Machine.execBrzEnableSet port s
  | .brzEnableClear port => Sys2Proof.Machine.execBrzEnableClear port s
  | .lightReady port => Sys2Proof.Machine.execLightReady port s
  | .trainDone port tx rx search => Sys2Proof.Machine.execTrainDone port tx rx search s
  | .alignDone port => Sys2Proof.Machine.execAlignDone port s
  | .ident port f => Sys2Proof.Machine.execIdent port f s
  | .echo port f => Sys2Proof.Machine.execEcho port f s
  | .echoTimeout port => Sys2Proof.Machine.execEchoTimeout port s
  | .brzStateTimeout port => Sys2Proof.Machine.execBrzStateTimeout port s
  | .laneHealthChange port tx rx => Sys2Proof.Machine.execLaneHealthChange port tx rx s
  | .laserInput die engine input dbmTenths => Sys2Proof.Machine.execLaserInput die engine input dbmTenths s
  | .widthChangeDone port => Sys2Proof.Machine.execWidthChangeDone port s
  | .codewordLockLost port => Sys2Proof.Machine.execCodewordLockLost port s
  | .retrainDone port => Sys2Proof.Machine.execRetrainDone port s
  | .lossOfSignal port => Sys2Proof.Machine.execLossOfSignal port s
  | .brzPortRestart port => Sys2Proof.Machine.execBrzPortRestart port s
  | .dmaReadData p f => Sys2Proof.Machine.execDmaReadData p f s
  | .pullBackoffExpiry sid op => Sys2Proof.Machine.execPullBackoffExpiry sid op s
  | .ctlPullFix p win => Sys2Proof.Machine.execCtlPullFix p win s
  | .fixSExpiry win => Sys2Proof.Machine.execFixSExpiry win s
  | .dmaWriteAck p f => Sys2Proof.Machine.execDmaWriteAck p f s
  | .dmaTmoExpiry tag => Sys2Proof.Machine.execDmaTmoExpiry tag s
  | .eventAck p f => Sys2Proof.Machine.execEventAck p f s
  | .eventResendTimer => Sys2Proof.Machine.execEventResendTimer s
  | .keyExchange p f => Sys2Proof.Machine.execKeyExchange p f s
  | .keyExchangeTimeout => Sys2Proof.Machine.execKeyExchangeTimeout s
  | .frameCounterLimit => Sys2Proof.Machine.execFrameCounterLimit s
  | .attestReq p f => Sys2Proof.Machine.execAttestReq p f s
  | .certReq p f => Sys2Proof.Machine.execCertReq p f s
  | .fwData p f => Sys2Proof.Machine.execFwData p f s
  | .fwBegin p f => Sys2Proof.Machine.execFwBegin p f s
  | .fwStage p f => Sys2Proof.Machine.execFwStage p f s
  | .fwActivate p f => Sys2Proof.Machine.execFwActivate p f s
  | .fwCommit p f => Sys2Proof.Machine.execFwCommit p f s
  | .fwAbort p f => Sys2Proof.Machine.execFwAbort p f s
  | .revoke p f => Sys2Proof.Machine.execRevoke p f s
  | .install p f => Sys2Proof.Machine.execInstall p f s
  | .apply p => Sys2Proof.Machine.execApply p s
  | .debugLock p => Sys2Proof.Machine.execDebugLock p s
  | .scrubDone => Sys2Proof.Machine.execScrubDone s
  | .shadowLoad p die blk => Sys2Proof.Machine.execShadowLoad p die blk s
  | .arm p die blk => Sys2Proof.Machine.execArm p die blk s
  | .disarm p die blk => Sys2Proof.Machine.execDisarm p die blk s
  | .sleep p => Sys2Proof.Machine.execSleep p s
  | .sleepEntry => Sys2Proof.Machine.execSleepEntry s
  | .wake p => Sys2Proof.Machine.execWake p s
  | .thermalSample die sensors stack => Sys2Proof.Machine.execThermalSample die sensors stack s
  | .railTelemetryPoll rails => Sys2Proof.Machine.execRailTelemetryPoll rails s
  | .alertN rail => Sys2Proof.Machine.execAlertN rail s
  | .avsAckTimeout die => Sys2Proof.Machine.execAvsAckTimeout die s
  | .pmbusClockLowTimeout => Sys2Proof.Machine.execPmbusClockLowTimeout s
  | .refclkLoss pair => Sys2Proof.Machine.execRefclkLoss pair s
  | .porNRelease r => Sys2Proof.Machine.execPorNRelease r s
  | .powerGoodTimeout rail => Sys2Proof.Machine.execPowerGoodTimeout rail s
  | .porNAssert => Sys2Proof.Machine.execPorNAssert s
  | .railsOkDeassert => Sys2Proof.Machine.execRailsOkDeassert s
  | .tapInstruction die ir dr => Sys2Proof.Machine.execTapInstruction die ir dr s
  | .stuLoopStart p v => Sys2Proof.Machine.execStuLoopStart p v s
  | .loopbackEnd => Sys2Proof.Machine.execLoopbackEnd s
  | .faultRecord die limited => Sys2Proof.Machine.execFaultRecord die limited s
  | .handlingWindowExpiry seq => Sys2Proof.Machine.execHandlingWindowExpiry seq s
  | .fltClaim p seq => Sys2Proof.Machine.execFltClaim p seq s
  | .fltDone p seq => Sys2Proof.Machine.execFltDone p seq s
  | .fltCtlRelease p => Sys2Proof.Machine.execFltCtlRelease p s
  | .fltAryRel p v => Sys2Proof.Machine.execFltAryRel p v s
  | .releaseRunLapse core array => Sys2Proof.Machine.execReleaseRunLapse core array s
  | .faultWindowExpiry core array strike => Sys2Proof.Machine.execFaultWindowExpiry core array strike s
  | .waitMsExpiry sid op => Sys2Proof.Machine.execWaitMsExpiry sid op s
  | .dieDetectorTick die edges => Sys2Proof.Machine.execDieDetectorTick die edges s
  | .moduleDetectorTick edges => Sys2Proof.Machine.execModuleDetectorTick edges s
  | .heartbeatTimeout => Sys2Proof.Machine.execHeartbeatTimeout s
  | .arrayReset core a => Sys2Proof.Machine.execArrayReset core a s
  | .coreReset core => Sys2Proof.Machine.execCoreReset core s
  | .stackPhyReset die => Sys2Proof.Machine.execStackPhyReset die s
  | .dieReset die => Sys2Proof.Machine.execDieReset die s
  | .brazePortReset port => Sys2Proof.Machine.execBrazePortReset port s
  | .linkDieReset die => Sys2Proof.Machine.execLinkDieReset die s
  | .hubReset die => Sys2Proof.Machine.execHubReset die s
  | .moduleReset => Sys2Proof.Machine.execModuleReset s
  | .resetWatchdog d => Sys2Proof.Machine.execResetWatchdog d s
  | .rstLimitReached d => Sys2Proof.Machine.execRstLimitReached d s
  | .modLimitReached => Sys2Proof.Machine.execModLimitReached s
  | .mgmtHandover => Sys2Proof.Machine.execMgmtHandover s
  | .resetComplete d => Sys2Proof.Machine.execResetComplete d s
  | .fabricEdgeDown die edge => Sys2Proof.Machine.execFabricEdgeDown die edge s
  | .i3cTransactionTimeout => Sys2Proof.Machine.execI3cTransactionTimeout s
  | .stackScrubTimeout stack => Sys2Proof.Machine.execStackScrubTimeout stack s

end Sys2Proof.Machine
end

