-- ==== Sys2Proof/WellFormed.lean ====
section
/-!
DEFINITION. Well-formed commands: their operands name units the module has and fit the fields they come from (R5 to R14,
R32, R76, R156, R195, R223, R244, R276, R407, R478).
-/

namespace Sys2Proof

def okSlot (sid : Nat) : Bool := decide (sid < 60)
def okOp (op : Nat) : Bool := decide (op < 2 ^ 24)
def okCore (core : Nat) : Bool := decide (core < 192)
def okDie (die : Nat) : Bool := decide (die < 64)
def okLinkDie (die : Nat) : Bool := decide (48 ≤ die) && decide (die < 56)
def okStack (stack : Nat) : Bool := decide (stack < 48)
def okPort (port : Nat) : Bool := decide (port < 50)
def okReg (r : Nat) : Bool := decide (r < 16)

/-- The fields of a frame header fit their widths (R276). -/
def okFrame (f : Frame) : Bool :=
  decide (f.typ < 2 ^ 8) && decide (f.flags < 2 ^ 8) && decide (f.rsv < 2 ^ 16) && decide (f.tag < 2 ^ 32) && decide (f.addr < 2 ^ 64)
    && decide (f.len < 2 ^ 32) && decide (f.status < 2 ^ 32) && decide (f.aux < 2 ^ 64) && decide (f.counter < 2 ^ 64)

/-- The fields of a message header fit their widths (R244); GENESIS is the one negative step. -/
def okMsg (m : Msg) : Bool :=
  decide (m.dst < 2 ^ 16) && decide (m.src < 2 ^ 16) && decide (m.kind < 2 ^ 8) && decide (m.hops < 2 ^ 8) && decide (m.gen < 2 ^ 8)
    && decide (m.flags < 2 ^ 8) && decide (-1 ≤ m.step) && decide (m.step < 2 ^ 64 - 1) && decide (m.xfer < 2 ^ 64)
    && decide (m.seg < 2 ^ 32) && decide (m.len < 2 ^ 32) && decide (m.addr < 2 ^ 64) && decide (m.sync < 2 ^ 32)
    && decide (m.aux < 2 ^ 32) && decide (m.vc < 5)

/-- The fields of a flit header fit their widths (R223). -/
def okFlit (f : Flit) : Bool :=
  decide (f.typ < 16) && decide (f.vc < 8) && decide (f.seq < 2 ^ 12) && decide (f.ackseq < 2 ^ 12) && decide (f.ackk < 4)
    && decide (f.crvc < 8) && decide (f.crcnt < 2 ^ 12) && decide (f.len < 2 ^ 8) && decide (f.epoch < 64) && decide (f.crc < 2 ^ 32)

/-- Lanes 0 to 31 of an array (R76). -/
def okUpset (u : LaneUpset) : Bool := decide (u.lane < 32)
def okEdge (e : Edge) : Bool := okDie e.die && okDie e.toDie

def okReport (r : StartReport) : Bool :=
  r.deadDies.all okDie && r.deadStacks.all okStack && (r.failedArrays ++ r.failedChecks).all (fun x => decide (x / 8 < 192) && decide (x % 8 < 7))
    && r.failedMemory.all (fun x => decide (x / 8 < 48) && decide (x % 8 < 5)) && r.failedEngines.all (fun x => decide (x / 64 < 48))

def okDomain : DomainRef → Bool
  | .array core a => okCore core && decide (a < 7)
  | .core core => okCore core
  | .stackPhy die => decide (die < 48)
  | .die die => decide (die < 48) || (decide (60 ≤ die) && decide (die < 64))
  | .port p => decide (p < 48)
  | .linkDie die => okLinkDie die
  | .hub die => decide (56 ≤ die) && decide (die < 60)
  | .module => true

/-- A well-formed command. -/
def Instr.wf : Instr → Bool
  | .regRead _ f => okFrame f
  | .regWrite _ f => okFrame f
  | .planData _ f => okFrame f
  | .routeImageApply => true
  | .plnLoadBegin _ gen => decide (gen < 2 ^ 32)
  | .plnLoadCommit _ => true
  | .plnLoadDiscard _ => true
  | .swapReq _ => true
  | .swapCancel _ => true
  | .swapTimeout => true
  | .stepOpen sid => okSlot sid
  | .binChange die => decide (die < 48)
  | .product sid op => okSlot sid && okOp op
  | .kFold sid op => okSlot sid && okOp op
  | .accWrite sid op => okSlot sid && okOp op
  | .chunk sid op _ _ upset _ => okSlot sid && okOp op && upset.all okUpset
  | .assay core upset _ => okCore core && upset.all okUpset
  | .secondAssay core upset _ => okCore core && upset.all okUpset
  | .touchstoneRun core array _ upset _ => okCore core && decide (array < 7) && upset.all okUpset
  | .contextSave core => okCore core
  | .contextRestore core => okCore core
  | .idleTaper core => okCore core
  | .grantWindow quadrant => decide (quadrant < 4)
  | .map sid op => okSlot sid && okOp op
  | .rowMax sid op => okSlot sid && okOp op
  | .rowMin sid op => okSlot sid && okOp op
  | .kFoldVector sid op => okSlot sid && okOp op
  | .tileRowComplete sid op _ _ => okSlot sid && okOp op
  | .add core n d a b => okCore core && decide (n < 8192) && okReg d && okReg a && okReg b
  | .sub core n d a b => okCore core && decide (n < 8192) && okReg d && okReg a && okReg b
  | .mul core n d a b => okCore core && decide (n < 8192) && okReg d && okReg a && okReg b
  | .fma core n d a b c => okCore core && decide (n < 8192) && okReg d && okReg a && okReg b && okReg c
  | .div core n d a b => okCore core && decide (n < 8192) && okReg d && okReg a && okReg b
  | .sqrt core n d a => okCore core && decide (n < 8192) && okReg d && okReg a
  | .rsqrt core n d a => okCore core && decide (n < 8192) && okReg d && okReg a
  | .neg core n d a => okCore core && decide (n < 8192) && okReg d && okReg a
  | .abs core n d a => okCore core && decide (n < 8192) && okReg d && okReg a
  | .max core n d a b => okCore core && decide (n < 8192) && okReg d && okReg a && okReg b
  | .min core n d a b => okCore core && decide (n < 8192) && okReg d && okReg a && okReg b
  | .cmplt core n d a b => okCore core && decide (n < 8192) && okReg d && okReg a && okReg b
  | .cmple core n d a b => okCore core && decide (n < 8192) && okReg d && okReg a && okReg b
  | .cmpeq core n d a b => okCore core && decide (n < 8192) && okReg d && okReg a && okReg b
  | .select core n d a b c => okCore core && decide (n < 8192) && okReg d && okReg a && okReg b && okReg c
  | .exp core n d a => okCore core && decide (n < 8192) && okReg d && okReg a
  | .expm1 core n d a => okCore core && decide (n < 8192) && okReg d && okReg a
  | .log core n d a => okCore core && decide (n < 8192) && okReg d && okReg a
  | .log1p core n d a => okCore core && decide (n < 8192) && okReg d && okReg a
  | .tanh core n d a => okCore core && decide (n < 8192) && okReg d && okReg a
  | .sigmoid core n d a => okCore core && decide (n < 8192) && okReg d && okReg a
  | .erf core n d a => okCore core && decide (n < 8192) && okReg d && okReg a
  | .gelu core n d a => okCore core && decide (n < 8192) && okReg d && okReg a
  | .rand core n d seq => okCore core && decide (n < 8192) && okReg d && decide (seq < 2 ^ 16)
  | .mov core n d a => okCore core && decide (n < 8192) && okReg d && okReg a
  | .sum sid op => okSlot sid && okOp op
  | .sumsq sid op => okSlot sid && okOp op
  | .dot sid op => okSlot sid && okOp op
  | .meanvar sid op => okSlot sid && okOp op
  | .mvCombine sid op => okSlot sid && okOp op
  | .smaxBwd sid op => okSlot sid && okOp op
  | .normFwd sid op => okSlot sid && okOp op
  | .normBwd sid op => okSlot sid && okOp op
  | .maxIdx sid op => okSlot sid && okOp op
  | .minIdx sid op => okSlot sid && okOp op
  | .copy sid op => okSlot sid && okOp op
  | .zero sid op => okSlot sid && okOp op
  | .gather sid op => okSlot sid && okOp op
  | .scatter sid op => okSlot sid && okOp op
  | .scatterAdd sid op => okSlot sid && okOp op
  | .swage sid op => okSlot sid && okOp op
  | .transpose sid op => okSlot sid && okOp op
  | .shake sid op => okSlot sid && okOp op
  | .crc sid op => okSlot sid && okOp op
  | .verify sid op => okSlot sid && okOp op
  | .sort sid op => okSlot sid && okOp op
  | .merge sid op => okSlot sid && okOp op
  | .reduce sid op => okSlot sid && okOp op
  | .broadcast sid op => okSlot sid && okOp op
  | .nodeAdd sid op => okSlot sid && okOp op
  | .put sid op => okSlot sid && okOp op
  | .get sid op => okSlot sid && okOp op
  | .reslice sid op => okSlot sid && okOp op
  | .farRead sid op => okSlot sid && okOp op
  | .farWrite sid op => okSlot sid && okOp op
  | .sync sid op => okSlot sid && okOp op
  | .waitDeclared sid op => okSlot sid && okOp op
  | .pull sid op => okSlot sid && okOp op
  | .push sid op => okSlot sid && okOp op
  | .stepEndAudit sid op => okSlot sid && okOp op
  | .opComplete sid op => okSlot sid && okOp op
  | .budgetOverrun sid op => okSlot sid && okOp op
  | .engineItemComplete sid op _ _ _ => okSlot sid && okOp op
  | .engSvcWrite _ die _ => decide (die < 48)
  | .hallmarkReread sid op _ _ _ => okSlot sid && okOp op
  | .verifyRead stack page rowSel _ => okStack stack && decide (page < 24576) && decide (rowSel < 2048)
  | .pageCopyDone stack page => okStack stack && decide (page < 24576)
  | .burnishRead addr _ _ => decide (addr < 48 * 0xC_0000_0000)
  | .guardCopy stack block => okStack stack && decide (block < 24576)
  | .selfRefreshEntry stack => okStack stack
  | .selfRefreshWake stack => okStack stack
  | .cxlRequestTimeout xp => decide (xp < 4)
  | .cxlLinkDown xp => decide (xp < 4)
  | .cxlRetrain _ xp => decide (xp < 4)
  | .tier0CopyDone sid => okSlot sid
  | .migrationDone sid => okSlot sid
  | .spareSubstitution sid => okSlot sid
  | .restore _ => true
  | .loadInit _ win => decide (win < 32)
  | .restorePlacementDone => true
  | .write die m => okLinkDie die && okMsg m
  | .fetch die m => okLinkDie die && okMsg m
  | .fetchData die m => okLinkDie die && okMsg m
  | .complete die m => okLinkDie die && okMsg m
  | .segmentRetryResend xfer seg => decide (xfer < 2 ^ 64) && decide (seg < 2 ^ 32)
  | .arrive die m => okLinkDie die && okMsg m
  | .release die m => okLinkDie die && okMsg m
  | .routeWaitTimeout die => okLinkDie die
  | .vc3GapTimeout src => decide (src < 2 ^ 16)
  | .downList port => decide (port < 48)
  | .resendHoldTimeout die => okLinkDie die
  | .undeclaredWaitLimit core => okCore core
  | .dieRtDataWrite _ die _ => okLinkDie die
  | .checked m => okMsg m
  | .uncheck m => okMsg m
  | .seal m => okMsg m
  | .replay m => okMsg m
  | .reopen m => okMsg m
  | .deferReq m => okMsg m
  | .defer m => okMsg m
  | .elasticWaitExpiry die obj => okDie die && decide (obj < 2 ^ 13)
  | .inventory m => okMsg m
  | .restorePick m => okMsg m
  | .genesis _ => true
  | .genesisHallmarksDone => true
  | .sealTreeTimeout => true
  | .endJob _ => true
  | .replayJob _ => true
  | .replayMaxExceeded sid => okSlot sid
  | .ldgDeferWrite _ _ => true
  | .ledgerHandover => true
  | .dataFlit port f => okPort port && okFlit f
  | .ack port f => okPort port && okFlit f
  | .nak port f => okPort port && okFlit f
  | .ackIntervalTimer port => okPort port
  | .flitTransmit port => okPort port
  | .retryLimReached port => okPort port
  | .brzEnableSet port => okPort port
  | .brzEnableClear port => okPort port
  | .lightReady port => okPort port
  | .trainDone port _ _ _ => okPort port
  | .alignDone port => okPort port
  | .ident port f => okPort port && okFlit f
  | .echo port f => okPort port && okFlit f
  | .echoTimeout port => okPort port
  | .brzStateTimeout port => okPort port
  | .laneHealthChange port _ _ => okPort port
  | .laserInput die engine input _ => okLinkDie die && decide (engine < 2) && decide (input < 4)
  | .widthChangeDone port => okPort port
  | .codewordLockLost port => okPort port
  | .retrainDone port => okPort port
  | .lossOfSignal port => okPort port
  | .brzPortRestart port => okPort port
  | .dmaReadData _ f => okFrame f
  | .pullBackoffExpiry sid op => okSlot sid && okOp op
  | .ctlPullFix _ win => decide (win < 32)
  | .fixSExpiry win => decide (win < 32)
  | .dmaWriteAck _ f => okFrame f
  | .dmaTmoExpiry tag => decide (tag < 2 ^ 32)
  | .eventAck _ f => okFrame f
  | .eventResendTimer => true
  | .keyExchange _ f => okFrame f
  | .keyExchangeTimeout => true
  | .frameCounterLimit => true
  | .attestReq _ f => okFrame f
  | .certReq _ f => okFrame f
  | .fwData _ f => okFrame f
  | .fwBegin _ f => okFrame f
  | .fwStage _ f => okFrame f
  | .fwActivate _ f => okFrame f
  | .fwCommit _ f => okFrame f
  | .fwAbort _ f => okFrame f
  | .revoke _ f => okFrame f
  | .install _ f => okFrame f
  | .apply _ => true
  | .debugLock _ => true
  | .scrubDone => true
  | .shadowLoad _ die blk => okDie die && decide (blk < 256)
  | .arm _ die blk => okDie die && decide (blk < 256)
  | .disarm _ die blk => okDie die && decide (blk < 256)
  | .sleep _ => true
  | .sleepEntry => true
  | .wake _ => true
  | .thermalSample die _ _ => decide (die < 48)
  | .railTelemetryPoll rails => rails.all (fun x => decide (x.rail < 73))
  | .alertN rail => decide (rail < 73)
  | .avsAckTimeout die => decide (die < 48)
  | .pmbusClockLowTimeout => true
  | .refclkLoss pair => decide (pair < 4)
  | .porNRelease r => okReport r
  | .powerGoodTimeout rail => decide (rail < 73)
  | .porNAssert => true
  | .railsOkDeassert => true
  | .tapInstruction die _ _ => okDie die
  | .stuLoopStart _ _ => true
  | .loopbackEnd => true
  | .faultRecord die _ => okDie die
  | .handlingWindowExpiry seq => decide (seq < 2 ^ 32)
  | .fltClaim _ seq => decide (seq < 2 ^ 32)
  | .fltDone _ seq => decide (seq < 2 ^ 32)
  | .fltCtlRelease _ => true
  | .fltAryRel _ _ => true
  | .releaseRunLapse core array => okCore core && decide (array < 7)
  | .faultWindowExpiry core array _ => okCore core && decide (array < 8)
  | .waitMsExpiry sid op => okSlot sid && okOp op
  | .dieDetectorTick die edges => okDie die && edges.all okEdge
  | .moduleDetectorTick edges => edges.all okEdge
  | .heartbeatTimeout => true
  | .arrayReset core a => okCore core && decide (a < 7)
  | .coreReset core => okCore core
  | .stackPhyReset die => decide (die < 48)
  | .dieReset die => decide (die < 48) || (decide (60 ≤ die) && decide (die < 64))
  | .brazePortReset port => decide (port < 48)
  | .linkDieReset die => okLinkDie die
  | .hubReset die => decide (56 ≤ die) && decide (die < 60)
  | .moduleReset => true
  | .resetWatchdog d => okDomain d
  | .rstLimitReached d => okDomain d
  | .modLimitReached => true
  | .mgmtHandover => true
  | .resetComplete d => okDomain d
  | .fabricEdgeDown die edge => decide (die < 48) && decide (edge < 4)
  | .i3cTransactionTimeout => true
  | .stackScrubTimeout stack => okStack stack

end Sys2Proof
end

