-- ==== Sys2Proof/Safety.lean ====
section
/-!
DEFINITION. What counts as a safe step and a sound state: a command that takes effect, and the canonical form of the
register map and of the stacks' memory.
-/

namespace Sys2Proof.Machine

/-- A command takes effect: it answers a next state. -/
def Continues (o : Out) : Prop := ∃ t, o = .next t

/-- The memory's canonical form: addresses strictly rising, and no byte listed that reads as an unlisted one. -/
def Memory.wf (m : SMap Byte) : Bool := SMap.wf memDflt m

/-- The register map's canonical form: addresses strictly rising, and no register listed at its reset value. -/
def Registers.wf (m : SMap Word) : Bool := SMap.wf resetReg m

/-- A sound state: the register map, the stacks, the far tier and the DSM stand in canonical form. -/
structure State.Inv (s : State) : Prop where
  regs : Registers.wf s.regs = true
  stack : Memory.wf s.mem.stack = true
  far : Memory.wf s.mem.far = true
  dsm : Memory.wf s.units.dsm = true

/-! ## Ops that may start -/

/-- Op `op` of a slot's open step is `o`, of a class and opcode, and may start: it is issued, every wait is released (R38,
R40), no earlier op holds it back (R113, R114), every stack it names answers (R193), its core's context is not saved (R120),
its die has stream-tracker entries free (R45), and no input is poisoned (R209) or in disagreement with its hallmarks (R309). -/
structure State.Ready (s : State) (sid op cls code : Nat) (o : Op) : Prop where
  here : s.opOf sid op cls code = some o
  index : o.index = op
  waiting : (s.opRun sid op).phase = .waiting
  released : o.allReleased (s.opRun sid op) = true
  free : s.heldBack sid o = false
  reach : s.operandsReach o = true
  quiet : s.coreSaved sid o = false
  room : s.trackRoom (s.slotDie sid) (s.opTracks sid o).length = true
  clean : s.poisonInput sid o = none
  agreed : (List.range o.nopnd).any (fun i => !(s.badOperand sid o i).isEmpty) = false

/-- The state in which a ready op has started: it runs, its operands are read (R211, R218), its step input is retained (R335), it
holds its stream-tracker entries (R44), and its core's declared wait is over (R272). -/
def State.started (s : State) (sid : Nat) (o : Op) : State :=
  let t := (((s.readInputs sid o).retainInput sid o).track (s.opTracks sid o)).setOp sid o.index { s.opRun sid o.index with phase := .running }
  if o.unit < 4 ∧ sid < 48 ∧ (t.core (t.coreOf sid o)).declared then t.setDeclared (t.coreOf sid o) false else t

end Sys2Proof.Machine
end

