-- ==== Sys2Proof/Certificates/Slice0/Obligations.lean ====
section
/-!
DEFINITION. The statements for the provers: what the machine and its commands do, as obligations.
-/

open Sys2Proof Sys2Proof.Machine

/-- A STEP RUNS THE FRONT COMMAND: step of a state with command c at the front of its queue is exec of c with the queue's
rest. -/
def Obligations.StepRunsFront : Prop := ∀ (c : Instr) (q : List Instr) (s : State),
  step { s with pending := c :: q } = exec c { s with pending := q }

/-- WITH AN EMPTY QUEUE THE BLOCK IDLES: the step changes nothing (the model's choice, log entry 1). -/
def Obligations.EmptyQueueIdles : Prop := ∀ s : State, s.pending = [] → step s = .next s

/-- RESET: no command waits, no register differs from its reset value, the stacks list no byte, no slot has opened a step, no
job is in the ledger, no fault is recorded, nothing has been sent, and the rails are off. -/
def Obligations.ResetState : Prop :=
  State.reset.pending = [] ∧ (∀ a, State.reset.reg a = resetReg a) ∧ State.reset.mem.stack = [] ∧
  (∀ sid, (State.reset.slot sid).phase = .idle) ∧ State.reset.jobIn = false ∧ State.reset.flt.log = [] ∧
  State.reset.sent = [] ∧ State.reset.pwr.railsOn = false ∧ State.reset.plan.shadow = .empty

/-- RESET IS SOUND: the register map, the stacks, the far tier and the DSM of the reset state stand in canonical form. -/
def Obligations.ResetSound : Prop := State.reset.Inv

/-- EVERY STEP KEEPS THE MACHINE SOUND: from every state whose register map, stacks, far tier and DSM stand in canonical
form, a step that goes on reaches such a state again. -/
def Obligations.StepKeepsSound : Prop := ∀ s t : State, s.Inv → step s = .next t → t.Inv

/-- COMMANDS LEAVE THE QUEUE ALONE: from every sound state, whatever a command does, the commands that wait behind it are
the same afterwards, in the same order. -/
def Obligations.ExecKeepsQueue : Prop := ∀ (c : Instr) (s t : State), s.Inv → exec c s = .next t → t.pending = s.pending

/-- EVERY WELL-FORMED COMMAND TAKES EFFECT: in every state, a command whose operands name units the module has answers a next
state; none is refused, none faults. -/
def Obligations.WellFormedRuns : Prop := ∀ (c : Instr) (s : State), c.wf = true → Continues (exec c s)

/-- NO COMMAND IS REFUSED: in every state the one fault of a command is a unit the module does not have, and a command
on a slot above 59, a core above 191, a compute die above 47, a stack above 47, a port above 49, a quadrant above 3 or
a far-tier port above 3 stops with that fault (R5 to R14, R32). -/
def Obligations.NothingRefused : Prop :=
  (∀ (c : Instr) (s : State),
   (∀ r, exec c s ≠ .refused r) ∧ (∀ f, exec c s = .fault f → f = .noUnit)) ∧
  (∀ (s : State) (n op : Nat),
   (60 ≤ n → exec (.stepOpen n) s = .fault .noUnit ∧ exec (.product n op) s = .fault .noUnit ∧
     exec (.copy n op) s = .fault .noUnit ∧ exec (.opComplete n op) s = .fault .noUnit) ∧
   (192 ≤ n → exec (.contextSave n) s = .fault .noUnit ∧ exec (.neg n 0 0 0) s = .fault .noUnit) ∧
   (48 ≤ n → exec (.binChange n) s = .fault .noUnit ∧ exec (.selfRefreshEntry n) s = .fault .noUnit) ∧
   (50 ≤ n → exec (.flitTransmit n) s = .fault .noUnit ∧ exec (.retrainDone n) s = .fault .noUnit) ∧
   (4 ≤ n → exec (.grantWindow n) s = .fault .noUnit ∧ exec (.cxlLinkDown n) s = .fault .noUnit))

/-- MESSAGE HEADERS ROUND TRIP: the 48 header bytes and the data of a message whose fields fit their widths spell that
message again, with every field at every value it admits (R244). -/
def Obligations.MessageRoundTrip : Prop := ∀ m : Msg, okMsg m = true → msgOf m.vc (msgBytes m) = m

/-- STEPS: the genesis step -1 is encoded as 0xFFFF_FFFF_FFFF_FFFF, the step after it is 0 and follows it in every comparison, and
the 64-bit word of a step names that step, for GENESIS and for every step a word can hold (R346). -/
def Obligations.StepWordRoundTrip : Prop :=
  stepWord (-1) = 0xFFFF_FFFF_FFFF_FFFF ∧ (-1 : Step) + 1 = 0 ∧ (-1 : Step) < 0 ∧
  ∀ n : Step, -1 ≤ n → n < 2 ^ 64 - 1 → wordStep (stepWord n) = n

/-- REGISTER FIELDS: a field written reads as the value written, as far as it fits, and a field that shares no bit with it
reads as before. -/
def Obligations.FieldWrites : Prop := ∀ (w : Word) (hi lo v hi' lo' : Nat), lo ≤ hi → hi < 64 → lo' ≤ hi' → hi' < 64 →
  fld (setFld w hi lo v) hi lo = v % 2 ^ (hi + 1 - lo) ∧
  (hi < lo' ∨ hi' < lo → fld (setFld w hi lo v) hi' lo' = fld w hi' lo')

/-- MEMORY READS BACK: in a sound state a byte stored in the near tier reads as it was stored, and every byte served
from another place reads as before, retired pages included; without retired pages a stored run of bytes reads back
byte by byte, and no byte outside it changes; and two maps in canonical form that read alike at every key are the same
map (R186, R208). -/
def Obligations.MemoryReadsBack : Prop :=
  (∀ (s : State) (pa a : Nat) (b : Byte), s.Inv →
   (s.st pa b).ld pa = b ∧ (s.served a ≠ s.served pa → (s.st pa b).ld a = s.ld a) ∧
   (s.mem.subst = [] → a ≠ pa → (s.st pa b).ld a = s.ld a)) ∧
  (∀ (s : State) (pa : Nat) (bs : List Byte), s.Inv → s.mem.subst = [] →
   (s.stN pa bs).ldN pa bs.length = bs ∧ ∀ a, a < pa ∨ pa + bs.length ≤ a → (s.stN pa bs).ld a = s.ld a) ∧
  (∀ m k : SMap Byte, Memory.wf m = true → Memory.wf k = true →
   (∀ a, SMap.get memDflt m a = SMap.get memDflt k a) → m = k)

/-- ROW REDUCTION UNIT OPS: a ready SUM, SUMSQ, DOT, MEANVAR, MV_COMBINE, SMAX_BWD, NORM_FWD, NORM_BWD, MAX_IDX or MIN_IDX
op runs, its rows are folded in increasing position, and its outputs are written (R134 to R147). COMPLETES HERE, with an
answered next state of its own effect for every state and operands that meet the conditions: sum, sumsq, dot, meanvar,
mvCombine, smaxBwd, normFwd, normBwd, maxIdx, minIdx. -/
def Obligations.RowOpsComplete : Prop := ∀ (s : State) (sid op : Nat) (o : Op), sid < 60 →
  let t := s.started sid o
  let row (i r : Nat) : List Word := (t.rowsOf sid o i).getD r []
  (s.Ready sid op 2 0x01 o → exec (.sum sid op) s = .next (t.rowsOut sid o
    [⟨1, false, (List.range (t.rowsOf sid o 0).length).map (fun r =>
      [(o.positions (row 0 r)).foldl (fun a x => tAdd a (x, false)) (t.foldStart sid o 2 r)])⟩])) ∧
  (s.Ready sid op 2 0x02 o → exec (.sumsq sid op) s = .next (t.rowsOut sid o
    [⟨1, false, (List.range (t.rowsOf sid o 0).length).map (fun r =>
      [(o.positions (row 0 r)).foldl (fun a x => tFma (x, false) (x, false) a) (t.foldStart sid o 2 r)])⟩])) ∧
  (s.Ready sid op 2 0x03 o → exec (.dot sid op) s = .next (t.rowsOut sid o
    [⟨2, false, (List.range (t.rowsOf sid o 0).length).map (fun r =>
      [((o.positions (row 0 r)).zip (o.positions (row 1 r))).foldl (fun a p => tFma (p.1, false) (p.2, false) a)
        (t.foldStart sid o 3 r)])⟩])) ∧
  (s.Ready sid op 2 0x04 o → o.partialOut = true → exec (.meanvar sid op) s = .next (t.rowsOut sid o
    [⟨1, true, (t.rowsOf sid o 0).map (fun xs =>
      let m := meanvarPartial (o.positions xs); [m.n, m.mean, m.m2])⟩])) ∧
  (s.Ready sid op 2 0x04 o → o.partialOut = false → exec (.meanvar sid op) s = .next (t.rowsOut sid o
    [⟨1, false, (t.rowsOf sid o 0).map (fun xs =>
      let m := meanvarPartial (o.positions xs)
      [m.mean, tDiv m.m2 (if o.varDiv then tSub m.n (one64, false) else m.n)])⟩])) ∧
  (s.Ready sid op 2 0x05 o → exec (.mvCombine sid op) s = .next (t.rowsOut sid o (mvCombineOuts sid t o))) ∧
  (s.Ready sid op 2 0x06 o → exec (.smaxBwd sid op) s = .next (t.rowsOut sid o
    [⟨2, false, ((t.rowsOf sid o 0).zip (t.rowsOf sid o 1)).map (fun p =>
      (p.1.zip p.2).map (fun e => tMul (e.1, false)
        (tSub (e.2, false) ((p.1.zip p.2).foldl (fun a q => tFma (q.1, false) (q.2, false) a) (0, false)))))⟩])) ∧
  (s.Ready sid op 2 0x07 o → exec (.normFwd sid op) s = .next (t.rowsOut sid o (normFwdOuts sid t o))) ∧
  (s.Ready sid op 2 0x08 o → exec (.normBwd sid op) s = .next (t.rowsOut sid o (normBwdOuts sid t o))) ∧
  (s.Ready sid op 2 0x80 o → exec (.maxIdx sid op) s = .next (t.rowsOut sid o
    [⟨1, true, (t.rowsOf sid o 0).map (fun xs => [((winner false xs).1, false), (nat64 (winner false xs).2, false)])⟩])) ∧
  (s.Ready sid op 2 0x81 o → exec (.minIdx sid op) s = .next (t.rowsOut sid o
    [⟨1, true, (t.rowsOf sid o 0).map (fun xs => [((winner true xs).1, false), (nat64 (winner true xs).2, false)])⟩]))

/-- VECTOR UNIT OPS START: a ready MAP, ROW_MAX, ROW_MIN or vector K_FOLD op whose groups fit runs with one item per tile
row of its grid, the first GROUPS of them taken, one by each group (R152, R153). COMPLETES HERE, with an answered next state
of its own effect for every state and operands that meet the conditions: map, rowMax, rowMin, kFoldVector. -/
def Obligations.VectorOpsStart : Prop := ∀ (s : State) (sid op code : Nat) (c : Instr) (o : Op), sid < 60 →
  (c, code) ∈ [(Instr.map sid op, 1), (Instr.rowMax sid op, 2), (Instr.rowMin sid op, 3), (Instr.kFoldVector sid op, 4)] →
  s.Ready sid op 1 code o →
  s.resident sid o.unit + 32 * o.kp 45 37 ≤ s.strandLimit sid o.unit →
  ∃ t, exec c s = .next t ∧
    t.opRun sid op = { s.opRun sid op with
      phase := .running, base := s.strandBase sid o,
      items := (List.range o.tileRows.length).map (fun i =>
        { index := i, engine := i % o.kp 45 37, taken := decide (i < o.kp 45 37) }) } ∧
    t.mem = (s.started sid o).mem ∧ t.sent = (s.started sid o).sent ∧ t.ldg = (s.started sid o).ldg ∧ t.syn = s.syn

/-- TILE_ROW_COMPLETE: on a core that saves no context the group's tile row is finished and the group takes the next untaken
one; with the last tile row the op is computed. A first disagreement re-executes the tile row, which is counted, and leaves
everything else (R152, R303). COMPLETES HERE, with an answered next state of its own effect for every state and operands
that meet the conditions: tileRowComplete. -/
def Obligations.TileRowCompletes : Prop := ∀ (s : State) (sid op group : Nat) (o : Op) (x : WorkItem), sid < 60 →
  s.liveOp sid op = some o → o.index = op → o.cls = 1 → (s.opRun sid op).phase = .running →
  s.coreSaved sid o = false → (s.core (s.coreOf sid o)).saveDue = false →
  (s.opRun sid op).items.find? (fun y => y.taken && !y.finished && y.engine == group) = some x →
  let r := s.opRun sid op
  let done := setItem r.items { x with finished := true }
  let items := match done.find? (fun y => !y.taken) with
    | some y => setItem done { y with taken := true, engine := group }
    | none => done
  (∃ t, exec (.tileRowComplete sid op group false) s = .next t ∧ (t.opRun sid op).items = items ∧
    (t.opRun sid op).phase = (if items.all (fun y => y.finished) then .computed else .running) ∧
    t.ldg = s.ldg ∧ t.sent = s.sent ∧ t.syn = s.syn ∧ t.flt = s.flt ∧ t.plan = s.plan) ∧
  (x.retried = false → exec (.tileRowComplete sid op group true) s = .next (s.setOp sid op { r with
    items := setItem r.items { x with retried := true }, reexec := r.reexec + 1 }))

/-- MATRIX OPS COMPLETE: a ready K_FOLD folds its partials in operand order onto the first one, or onto the entries left in
place, and writes or keeps the result (R95, R111); a ready ACC_WRITE writes the entries that the previous op left (R113); a
ready PRODUCT without a disputed chunk starts its entries, forms every chunk of every row and N-slice, and writes or keeps
the result (R92, R100, R110). COMPLETES HERE, with an answered next state of its own effect for every state and operands
that meet the conditions: product, kFold, accWrite. -/
def Obligations.MatrixOpsComplete : Prop := ∀ (s : State) (sid op : Nat) (o : Op), sid < 60 →
  (s.Ready sid op 0 2 o →
    let b := s.started sid o
    let t := b.rampStart (b.coreOf sid o)
    let n := o.nopnd - (if o.keep then 0 else 1)
    let folded (p : Nat × Nat × Nat) : Word × Bool :=
      let vs := (List.range n).map (fun i => t.inVal sid o i p.1 p.2.1 p.2.2)
      if o.accIn = 2 then foldPartials (t.acc (t.laneKey sid o p.1 p.2.1 p.2.2)).val vs
      else foldPartials (vs.headD 0) (vs.drop 1)
    let u := forEach o.matDims.all (fun p v =>
      v.setAcc (t.laneKey sid o p.1 p.2.1 p.2.2) { val := (folded p).1, unwritten := true }) t
    exec (.kFold sid op) s = .next (u.matrixOut sid o (if o.keep then none else some (o.nopnd - 1))
      (if o.matDims.all.any (fun p => (folded p).2) then 32 else 0) (fun x i j => (folded (x, i, j)).1))) ∧
  (s.Ready sid op 0 3 o →
    let b := s.started sid o
    let t := b.rampStart (b.coreOf sid o)
    exec (.accWrite sid op) s = .next (t.matrixOut sid o (some 0) 0 (fun x i j => (b.acc (b.laneKey sid o x i j)).val))) ∧
  (s.Ready sid op 0 1 o →
    let t := ((s.started sid o).stage sid o).rampStart (s.coreOf sid o)
    t.disputed sid op = false → (t.core (t.coreOf sid o)).ctx = none →
    exec (.product sid op) s = .next ((forEach o.units (fun u v => v.runUnit sid o u.1 u.2) t).finish sid o 0))

/-- CHUNK: in a running PRODUCT the next chunk of a row and N-slice whose turn it is runs. A sound array's chunk is counted
and promoted; a chunk whose checker disagrees is disputed and promotes nothing (R100, R300, R312); a word of the DSM or of a
buffer with two bits upset is a PARTITION_FATAL fault, and the chunk is not formed (R166, R304). COMPLETES HERE, with an
answered next state of its own effect for every state and operands that meet the conditions: chunk. -/
def Obligations.ChunkPromotesOrDisputes : Prop := ∀ (s : State) (sid op row slice : Nat) (us : List LaneUpset) (c : Cond) (o : Op),
  sid < 60 → s.opOf sid op 0 1 = some o → o.index = op → (s.opRun sid op).phase = .running →
  s.chunkTurn sid o row slice = true →
  let core := s.coreOf sid o
  let b := s.beginUnit sid o (row / o.matDims.m) (o.rowGroup row)
  let a := b.arrayOf sid o row
  let n := (b.opRun sid op).chunksDone row slice
  let outs := b.runChunk sid o row slice n us
  let t := b.countChunk core a (o.newSlice n) ((outs.map (fun x => x.1.res)).any (fun x => x.repeated))
  ((∀ u ∈ us, u.buf = 0) → outs.any (fun x => x.1.bad || x.1.promoBad) = false → t.dual core a = false →
    exec (.chunk sid op row slice us c) s = .next (t.takeChunk sid o row slice (outs.map (fun x => x.1.res))
      (outs.foldl (fun f x => f.or x.2) {}))) ∧
  ((∀ u ∈ us, u.buf = 0) → outs.any (fun x => x.1.bad || x.1.promoBad) = true → t.checker core a ≠ 2 →
    let u := t.aryBump core 0xCE0
    let d : Dispute := { core := core, array := a, sid := sid, op := op, row := row, colTile := slice, chunk := n,
                         original := outs.map (fun x => x.1.res) }
    exec (.chunk sid op row slice us c) s = .next { u with units := { u.units with disputes := u.units.disputes ++ [d] } }) ∧
  ((∃ u ∈ us, 2 ≤ u.buf) → exec (.chunk sid op row slice us c) s = .next
    (if s.readsDsm sid o then s.raise (core / 4) 0x0506 { typ := 0x01, op := o.index, cond := c }
     else s.raise (core / 4) 0x0507 { typ := 0x02, inst := core % 4, op := o.index, cond := c }))

/-- RESIDUE CHECK: for a chunk of finite operands the checker of an array disagrees exactly when an upset inverted the
overflow decision, moved the window top, or left sum and predicted residue apart modulo 31; an array without an upset is
never found to disagree (R298 to R300). -/
def Obligations.ResidueCheckFindsUpsets : Prop := ∀ (f : Nat) (ps : List DotPos),
  (laneRun f ps none).bad = false ∧
  ∀ u : LaneUpset, (laneChunk f ps).special = 0 →
    ((laneRun f ps (some u)).bad = true ↔ u.ovf = true ∨ u.top ≠ 0 ∨ (u.sum - u.residue) % 31 ≠ 0)

/-- ASSAY AND SECOND_ASSAY: a disputed chunk is computed again on a standby array. When both agree the checker is charged,
the original value is promoted and CHECKER_FAULT is recorded; when they differ the array is charged, the assay's value is
promoted and LANE_FAULT is recorded; when the assay's own check fails the chunk waits for a second assay on a standby of a
neighbouring core. There a value that agrees with the original charges both the array's checker and the first standby's and
is promoted as DISPUTE_SECOND, and a second failed check or a core with no other standby replays the die's share of the step
(R312, R313). COMPLETES HERE, with an answered next state of its own effect for every state and operands that meet the
conditions: assay, secondAssay. -/
def Obligations.AssaysDecide : Prop :=
  (∀ (s : State) (core sb : Nat) (us : List LaneUpset) (c : Cond) (d : Dispute), core < 192 →
   s.nextDispute core false = some d → (s.standbys core)[0]? = some sb →
   let o := s.opAt d.sid false d.op
   let run := s.reRun d o us
   let t := (s.aryBump core 0xCC0).countChunk sb 6 (o.newSlice d.chunk) (run.1.any (fun x => x.repeated))
   (run.2.1 = false → run.1 = d.original →
     let q := t.charge d o core d.array 1 c run.1
     exec (.assay core us c) s = .next
       (((q.1.strike core d.array).aryBump core 0xCC8).resolveDispute d o c 1 0x0400 d.original run.2.2 q.2.1 q.2.2)) ∧
   (run.2.1 = false → run.1 ≠ d.original →
     let q := t.charge d o core d.array 0 c run.1
     exec (.assay core us c) s = .next
       (((q.1.confirmFault core d.array c).aryBump core 0xCD0).resolveDispute d o c 2 0x0401 run.1 run.2.2 q.2.1 q.2.2)) ∧
   (run.2.1 = true →
     let u := t.aryBump core 0xCD8
     let ds := u.units.disputes.map (fun (x : Dispute) =>
       if x.same d then { x with assay := run.1, second := true, standby := sb } else x)
     exec (.assay core us c) s = .next { u with units := { u.units with disputes := ds } })) ∧
  (∀ (s : State) (core : Nat) (us : List LaneUpset) (c : Cond) (d : Dispute), core < 192 →
   s.nextDispute core true = some d →
   let o := s.opAt d.sid false d.op
   let run := s.reRun d o us
   ((s.standbys core).find? (fun x => x != d.standby) = none →
     exec (.secondAssay core us c) s = .next (s.stepReplay d c)) ∧
   (∀ sb : Nat, (s.standbys core).find? (fun x => x != d.standby) = some sb →
     let t := (s.aryBump core 0xCC0).countChunk sb 6 (o.newSlice d.chunk) (run.1.any (fun x => x.repeated))
     (run.2.1 = true → exec (.secondAssay core us c) s = .next (t.stepReplay d c)) ∧
     (run.2.1 = false → run.1 = d.original →
       let q := t.charge d o core d.array 1 c run.1
       let u := ((q.1.strike core d.array).charge d o d.standby 6 1 c run.1).1
       exec (.secondAssay core us c) s = .next
         (((u.strike d.standby 6).suspectDie (core / 4)).resolveDispute d o c 3 0x0402 d.original run.2.2 q.2.1 q.2.2)) ∧
     (run.2.1 = false → run.1 ≠ d.original → run.1 = d.assay →
       let q := t.charge d o core d.array 0 c run.1
       let u := ((q.1.confirmFault core d.array c).charge d o d.standby 6 1 c run.1).1
       exec (.secondAssay core us c) s = .next
         (((u.strike d.standby 6).suspectDie (core / 4)).resolveDispute d o c 3 0x0402 run.1 run.2.2 q.2.1 q.2.2)) ∧
     (run.2.1 = false → run.1 ≠ d.original → run.1 ≠ d.assay →
       let q := t.charge d o core d.array 0 c run.1
       let u := ((q.1.confirmFault core d.array c).charge d o d.standby 6 0 c run.1).1
       exec (.secondAssay core us c) s = .next
         (((u.confirmFault d.standby 6 c).suspectDie (core / 4)).resolveDispute d o c 3 0x0402 run.1 run.2.2 q.2.1 q.2.2))))

/-- ARRAY HEALTH: a matching touchstone run on a healthy array only counts; FLT_ARY_REL asks for the release runs of a
quarantined array; a lapse answers ARRAY_RELEASED with result 2; the window drops the oldest fault mark, one checker strike
or the die's suspect mark (R315 to R317, R321). COMPLETES HERE, with an answered next state of its own effect for every
state and operands that meet the conditions: touchstoneRun, fltAryRel, releaseRunLapse, faultWindowExpiry. -/
def Obligations.ArrayHealthCommands : Prop := ∀ (s : State) (core a : Nat), core < 192 → a < 7 →
  (∀ (i : Nat) (us : List LaneUpset) (c : Cond) (e : List Byte),
    (∀ sid, s.dieSlot (core / 4) = some sid → s.coreBusy sid (core % 4) = false) → s.runPattern i us = some (true, e) →
    exec (.touchstoneRun core a i us c) s = .next ((s.aryBump core 0xCE8).runPassed core a i)) ∧
  (∀ (p : Path) (v : Word), s.checkWrite p 60 0x21 0x0E8 v = none → fld v 15 10 = core / 4 → fld v 9 8 = core % 4 →
    fld v 2 0 = a → s.stu.outDies.contains (core / 4) = false → s.aryState core a = 2 → (s.array core a).release = none →
    exec (.fltAryRel p v) s = .next (s.setArray core a { s.array core a with release := some v.toNat, ran := [] })) ∧
  (∀ v : Nat, (s.array core a).release = some v → exec (.releaseRunLapse core a) s = .next
    ((s.setArray core a { s.array core a with release := none, ran := [] }).event 0x0034 v 0 2)) ∧
  (s.aryState core a ≠ 1 → exec (.faultWindowExpiry core a false) s = .next
    (s.setArray core a { s.array core a with marks := (s.array core a).marks.drop 1 })) ∧
  (∀ b, exec (.faultWindowExpiry core 7 b) s = .next
    { s with stu := { s.stu with suspectDies := NSet.del s.stu.suspectDies (core / 4) } })

/-- CONTEXTS AND TAPERS: CONTEXT_SAVE of a core on which nothing holds it lays the core's entries, flags and ramp into the
save area, keeps the positions of the ops in progress and counts the save; while a dispute or an unfinished tile row holds
it, it stays due (R100, R120, R122, R143, R164). CONTEXT_RESTORE brings all of it back and the ops go on. IDLE_TAPER of a
full core in a mode that tapers begins the taper, and the end of a taper leaves the core idle and asks for a grant (R118,
R119, R424). COMPLETES HERE, with an answered next state of its own effect for every state and operands that meet the
conditions: contextSave, contextRestore, idleTaper. -/
def Obligations.ContextAndTaper : Prop := ∀ (s : State) (core : Nat), core < 192 →
  ((s.core core).ctx = none → s.saveWaits core = true → exec (.contextSave core) s = .next
    ((s.setCore core { s.core core with saveDue := true }).setField (core / 4) (1 + core % 4) 0x058 1 0 1)) ∧
  (∀ sid, s.dieSlot (core / 4) = some sid → sid < 48 → (s.core core).ctx = none → s.saveWaits core = false →
    let b := s.rowInProgress sid core
    let runs := (b.running sid core).map (fun k => (k, b.opRun sid k))
    let c : SavedCtx := { acc := coreAcc core b.units.acc, sid := sid, op := (b.running sid core).headD 0xFFFFFF,
                          flags := b.rd (core / 4) (1 + core % 4) 0x048, rampReg := b.rd (core / 4) (1 + core % 4) 0x040,
                          ramp := (b.core core).ramp, runs := runs }
    let t := b.layContext (b.saveArea sid core) core c
    let u := (t.setCore core { t.core core with ctx := some c, saveDue := false }).setField (core / 4) (1 + core % 4) 0x058 1 0 2
    exec (.contextSave core) s = .next
      (u.setField (core / 4) (1 + core % 4) 0x058 47 16 (u.field (core / 4) (1 + core % 4) 0x058 47 16 + 1))) ∧
  (∀ c : SavedCtx, (s.core core).ctx = some c →
    let t := { s with units := { s.units with acc := setCoreAcc core s.units.acc c.acc } }
    let t := (t.wr (core / 4) (1 + core % 4) 0x048 c.flags).wr (core / 4) (1 + core % 4) 0x040 c.rampReg
    let u := forEach c.runs (fun e v =>
      let v := if (v.opRun c.sid e.1).phase = .running then v.setOp c.sid e.1 e.2 else v
      let o := v.opAt c.sid false e.1
      if o.cls = 0 ∧ o.opcode = 1 then v.stage c.sid o else if o.cls = 1 then v.resumeGroups c.sid o else v) t
    exec (.contextRestore core) s = .next
      ((u.setCore core { u.core core with ctx := none, ramp := c.ramp }).setField (core / 4) (1 + core % 4) 0x058 1 0 0)) ∧
  (s.dieSlot (core / 4) = none →
    ((s.core core).ramp = 2 → (s.rampMode core = 1 ∨ s.rampMode core = 3) →
      exec (.idleTaper core) s = .next ((s.setCore core { s.core core with ramp := 4 }).fillRows core)) ∧
    ((s.core core).ramp = 4 →
      exec (.idleTaper core) s = .next ((s.setCore core { s.core core with ramp := 0, fill := 0 }).askGrant core)))

/-- ENGINE OPS START: a ready op of an engine class is cut into its work items, numbered 0 to N - 1 in order, none of them
finished, and runs (R168, R175). COMPLETES HERE, with an answered next state of its own effect for every state and operands
that meet the conditions: copy, zero, gather, scatter, scatterAdd, swage, transpose, shake, crc, verify, sort, merge,
reduce, broadcast, nodeAdd. -/
def Obligations.EngineOpsStart : Prop := ∀ (s : State) (sid op cls code : Nat) (c : Instr) (o : Op), sid < 60 →
  (c, cls, code) ∈ [(Instr.copy sid op, 3, 1), (Instr.zero sid op, 3, 2), (Instr.gather sid op, 4, 1),
    (Instr.scatter sid op, 4, 2), (Instr.scatterAdd sid op, 4, 3), (Instr.swage sid op, 5, 1), (Instr.transpose sid op, 6, 1),
    (Instr.shake sid op, 7, 1), (Instr.crc sid op, 7, 2), (Instr.verify sid op, 7, 3), (Instr.sort sid op, 8, 1),
    (Instr.merge sid op, 8, 2), (Instr.reduce sid op, 9, 1), (Instr.broadcast sid op, 9, 2), (Instr.nodeAdd sid op, 10, 1)] →
  s.Ready sid op cls code o →
  ∃ t, exec c s = .next t ∧ (t.opRun sid op).phase = .running ∧
    (t.opRun sid op).items.map (fun x => x.index) = List.range o.itemCount ∧
    (t.opRun sid op).items.all (fun x => !x.finished) = true ∧ t.mem = (s.started sid o).mem ∧ t.sent = s.sent

/-- ENGINE_ITEM_COMPLETE AND ENG_SVC_WRITE: an engine's item in flight is finished; the op is computed exactly when all its
items are. A first disagreement of an engine's check executes the item again, sets REEXEC in the op's flags and writes
nothing. An accepted ENG_SVC value of which every kind keeps an engine is the register's new value, and on a die that runs
no slot nothing else changes; firmware's value that leaves a kind without an engine is rejected as out of range and the
die's slot is to move; another path's is rejected (R175, R177, R183, R303). COMPLETES HERE, with an answered next state of
its own effect for every state and operands that meet the conditions: engineItemComplete, engSvcWrite. -/
def Obligations.EnginesComplete : Prop :=
  (∀ (s : State) (sid op item e : Nat) (o : Op) (x : WorkItem), sid < 60 →
   s.liveOp sid op = some o → o.index = op → o.xrep = false →
   (o.cls = 13 → s.mem.farLost.contains o.farPort = false) → (s.opRun sid op).phase = .running →
   (s.opRun sid op).items.find? (fun y => y.index == item && y.taken && !y.finished && y.engine == e) = some x →
   (∃ t, exec (.engineItemComplete sid op item e false) s = .next t ∧
     (∀ y ∈ (t.opRun sid op).items, y.index = item → y.finished = true) ∧
     ((t.opRun sid op).phase = .computed ↔ ∀ y ∈ (s.opRun sid op).items, y.index ≠ item → y.finished = true) ∧
     t.ldg = s.ldg ∧ t.sent = s.sent ∧ t.plan = s.plan) ∧
   (x.retried = false → ∃ t, exec (.engineItemComplete sid op item e true) s = .next t ∧
     t.opRun sid op = { s.opRun sid op with
       items := setItem (s.opRun sid op).items { x with retried := true }, flags := Nat.lor (s.opRun sid op).flags 1,
       reexec := (s.opRun sid op).reexec + 1 } ∧ t.mem = s.mem ∧ t.units = s.units)) ∧
  (∀ (s : State) (p : Path) (die : Nat) (v : Word), die < 48 → s.dieGone die = false →
   let kinds : List (Nat × Nat) := [(15, 0), (23, 16), (31, 24), (35, 32), (39, 36), (41, 40), (43, 42)]
   (s.checkWrite p die 0x0D 0x040 v = none → (s.wr die 0x0D 0x040 v).dieSlot die = none →
     (∀ f ∈ kinds, fld v f.1 f.2 ≠ 0) ∧ exec (.engSvcWrite p die v) s = .next (s.wr die 0x0D 0x040 v)) ∧
   (s.checkWrite .firmware die 0x0D 0x040 v = some 1 → (∃ f ∈ kinds, fld v f.1 f.2 = 0) →
     exec (.engSvcWrite .firmware die v) s = .next ((s.reject die 0x0D 0x040 1).moveSlot die)) ∧
   (p ≠ .firmware → ∀ r, s.checkWrite p die 0x0D 0x040 v = some r →
     exec (.engSvcWrite p die v) s = .next (s.reject die 0x0D 0x040 r)))

/-- TRANSFERS START: a ready PUT that no deferral names sends its segments and is computed; a ready GET counts the bytes it
awaits, requests its segments through the stream tracker and is computed; a ready FAR_READ or FAR_WRITE on an available port
has all its items in flight (R44, R214, R254, R501). COMPLETES HERE, with an answered next state of its own effect for every
state and operands that meet the conditions: put, get, farRead, farWrite. -/
def Obligations.TransfersStart : Prop := ∀ (s : State) (sid op : Nat) (o : Op), sid < 60 →
  (s.Ready sid op 0x0B 1 o →
    let t := s.started sid o
    t.deferFor o (t.slot sid).step = none →
    exec (.put sid op) s = .next ((t.sendPut sid o (t.putData sid o) false).finish sid o 0)) ∧
  (s.Ready sid op 0x0B 2 o →
    let t := s.started sid o
    let t := { t with net := { t.net with fetches := t.net.fetches ++ [(sid, op, o.bytes 0, o.bytes 0)] } }
    exec (.get sid op) s = .next ((forEach (t.getMsgs sid o) (fun m u =>
      u.request { die := u.slotDie sid, unit := o.unit, sid := sid, op := op, seg := m.seg, target := m.addr, count := m.aux,
                  tag := m.gen } m) t).finish sid o 0)) ∧
  (∀ c code, (c, code) ∈ [(Instr.farRead sid op, 1), (Instr.farWrite sid op, 2)] → s.Ready sid op 0x0D code o →
    (s.started sid o).mem.farLost.contains o.farPort = false →
    ∃ t, exec c s = .next t ∧ (t.opRun sid op).phase = .running ∧ (t.opRun sid op).items.length = o.itemCount ∧
      (t.opRun sid op).items.all (fun x => x.taken && !x.finished) = true ∧
      t.mem = { (s.started sid o).mem with farOps := (s.started sid o).mem.farOps ++ [(sid, op, false)] })

/-- RESLICE: with the hallmarks of all source tiles in order, every tile of the destination that a named ingot supplies is
copied to its place, its hallmark is written with tag step M, the restore report takes the tiers and the narrowing of the
ingots used, and the op is computed; a source tile whose hallmark fails makes its ingot's copy invalid and is recorded as a
deferred HALLMARK_FAIL (R380, R309). COMPLETES HERE, with an answered next state of its own effect for every state and
operands that meet the conditions: reslice. -/
def Obligations.ResliceCopies : Prop := ∀ (s : State) (sid op : Nat) (o : Op), sid < 60 → s.Ready sid op 0x0C 1 o →
  let t := s.started sid o
  let d := (o.opnd 0).shape
  let m := wordStep (o.pword 2)
  let grid := (List.range (shBatch d)).flatMap (fun b => (List.range (cdiv (shRows d) 32)).flatMap (fun r =>
    (List.range (shTc d)).map (fun c => (b, r, c))))
  let tiles := grid.map (fun g => t.resliceTile o (t.resliceSrcs o) g.1 g.2.1 g.2.2)
  let bad := tiles.findSome? (fun x => match x with
    | some (y, i, _) => if t.resliceOk y m i then none else some y.ingot
    | none => none)
  let a := (o.opnd 0).addr
  let st := (t.slot sid).step
  let u := forN tiles.length (fun i v => match tiles.getD i none with
    | some (_, _, bs) => v.writeLoc ((v.resolve (t.slotDie sid) st a).add (i * tileBytes (shFmt d))) bs
    | none => v) t
  let w := match findTensor (u.tensors sid false) a (o.bytes 0) with
    | none => u
    | some x => forEach (x.touched (aPlain a) (o.bytes 0)) (fun i v => v.tileSeal (t.slotDie sid) st x (ppOf a) i m) u
  (bad = none → exec (.reslice sid op) s = .next
    ((w.resliced (tiles.filterMap (fun x => x.map (fun y => y.1.ingot))).eraseDups).finish sid o 0)) ∧
  (∀ pa, bad = some pa → exec (.reslice sid op) s = .next
    ((t.badBay (pa / stackBytes) (pa % stackBytes)).raiseAs (t.slotDie sid) 0x0411 2 { typ := 0x12, op := op }))

/-- STRAND INSTRUCTIONS COMPLETE: on a strand of a core each instruction reads its sources, writes DST with its result and
gathers DIVZERO and VU_OVF into the strand's flags: the IEEE 754 operations and the elementary functions with one rounding,
NEG and ABS on the sign bit alone, MAX and MIN with -0 below +0, comparisons that are 1.0 or +0, SELECT by C, and RAND as
the draw of the strand's element (R157 to R159, R162). COMPLETES HERE, with an answered next state of its own effect for
every state and operands that meet the conditions: add, sub, mul, fma, div, sqrt, rsqrt, neg, abs, max, min, cmplt, cmple,
cmpeq, select, exp, expm1, log, log1p, tanh, sigmoid, erf, gelu, rand, mov. -/
def Obligations.StrandInstructionsComplete : Prop := ∀ (s : State) (core n d a b c seq : Nat),
  core < 192 → n < 8192 → d < 16 → a < 16 → b < 16 → c < 16 →
  let k := core * 8192 + n
  let x := s.strand k
  let va := x.reg a
  let vb := x.reg b
  let vc := x.reg c
  let put (v : Word) (f : Nat) : State := s.setStrand k { x.setReg d v with flags := Nat.lor x.flags f }
  let fn (r : FRes) : State := put r.val (flagBit r.divz 1 + flagBit r.ovf 0)
  let cmp (f : Int → Int → Bool) : Word := if isNan64 va || isNan64 vb then 0 else if f (cmpKey va) (cmpKey vb) then one64 else 0
  exec (.add core n d a b) s = .next (put (add64f va vb).1 (flagBit (add64f va vb).2 0)) ∧
  exec (.sub core n d a b) s = .next (put (sub64f va vb).1 (flagBit (sub64f va vb).2 0)) ∧
  exec (.mul core n d a b) s = .next (put (mul64f va vb).1 (flagBit (mul64f va vb).2 0)) ∧
  exec (.fma core n d a b c) s = .next (put (fma64f va vb vc).1 (flagBit (fma64f va vb vc).2 0)) ∧
  exec (.div core n d a b) s = .next (fn (div64 va vb)) ∧
  exec (.sqrt core n d a) s = .next (fn (sqrt64 va)) ∧
  exec (.rsqrt core n d a) s = .next (fn (rsqrt64 va)) ∧
  (isNan64 va = false → exec (.neg core n d a) s = .next (put (va ^^^ 0x8000_0000_0000_0000) 0)) ∧
  (isNan64 va = false → exec (.abs core n d a) s = .next (put (va &&& 0x7FFF_FFFF_FFFF_FFFF) 0)) ∧
  (isNan64 va = false → isNan64 vb = false →
    exec (.max core n d a b) s = .next (put (if ordKey vb ≤ ordKey va then va else vb) 0) ∧
    exec (.min core n d a b) s = .next (put (if ordKey va ≤ ordKey vb then va else vb) 0)) ∧
  exec (.cmplt core n d a b) s = .next (put (cmp (fun x y => x < y)) 0) ∧
  exec (.cmple core n d a b) s = .next (put (cmp (fun x y => x ≤ y)) 0) ∧
  exec (.cmpeq core n d a b) s = .next (put (cmp (fun x y => x = y)) 0) ∧
  exec (.select core n d a b c) s = .next
    (put (let v := if isNan64 vc = false ∧ cmpKey vc ≠ 0 then va else vb; if isNan64 v then nan64 else v) 0) ∧
  exec (.exp core n d a) s = .next (fn (exp64 va)) ∧
  exec (.expm1 core n d a) s = .next (fn (expm164 va)) ∧
  exec (.log core n d a) s = .next (fn (log64 va)) ∧
  exec (.log1p core n d a) s = .next (fn (log1p64 va)) ∧
  exec (.tanh core n d a) s = .next (fn (tanh64 va)) ∧
  exec (.sigmoid core n d a) s = .next (fn (sigmoid64 va)) ∧
  exec (.erf core n d a) s = .next (fn (erf64 va)) ∧
  exec (.gelu core n d a) s = .next (fn (gelu64 va)) ∧
  (isNan64 va = false → exec (.mov core n d a) s = .next (put va 0)) ∧
  exec (.rand core n d seq) s = .next
    (s.setStrand k (x.setReg d (randVal { job := s.jobId, step := x.step, tensor := x.tensor } x.row x.col seq)))

/-- STRANDS, NAN AND FRAME: every instruction but CMPLT, CMPLE, CMPEQ and SELECT writes the canonical NaN when one of
its sources is NaN; and an instruction of a strand changes nothing but that strand's DST and its flags: every other
register of the strand, every other strand, and everything outside the strands read as before (R63, R156, R157). -/
def Obligations.StrandNanAndFrame : Prop :=
  (∀ (s t : State) (core n d a b c : Nat), core < 192 → n < 8192 → d < 16 → a < 16 → b < 16 → c < 16 →
   let nan (i : Nat) : Prop := isNan64 ((s.strand (core * 8192 + n)).reg i) = true
   (nan a ∨ nan b → ∀ i ∈ [Instr.add core n d a b, .sub core n d a b, .mul core n d a b, .div core n d a b, .max core n d a b,
     .min core n d a b], exec i s = .next t → (t.strand (core * 8192 + n)).reg d = 0x7FF8_0000_0000_0000) ∧
   (nan a ∨ nan b ∨ nan c → exec (.fma core n d a b c) s = .next t → (t.strand (core * 8192 + n)).reg d = 0x7FF8_0000_0000_0000) ∧
   (nan a → ∀ i ∈ [Instr.sqrt core n d a, .rsqrt core n d a, .neg core n d a, .abs core n d a, .exp core n d a,
     .expm1 core n d a, .log core n d a, .log1p core n d a, .tanh core n d a, .sigmoid core n d a, .erf core n d a,
     .gelu core n d a, .mov core n d a], exec i s = .next t → (t.strand (core * 8192 + n)).reg d = 0x7FF8_0000_0000_0000)) ∧
  (∀ (s t : State) (core n d a b c seq : Nat),
   ∀ i ∈ [Instr.add core n d a b, .sub core n d a b, .mul core n d a b, .fma core n d a b c, .div core n d a b,
     .sqrt core n d a, .rsqrt core n d a, .neg core n d a, .abs core n d a, .max core n d a b, .min core n d a b,
     .cmplt core n d a b, .cmple core n d a b, .cmpeq core n d a b, .select core n d a b c, .exp core n d a,
     .expm1 core n d a, .log core n d a, .log1p core n d a, .tanh core n d a, .sigmoid core n d a, .erf core n d a,
     .gelu core n d a, .mov core n d a, .rand core n d seq],
   exec i s = .next t →
     (∀ k, k ≠ core * 8192 + n → t.strand k = s.strand k) ∧
     (∀ j, j ≠ d → (t.strand (core * 8192 + n)).reg j = (s.strand (core * 8192 + n)).reg j) ∧
     (t.strand (core * 8192 + n)).row = (s.strand (core * 8192 + n)).row ∧
     (t.strand (core * 8192 + n)).col = (s.strand (core * 8192 + n)).col ∧
     { t with units := { t.units with strands := s.units.strands } } = s)

/-- STEP_OPEN OPENS: a slot that is ready, whose step lies in the window, needs no unannounced swap and no image, which
after its boundary work is in use, at its bin, allowed that bin and not to move, and whose frozen tensors agree, stands in
its next step; the step is then the one opened last, with the generation of its plan, no op started, and the decisions of
the deferral record are issued and applied; a slot that reopens a step does no boundary work (R42, R46, R57, R150, R332,
R351, R362). COMPLETES HERE, with an answered next state of its own effect for every state and operands that meet the
conditions: stepOpen. -/
def Obligations.StepOpens : Prop := ∀ (s : State) (sid : Nat), sid < 60 →
  let n := s.nextStep sid
  let g := s.nextGen sid
  let again := s.opensAgain sid
  s.slotReady sid = true → (again = true ∨ s.windowOpen n = true ∨ s.ckp.restoring = 2) →
  (again = true ∨ s.swapUnannounced n = false) → ((s.swapDue n).isSome = true ∨ s.genHeld g = true) →
  (s.plan.reload.contains sid && s.plan.reloadGen == g) = false →
  let t := if again = true then s else s.boundary sid n
  let die := t.slotDie sid
  let bin := t.openBin sid g
  let u := if sid < 48 then t.arraysAtBoundary die bin else t
  t.slotUsed sid = true → t.dieGone die = false → (sid < 48 → t.dieBin die = bin ∧ u.binAllowed die bin = true) →
  (again = true ∨ (u.slot sid).moveDue = false) →
  let c := (u.withGen sid g).checkAllFrozen sid n
  c.2 = true →
  exec (.stepOpen sid) s = .next (c.1.enterStep sid g n) ∧
  (c.1.opensAgain sid = false →
    let r := c.1.slot sid
    let v := ((c.1.setSlot sid { r with phase := .opened, step := n, gen := g, ops := [], replays := 0,
                                        sinceMig := if r.substituting = true then r.sinceMig + 1 else r.sinceMig }).issueDefers
              n).recordOpen sid g n
    let w := v.armObjs sid false
    c.1.enterStep sid g n = (w.openDeferrals sid n).declareDie (w.slotDie sid) false ∧ n ≤ v.ldg.newestOpened)

/-- STEP_OPEN HOLDS: a slot that may not act changes nothing; a step outside the window, a swap requested for the step and
not announced, or an image that is being loaded again holds every core of the die in a declared wait (R332, R55, R52); a
slot that reopens at another bin only refits its arrays (R42, R431). A die whose bin differs keeps its step closed, and
BIN_CHANGE then excludes a bin whose voltage exceeds 850 mV, and otherwise commands the voltage before a faster clock and
after a slower one (R431, R430). COMPLETES HERE, with an answered next state of its own effect for every state and operands
that meet the conditions: binChange. -/
def Obligations.StepHoldsAtBoundary : Prop := ∀ (s : State) (sid : Nat), sid < 60 →
  let n := s.nextStep sid
  let die := s.slotDie sid
  (s.slotReady sid = false → exec (.stepOpen sid) s = .next s) ∧
  (s.slotReady sid = true → s.opensAgain sid = false → s.ckp.restoring ≠ 2 → s.windowOpen n = false ∨ s.swapUnannounced n = true →
    exec (.stepOpen sid) s = .next (s.declareDie die true) ∧
    (sid < 48 → die < 48 → ∀ c, c < 4 → ((s.declareDie die true).core (4 * die + c)).declared = true)) ∧
  (s.slotReady sid = true → s.opensAgain sid = true →
    ((s.swapDue n).isSome = true ∨ s.genHeld (s.nextGen sid) = true) →
    ((s.plan.reload.contains sid && s.plan.reloadGen == s.nextGen sid) = true →
      exec (.stepOpen sid) s = .next (s.declareDie die true)) ∧
    ((s.plan.reload.contains sid && s.plan.reloadGen == s.nextGen sid) = false → sid < 48 →
      s.dieBin die ≠ s.openBin sid (s.nextGen sid) →
      exec (.stepOpen sid) s = .next (s.arraysAtBoundary die (s.openBin sid (s.nextGen sid))))) ∧
  (∀ d, d < 48 → s.dieSlot d = some sid → sid < 48 → s.slotReady sid = true →
    let bin := s.nextBin sid
    bin ≠ s.dieBin d → s.pwr.excluded.contains (4 * d + bin) = false →
    (850 < s.binMv d bin → exec (.binChange d) s = .next (s.excludeBin d bin)) ∧
    (s.binMv d bin ≤ 850 → bin < s.dieBin d → exec (.binChange d) s = .next ((s.command d (s.binMv d bin)).setBin d bin)) ∧
    (s.binMv d bin ≤ 850 → s.dieBin d < bin → exec (.binChange d) s = .next ((s.setBin d bin).command d (s.binMv d bin))))

/-- WAITS: a SYNC or WAIT_DECLARED op whose waits are over is computed at once; a core that waits in WAIT_DECLARED declares
its wait, and UNDECLARED_WAIT_LIMIT declares it for a core that waits in any op and runs none; an op past its budget is
recorded as BUDGET_OVERRUN once and becomes a suspect; an op whose wait has outlasted its bound becomes one (R271, R272,
R41, R403). COMPLETES HERE, with an answered next state of its own effect for every state and operands that meet the
conditions: sync, waitDeclared, budgetOverrun, undeclaredWaitLimit, waitMsExpiry. -/
def Obligations.WaitsAndSuspects : Prop := ∀ (s : State) (sid op core : Nat) (o : Op), sid < 60 →
  (s.Ready sid op 0x0E 1 o → exec (.sync sid op) s = .next ((s.started sid o).finish sid o 0)) ∧
  (s.Ready sid op 0x0E 2 o → exec (.waitDeclared sid op) s = .next ((s.started sid o).finish sid o 0)) ∧
  (s.opOf sid op 0x0E 2 = some o → o.index = op → (s.opRun sid op).phase = .waiting → o.allReleased (s.opRun sid op) = false →
    o.unit < 4 → sid < 48 → exec (.waitDeclared sid op) s = .next (s.setDeclared (s.coreOf sid o) true)) ∧
  (core < 192 → s.dieSlot (core / 4) = some sid → (s.slot sid).phase = .opened →
    (∃ x ∈ s.ops sid false, x.unit = core % 4 ∧ (s.opRun sid x.index).phase = .waiting) →
    (∀ x ∈ s.ops sid false, x.unit = core % 4 → (s.opRun sid x.index).phase ≠ .running) →
    exec (.undeclaredWaitLimit core) s = .next (s.setDeclared core true)) ∧
  (s.liveOp sid op = some o → (s.opRun sid op).phase = .running → (s.opRun sid op).overrun = false →
    (∀ p ∈ s.ctl.pulls, p.sid = sid → p.op = op → p.stage ≠ .faulted) →
    exec (.budgetOverrun sid op) s = .next
      (((s.setOp sid op { s.opRun sid op with overrun := true }).raise (s.slotDie sid) 0x0300 (opSite sid o)).addSuspect sid op)) ∧
  (s.liveOp sid op = some o → (s.opRun sid op).phase = .waiting → (sid, op) ∉ s.flt.suspects →
    exec (.waitMsExpiry sid op) s = .next
      { s with flt := { s.flt with suspects := s.flt.suspects ++ [(sid, op)] } })

/-- OP_COMPLETE, STEP_END_AUDIT AND HALLMARK_REREAD: a computed op whose transfers have ended ORs its flags into its unit's
register, writes its flag word, is done, and its signals go out; a STEP_END_AUDIT that may start, with every other op done,
every sync object of the step where it belongs and nothing unwritten in the die's SRAM, passes the slot's boundary. A tile
whose second read agrees with its hallmark is put right and recorded as CORRECTED, and nothing else changes; a second
mismatch of a tensor of the step in hand is HALLMARK_FAIL of class 3 and replays its producer's share, and of the far tier
one of class 2 (R41, R46, R47, R264, R270, R309). COMPLETES HERE, with an answered next state of its own effect for every
state and operands that meet the conditions: stepEndAudit, opComplete, hallmarkReread. -/
def Obligations.OpsAndHallmarksComplete : Prop :=
  (∀ (s : State) (sid op : Nat) (o : Op), sid < 60 →
   (s.liveOp sid op = some o → (s.opRun sid op).phase = .computed → s.transferEnded sid o = true →
     s.holdsWrites sid op = false → o.cls ≠ 0x10 → o.cls ≠ 0 → o.cls ≠ 1 →
     let r := s.opRun sid op
     let t := ((s.raiseFlags sid o r.flags).flagWord sid o r.flags).setOp sid op { r with phase := .done }
     let u := { t with
       flt := { t.flt with suspects := t.flt.suspects.filter (fun x => x != (sid, op)) },
       net := { t.net with fetches := t.net.fetches.filter (fun f => !(f.1 == sid && f.2.1 == op)) } }
     exec (.opComplete sid op) s = .next (u.sync (u.signalActs sid o)).progress ∧ (u.opRun sid op).phase = .done) ∧
   (s.Ready sid op 0x10 1 o → (∀ x ∈ s.ops sid false, x.index ≠ op → (s.opRun sid x.index).phase = .done) →
     let t := s.started sid o
     t.auditObjs sid = none → (s.slotDie sid < 48 → t.residue (s.slotDie sid) = false) →
     exec (.stepEndAudit sid op) s = .next (t.passBoundary sid op)) ∧
   (s.Ready sid op 0x10 1 o → (∃ x ∈ s.ops sid false, x.index ≠ op ∧ (s.opRun sid x.index).phase ≠ .done) →
     exec (.stepEndAudit sid op) s = .next s)) ∧
  (∀ (s : State) (sid op i tile : Nat) (second : List Byte) (o : Op) (t : Tensor),
   sid < 60 → s.liveOp sid op = some o → s.badTile sid o i tile = some t →
   let die := s.slotDie sid
   let r := s.slot sid
   let bs := bytesAt second 0 (tileBytes t.fmt)
   let place := s.tilePlace sid o i t tile
   let x : Site := { typ := 0x01, op := o.index, eclass := o.cls,
                     detail := BitVec.ofNat 64 (t.base + tile * tileBytes t.fmt) }
   (place.2 = hallmark bs t.id tile (t.tagRead r.step) → exec (.hallmarkReread sid op i tile second) s = .next
     ((s.writeLoc place.1 bs).raise die 0x0410 (opSite sid o))) ∧
   (place.2 ≠ hallmark bs t.id tile (t.tagRead r.step) → (o.retain = false ∨ i ≠ 0) → r.replays = 0 →
     (aSpace t.base ≠ 3 → t.mode = 0 → exec (.hallmarkReread sid op i tile second) s = .next
       ((s.raiseAs die 0x0411 3 x).replayProducer sid t)) ∧
     (aSpace t.base = 3 → exec (.hallmarkReread sid op i tile second) s = .next (s.raiseAs die 0x0411 2 x))))

/-- FLIT_TRANSMIT AND THE RETRY BUFFER: on a port that is UP a flit to be sent again goes first and is counted and recorded
as a CONTAINED fault; otherwise, with room in the retry buffer, the VC that may send gives its oldest ready DATA flit, which
takes the next SEQ and is kept for retry; otherwise an IDLE flit goes out. A VC that is picked has a ready flit and a
credit, and VC.3 comes first below its cap. An ACK of an outstanding SEQ takes that flit and all earlier ones out of the
buffer and keeps the later ones; a NAK takes the earlier ones out and sends that flit and all later ones again; a SEQ that
is not outstanding changes nothing (R226, R227, R229, R230). COMPLETES HERE, with an answered next state of its own effect
for every state and operands that meet the conditions: flitTransmit. -/
def Obligations.FlitsAndRetryBuffer : Prop :=
  (∀ (s : State) (p : Nat), p < 50 → s.portPhase p = 5 →
   let x := s.port p
   (∀ f fs, x.resend = f :: fs → exec (.flitTransmit p) s = .next
     ((((s.setPort p { x with resend := fs }).portBump p 0xC18).txFlit p f).raise (brzDie p) 0x0600
       { typ := if p < 48 then 0x10 else 0x11, inst := if p < 48 then p % 6 else p - 48 })) ∧
   (∀ vc f fs, x.resend = [] → x.retry.length < 2048 → s.pickVc p = some vc → x.ready.getD vc [] = f :: fs →
     let wrap := decide (x.slot + 1 = 1024)
     let g := { f with seq := x.txSeq }
     let y := { x with
       ready := listSet x.ready vc fs, txSeq := (x.txSeq + 1) % 4096, retry := x.retry ++ [g],
       sent := listSet x.sent vc (x.sent.getD vc 0 + 1), slot := if wrap then 0 else x.slot + 1,
       slotSent := if wrap then [0, 0, 0, 0, 0] else listSet x.slotSent vc (x.slotSent.getD vc 0 + 1) }
     exec (.flitTransmit p) s = .next (((s.setPort p y).portBump p (0xC38 + 8 * vc)).txFlit p g)) ∧
   (x.resend = [] → (2048 ≤ x.retry.length ∨ s.pickVc p = none) →
     exec (.flitTransmit p) s = .next (s.txFlit p (s.idleFlit p))) ∧
   (∀ vc, s.pickVc p = some vc → vc < 5 ∧ x.ready.getD vc [] ≠ [] ∧ 0 < x.credits p vc) ∧
   (x.ready.getD 3 [] ≠ [] → 0 < x.credits p 3 → x.slotSent.getD 3 0 < s.vcShare p 3 → s.pickVc p = some 3)) ∧
  (∀ (x : PortState) (a b : List Flit) (g : Flit) (n : Nat),
   (∀ f ∈ a, f.seq ≠ g.seq) → x.retry = a ++ g :: b →
   (x.acked g.seq).retry = b ∧ (∀ f ∈ (x.acked g.seq).resend, f.seq ≠ g.seq ∧ f ∈ x.resend) ∧
   (g.seq ≠ x.txSeq → (∀ f ∈ x.resend, f.seq ≠ g.seq) →
     (x.naked g.seq).retry = g :: b ∧ (x.naked g.seq).resend = g :: b) ∧
   ((x.naked x.txSeq).retry = [] ∧ (x.naked x.txSeq).resend = []) ∧
   ((∀ f ∈ x.retry, f.seq ≠ n) → x.acked n = x ∧ (n ≠ x.txSeq → x.naked n = x)))

/-- FLITS ARRIVE: at a port that is UP a bad flit is discarded and a NAK names the expected SEQ; a flit of another EPOCH is
discarded and counted; otherwise the ACK or NAK and the credits it carries act, a DATA flit with the expected SEQ is
accepted and the next is expected, and another is discarded with one NAK. An accepted flit that waits for its ACK 200 ns
sends it; a NAK that waits goes in its place (R225 to R229). COMPLETES HERE, with an answered next state of its own effect
for every state and operands that meet the conditions: dataFlit, ack, nak, ackIntervalTimer. -/
def Obligations.FlitReception : Prop := ∀ (s : State) (p : Nat) (f : Flit), p < 50 → s.portPhase p = 5 →
  let b := s.countFec p f
  let bad := b.flitBad p
  let t := b.setPort p ((b.port p).header f)
  let y := t.port p
  (portError p f = true → exec (.dataFlit p f) s = .next bad ∧ (bad.port p).discarding = true ∧
    (bad.port p).pendAck = (2, (s.port p).rxSeq)) ∧
  (portError p f = false → f.epoch ≠ b.epoch p → exec (.dataFlit p f) s = .next (b.portBump p 0xC30)) ∧
  (portError p f = false → f.epoch = b.epoch p →
    (f.typ = 1 → f.seq = y.rxSeq →
      exec (.dataFlit p f) s = .next (t.acceptFlit p f) ∧ ((t.acceptFlit p f).port p).rxSeq = (y.rxSeq + 1) % 4096) ∧
    (f.typ = 1 → f.seq ≠ y.rxSeq → exec (.dataFlit p f) s = .next
      (t.setPort p { y with discarding := true, pendAck := if y.discarding then y.pendAck else (2, y.rxSeq) })) ∧
    (f.typ ≠ 1 → exec (.dataFlit p f) s = .next t ∧ (f.ackk = 1 → exec (.ack p f) s = .next t) ∧
      (f.ackk = 2 → exec (.nak p f) s = .next t))) ∧
  (0 < (s.port p).unacked → exec (.ackIntervalTimer p) s = .next
    ((s.setPort p { s.port p with
      pendAck := if (s.port p).pendAck.1 = 2 then (s.port p).pendAck else (1, ((s.port p).rxSeq + 4095) % 4096) }).txFlit p
      (s.idleFlit p)))

/-- PORTS COME UP: ENABLE starts LIGHT_WAIT and asks for light, or TEST without light in loopbacks L0 and L1; light leads to
training, two trained lanes each way to alignment, alignment to IDENT flits, and the right peer's IDENT to UP with the
greater EPOCH plus one; another peer is reported. A port with ECHO_OK returns an echo flit unchanged, and an echo that is
not answered in time is counted; in loopbacks L0 to L2 each flit slot compares 2,048 bits; a bounded state that is not left
in time goes DOWN with its reason, as do loss of signal and a cleared ENABLE; a DOWN port with ENABLE set restarts (R234 to
R240). COMPLETES HERE, with an answered next state of its own effect for every state and operands that meet the conditions:
brzEnableSet, brzEnableClear, lightReady, trainDone, alignDone, ident, echo, echoTimeout, brzStateTimeout, lossOfSignal,
brzPortRestart. -/
def Obligations.PortBringUp : Prop := ∀ (s : State) (p : Nat), p < 48 →
  let die := brzDie p
  let blk := brzBlk p
  (s.portPhase p = 0 → s.flt.hold = false → s.portAwake p = true →
    let t := s.setField die blk 0x040 16 16 1
    ((t.loopSel p = 1 ∨ t.loopSel p = 2) → exec (.brzEnableSet p) s = .next (t.setPhase p 2)) ∧
    (t.loopSel p = 0 → t.field die blk 0x048 23 8 ≠ 0xFFFF →
      exec (.brzEnableSet p) s = .next ((t.requestLight p).setPhase p 1) ∧
      (s.enabled p = true → exec (.brzPortRestart p) s = .next ((t.requestLight p).setPhase p 1)))) ∧
  exec (.brzEnableClear p) s = .next (((s.setField die blk 0x040 16 16 0).portDown p 1).releaseLight p) ∧
  (s.portPhase p = 1 → exec (.lightReady p) s = .next (s.setPhase p 2)) ∧
  (∀ tx rx, s.portPhase p = 2 →
    let h := s.setHealth p tx rx
    2 ≤ (lanesOf (h.txHealthy p)).length → 2 ≤ (lanesOf rx).length →
    let t := h.setPhase p 3
    exec (.trainDone p tx rx false) s = .next (t.setPort p { t.port p with margins := true })) ∧
  (s.portPhase p = 3 → 1 ≤ s.loopSel p → s.loopSel p ≤ 3 → exec (.alignDone p) s = .next (s.setPhase p 8)) ∧
  (s.portPhase p = 3 → s.loopSel p = 0 → exec (.alignDone p) s = .next (transmit p (s.setPhase p 4))) ∧
  (s.portPhase p = 8 → s.loopSel p ≠ 4 → exec (.flitTransmit p) s = .next
    ((({ s with free := s.free + 1 } : State).portBump p 0xC68 2048).portBump p 0xC60 (Config.prbsErrors s.free p % 2049))) ∧
  (∀ f : Flit, s.portPhase p = 4 → portError p f = false → f.typ = 2 →
    let m := natAt f.payload 0 2
    let q := natAt f.payload 2 1
    let t := ((s.countFec p f).setField die blk 0x070 23 8 m).setField die blk 0x070 5 0 q
    t.loopSel p ≠ 4 →
    (m = t.field die blk 0x048 23 8 → q = t.field die blk 0x048 5 0 → exec (.ident p f) s = .next
      (((t.setField die blk 0x060 37 32 ((Nat.max (t.epoch p) (natAt f.payload 3 1) + 1) % 64)).setField die blk 0x060 7 0 0).goUp p)) ∧
    (m ≠ t.field die blk 0x048 23 8 → exec (.ident p f) s = .next ((t.setPhase p 9).event 0x0031 p 0 0))) ∧
  (∀ f : Flit, f.typ = 3 → s.portPhase p ≠ 8 → s.field die blk 0x040 15 15 = 1 → flitError f = false → f.epoch = s.epoch p →
    exec (.echo p f) s = .next ((receive p f s).send (.flit p f))) ∧
  (0 < (s.port p).echoes → exec (.echoTimeout p) s = .next
    ((s.setPort p { s.port p with echoes := (s.port p).echoes - 1 }).portBump p 0xC60)) ∧
  (s.portPhase p = 1 → exec (.brzStateTimeout p) s = .next (s.portDown p 3)) ∧
  ((s.portPhase p = 2 ∨ s.portPhase p = 3 ∨ s.portPhase p = 4) → exec (.brzStateTimeout p) s = .next (s.portDown p 4)) ∧
  ((s.portPhase p = 6 ∨ s.portPhase p = 7) → exec (.brzStateTimeout p) s = .next (s.portDown p 5)) ∧
  ((s.portPhase p = 5 ∨ s.portPhase p = 6 ∨ s.portPhase p = 7) → exec (.lossOfSignal p) s = .next (s.portDown p 2))

/-- WIDTHS AND RETRAINING: with fewer healthy lanes than the least width the port goes DOWN with reason 6; in RETRAIN the
health of its lanes is only noted; a port that is UP and loses a lane that it uses changes width at once, and otherwise
stays UP and notes whether it may widen; a finished change brings it UP on its lanes, resends, is counted and recorded
CONTAINED; loss of codeword lock and a SEQ NAKed RETRY_LIM times lead to RETRAIN, whose end brings it UP again with its
retry buffer resent. A laser input below 16 dBm is a CONTAINED fault and darkens its lanes, and a repeated reading changes
nothing (R227, R232 to R234, R238, R241, R20, R21). COMPLETES HERE, with an answered next state of its own effect for every
state and operands that meet the conditions: retryLimReached, laneHealthChange, laserInput, widthChangeDone,
codewordLockLost, retrainDone. -/
def Obligations.WidthsAndRetraining : Prop := ∀ (s : State) (p : Nat), p < 48 →
  let site : Site := { typ := 0x10, inst := p % 6 }
  (∀ tx rx,
    let t := s.setHealth p tx rx
    let curT := t.laneMask p 0
    let curR := t.laneMask p 1
    let newT := nextLanes p curT (t.txHealthy p)
    let newR := nextLanes p curR (t.laneMask p 3)
    let u := t.setPort p { t.port p with
      rewiden := couldWiden p newT (t.txHealthy p) || couldWiden p newR (t.laneMask p 3) }
    ((t.portPhase p = 5 ∨ t.portPhase p = 6 ∨ t.portPhase p = 7) → t.tooNarrow p = true →
      exec (.laneHealthChange p tx rx) s = .next (t.portDown p 6)) ∧
    (t.portPhase p = 6 → t.tooNarrow p = false → exec (.laneHealthChange p tx rx) s = .next t) ∧
    (t.portPhase p = 5 → t.tooNarrow p = false →
      (newT = curT → newR = curR → exec (.laneHealthChange p tx rx) s = .next u) ∧
      (newT ≠ curT ∨ newR ≠ curR → exec (.laneHealthChange p tx rx) s = .next
        ((u.setPort p { u.port p with newTx := newT, newRx := newR }).setPhase p 7)))) ∧
  (s.portPhase p = 7 →
    let t := (((s.setPhase p 5).useLanes p (s.port p).newTx (s.port p).newRx).resendAll p).portBump p 0xC28
    exec (.widthChangeDone p) s = .next (((t.raise (brzDie p) 0x0601 site).widthEvent p).flushWaiting)) ∧
  ((s.portPhase p = 5 ∨ s.portPhase p = 7) →
    exec (.codewordLockLost p) s = .next ((s.setPhase p 6).portBump p 0xC20) ∧
    (s.field (brzDie p) (brzBlk p) 0x058 31 28 ≤ (s.port p).nakCount → exec (.retryLimReached p) s = .next
      (((s.setPort p { s.port p with nakCount := 0 }).setPhase p 6).portBump p 0xC20))) ∧
  (s.portPhase p = 6 →
    (s.tooNarrow p = true → exec (.retrainDone p) s = .next (s.portDown p 6)) ∧
    (s.tooNarrow p = false → exec (.retrainDone p) s = .next ((((s.setPhase p 5).applyWidth p).resendAll p).flushWaiting))) ∧
  (∀ die engine input dbm, 48 ≤ die → die < 56 → engine < 2 → input < 4 →
    let e := 2 * (die - 48) + engine
    (s.link.dark.contains (4 * e + input) = decide (dbm < 160) → exec (.laserInput die engine input dbm) s = .next s) ∧
    (s.link.dark.contains (4 * e + input) = false → dbm < 160 →
      let t := { s with link := { s.link with dark := NSet.add s.link.dark (4 * e + input) } }
      exec (.laserInput die engine input dbm) s = .next (forEach (enginePorts e)
        (fun q u => laneHealth q (u.port q).txFound (u.laneMask q 3) u) (t.laserFault e input))))

/-- MESSAGES THAT CARRY DATA: at a link die a WRITE without a sync object lands and is answered, one with an object arrives
at it, and one for a slot in replay or whose stack cannot be reached is answered RETRY; a FETCH is answered with the bytes
at its address; a FETCH_DATA of an outstanding GET arrives at its local object, and an unmatched one is dross; a COMPLETE
ends its segment with DONE or STALE, marks it for a resend with RETRY, and leaves it with REFUSED (R245, R246, R254, R264 to
R266, R351). COMPLETES HERE, with an answered next state of its own effect for every state and operands that meet the
conditions: write, fetch, fetchData, complete. -/
def Obligations.DataMessages : Prop := ∀ (s : State) (die : Nat) (m : Msg), 48 ≤ die → die < 56 → m.dst = s.moduleId →
  m.flags % 2 = 0 → s.isDross m = false →
  (m.kind = 1 → (m.vc = 0 ∨ m.vc = 2 ∨ m.vc = 4) →
    let sid := aSlot m.addr
    let u := if sid < 48 then s.wakeModule else s
    u.inMirror m = false → m.len ≤ 65536 →
    let replays := (u.slot sid).phase = .replaying ∨
      (aSpace m.addr = 1 ∧ u.slotUsed sid = true ∧ sid < 48 ∧ u.slotReach sid = false)
    (replays → exec (.write die m) s = .next (u.answer die m 1)) ∧
    (¬ replays → u.net.seen.contains (m.src, m.xfer, sid * 2 ^ 32 + m.seg, m.step) = true →
      exec (.write die m) s = .next (u.answer die m 0)) ∧
    (¬ replays → u.net.seen.contains (m.src, m.xfer, sid * 2 ^ 32 + m.seg, m.step) = false → u.canLand m = true →
      (m.sync = 0 → exec (.write die m) s = .next ((u.land m).landed die m)) ∧
      (m.sync ≠ 0 → (u.obj (u.msgKey die m)).deferral = 0 → exec (.write die m) s = .next (u.sync [.arrive
        { key := u.msgKey die m, step := m.step, gen := (SyncRef.mk m.sync).gen, amount := m.len, isData := true,
          first := m.seg == 0, msg := some m, die := die }])))) ∧
  (m.kind = 2 → m.vc = 0 → 0 < m.aux → m.aux ≤ 65536 → m.len = 8 → aSpace m.addr = 1 → aSlot m.addr < 48 →
    xValid (s.xlat (aSlot m.addr)) = true → s.slotReach (aSlot m.addr) = true →
    s.poisonLoc (s.resolve die m.step m.addr) m.aux = false →
    exec (.fetch die m) s = .next ((s.access die m.addr (s.resolve die m.step m.addr) m.aux false).sendMsg die
      { dst := m.src, src := s.moduleId, kind := 3, gen := s.dieTag die, step := m.step, xfer := m.xfer, seg := m.seg,
        len := m.aux, addr := natAt m.data 0 8, sync := m.sync, data := s.readLoc (s.resolve die m.step m.addr) m.aux, vc := 1 })) ∧
  (m.kind = 3 → m.vc = 1 → m.sync ≠ 0 →
    let lsid := xferSid m.xfer
    let r : SyncRef := ⟨m.sync⟩
    let waits := ∃ f ∈ s.net.fetches, f.1 = lsid ∧ f.2.1 = xferOp m.xfer ∧ m.len ≤ f.2.2.2 ∧ f.2.2.2 ≠ 0
    (¬ waits → exec (.fetchData die m) s = .next (s.countDross die)) ∧
    (waits → s.canLand m = true → exec (.fetchData die m) s = .next (s.sync [.arrive
      { key := if r.scope = 2 then objKey (s.slotDie lsid) 2 0 r.obj else s.msgKey die m, step := m.step, gen := r.gen,
        amount := m.len, isData := true, first := m.seg == 0, msg := some m, die := die, op := xferOp m.xfer }]))) ∧
  (m.kind = 4 → m.vc = 1 →
    let hit (g : Segment) : Bool :=
      !g.done && !g.retry && g.msg.xfer == m.xfer && g.msg.seg == m.seg && g.msg.dst == m.src && decide (g.msg.step = m.step)
    let rest := s.net.segments.eraseP hit
    let ended (g : Segment) (l : List Segment) : State := ({ s with net := { s.net with segments := l } }).untrack
      (fun x => x.sid == g.sid && x.op == g.op && x.seg == m.seg)
    (s.net.segments.find? hit = none → exec (.complete die m) s = .next (s.countDross die)) ∧
    (∀ g, s.net.segments.find? hit = some g → g.sid < 60 → g.tag = s.dieTag (s.slotDie g.sid) →
      (m.aux % 256 = 1 → exec (.complete die m) s = .next
        { s with net := { s.net with segments := rest ++ [{ g with retry := true }] } }) ∧
      ((m.aux % 256 = 0 ∨ m.aux % 256 = 2) → exec (.complete die m) s = .next
        ((ended g rest).putAnswered g.sid g.op m.step)) ∧
      (3 ≤ m.aux % 256 → exec (.complete die m) s = .next (ended g (rest ++ [{ g with done := true }])))))

/-- MESSAGES ROUTED AND TIMED: a message for another module is forwarded with one hop less, or recorded and dropped at its
last hop; a message on a VC its kind may not use is answered REFUSED; a RESEND waits for the down-list of its original port,
and against the list a duplicate WRITE is answered DONE and any other message is accepted. A segment answered RETRY is sent
again; messages that have waited 1 ms for a port are a fault of their link die, and so is a VC.3 gap; a DOWN port's list is
kept and its held RESEND messages judged by it; a RESEND held too long is discarded and its slot's share replayed; an
accepted write of DIE_RT_DATA sets the route entry that DIE_RT_SEL names and lets waiting messages leave (R245, R247 to
R250, R252, R253, R266). COMPLETES HERE, with an answered next state of its own effect for every state and operands that
meet the conditions: segmentRetryResend, routeWaitTimeout, vc3GapTimeout, downList, resendHoldTimeout, dieRtDataWrite. -/
def Obligations.MessagesRoutedAndTimed : Prop :=
  (∀ (s : State) (die k : Nat) (m : Msg) (c : Instr), 48 ≤ die → die < 56 →
   (c, k) ∈ [(Instr.write die m, 1), (Instr.fetch die m, 2), (Instr.fetchData die m, 3), (Instr.complete die m, 4),
     (Instr.arrive die m, 5), (Instr.release die m, 6)] → m.kind = k →
   (m.dst ≠ s.moduleId → m.hops = 0 → exec c s = .next (s.raise die 0x0110 { typ := 0x01 })) ∧
   (m.dst ≠ s.moduleId → m.hops ≠ 0 → exec c s = .next (s.sendMsg die { m with hops := m.hops - 1 })) ∧
   (m.dst = s.moduleId → (k, m.vc) ∉ [(1, 0), (1, 2), (1, 4), (2, 0), (3, 1), (4, 1), (5, 3), (6, 3)] →
     exec c s = .next (s.answer die m 3)) ∧
   (m.dst = s.moduleId → (k, m.vc) ∈ [(1, 0), (1, 2), (1, 4), (2, 0), (3, 1), (4, 1)] → m.flags % 2 = 1 →
     (s.downList (m.flags / 4 % 64) = none →
       exec c s = .next { s with net := { s.net with held := s.net.held ++ [(die, m)] } }) ∧
     (∀ l, s.downList (m.flags / 4 % 64) = some l →
       ((m.xfer, m.src, m.seg) ∈ l → exec c s = .next (if k = 1 then s.answer die m 0 else s)) ∧
       ((m.xfer, m.src, m.seg) ∉ l → exec c s = .next (s.accept die m))))) ∧
  (∀ (s : State) (die : Nat), 48 ≤ die → die < 56 →
   (∀ (xfer seg : Nat) (g : Segment),
     let hit (g : Segment) : Bool := g.retry && g.msg.xfer == xfer && g.msg.seg == seg
     s.net.segments.find? hit = some g → g.sid < 60 → exec (.segmentRetryResend xfer seg) s = .next
       (({ s with net := { s.net with segments := s.net.segments.eraseP hit ++ [{ g with retry := false }] } }).sendMsg
         (s.slotDie g.sid) g.msg)) ∧
   ((s.flushWaiting.net.waiting.any (fun e => e.1 == die)) = true →
     exec (.routeWaitTimeout die) s = .next (s.flushWaiting.raise die 0x0111 { typ := 0x01 })) ∧
   (∀ src e l, (s.pair src).early = e :: l → exec (.vc3GapTimeout src) s = .next (s.raise e.1 0x0112 { typ := 0x01 })) ∧
   (∀ p, p < 48 → s.portPhase p = 0 → s.dieGone (brzDie p) = false →
     let l := ((SMap.get (fun _ => []) s.net.accepted p).filter (fun e => decide ((s.port p).rxTotal < e.1 + 2048))).map (fun e => e.2)
     let t := { s with net := { s.net with
       downLists := SMap.put s.net.downLists p l, held := s.net.held.filter (fun e => origPort e.2 != p) } }
     exec (.downList p) s = .next
       (forEach (s.net.held.filter (fun e => origPort e.2 == p)) (fun e u => u.judgeResend e.1 e.2 l) t)) ∧
   (∀ k m, s.net.held.find? (fun e => e.1 == die) = some (k, m) →
     let t := { s with net := { s.net with held := s.net.held.eraseP (fun e => e.1 == die) } }
     (m.kind = 4 → exec (.resendHoldTimeout die) s = .next (t.replayShare (xferSid m.xfer) m.step)) ∧
     (m.kind ≠ 4 → aSpace m.addr = 1 → exec (.resendHoldTimeout die) s = .next (t.replayShare (aSlot m.addr) m.step)) ∧
     (m.kind ≠ 4 → aSpace m.addr ≠ 1 → exec (.resendHoldTimeout die) s = .next t)) ∧
   (∀ p v, s.checkWrite p die 0 0x108 v = none →
     let k := die * 2 ^ 16 + (s.sel p die 0 0x100).toNat % 2 ^ 16
     let r := SMap.set (fun _ => BitVec.ofNat 64 (2 ^ 64 - 1)) s.net.routes k v
     exec (.dieRtDataWrite p die v) s = .next (({ s with net := { s.net with routes := r } }).flushWaiting)))

/-- VC.3 IN TURN: a VC.3 message of the pair's EPOCH whose pair sequence number is next is delivered, whatever its kind:
ARRIVE and RELEASE act on their sync object, and each LEDGER type on the ledger; an early one is held, at most 64 of them;
one of an older EPOCH or of a number already delivered changes nothing but the pair (R245, R252, R268, R340). COMPLETES
HERE, with an answered next state of its own effect for every state and operands that meet the conditions: arrive, release,
checked, uncheck, seal, replay, reopen, deferReq, defer, inventory, restorePick. -/
def Obligations.Vc3InTurn : Prop := ∀ (s : State) (die : Nat) (m : Msg) (p : PairState), 48 ≤ die → die < 56 →
  m.dst = s.moduleId → m.vc = 3 → (s.pair m.src).heard (m.seg / 2 ^ 24 % 256) = some p →
  let v := s.setPair m.src p
  let q := v.pair m.src
  let u := v.setPair m.src { q with next := (q.next + 1) % 2 ^ 24 }
  let r : SyncRef := ⟨m.sync⟩
  (m.seg % 2 ^ 24 = p.next →
    (m.kind = 5 → u.isDross m = false →
      let child : Option NodeChild := if r.scope = 3 then some ⟨m.src, m.aux, 64, m.gen⟩ else none
      let t := u.sync [.arrive
        { key := u.msgKey die m, step := m.step, gen := r.gen, amount := 1, isData := false, child := child, die := die }]
      (t.pair m.src).early = [] → exec (.arrive die m) s = .next t) ∧
    (m.kind = 6 → r.scope = 3 →
      let t := u.sync [.release (u.msgKey die m) m.step r.gen]
      (t.pair m.src).early = [] → exec (.release die m) s = .next t) ∧
    (m.kind = 6 → r.scope ≠ 3 →
      let t := u.sync [.arrive { key := u.msgKey die m, step := m.step, gen := r.gen, amount := 1, isData := false, die := die }]
      (t.pair m.src).early = [] → exec (.release die m) s = .next t) ∧
    (m.kind = 7 → die = 48 → ∀ (c : Instr) (n : Nat) (t : State),
      (c, n, t) ∈ [(Instr.checked m, 1, u.ldgChecked m), (.uncheck m, 2, u.ldgUncheck m), (.seal m, 3, u.ldgSeal m),
        (.replay m, 4, u.ldgReplay m), (.reopen m, 5, u.ldgReopen m), (.deferReq m, 6, u.ldgDeferReq m),
        (.defer m, 7, u.ldgDefer m), (.inventory m, 8, u.ldgInventory m), (.restorePick m, 9, u.ldgPick m)] →
      m.aux = n → (t.pair m.src).early = [] → exec c s = .next t)) ∧
  (m.kind = 5 → m.seg % 2 ^ 24 ≠ p.next →
    let d := (m.seg % 2 ^ 24 + 2 ^ 24 - p.next) % 2 ^ 24
    (2 ^ 23 ≤ d → exec (.arrive die m) s = .next v) ∧
    (d ≠ 0 → d < 2 ^ 23 → p.early.length < 64 → (∀ e ∈ p.early, e.2.seg % 2 ^ 24 ≠ m.seg % 2 ^ 24) →
      exec (.arrive die m) s = .next (v.setPair m.src { p with early := p.early ++ [(die, m)] })))

/-- ROWS, PAGES, SELF-REFRESH AND THE FAR TIER: a clean verify read clears a watched row, and the same symbol again fails
it: a row never remapped is remapped while an entry is free, and a remapped one is retired; a scrub read that is corrected
is counted, reported and watches its row, and an uncorrectable one poisons its granule; a finished page copy moves the
page's bytes to the lowest free pool page, which serves it from then on. A stack whose channel allows it, with nothing on
its way and no copy running, enters self-refresh and shows it, and a stack in self-refresh leaves it; the first failure of a
CXL port retrains it and marks its requests for a retry, the second makes its range unavailable, ends tier 2 there and is
reported; RETRAIN is taken from firmware only, and of an available port (R202, R206 to R208, R211, R214, R499). COMPLETES
HERE, with an answered next state of its own effect for every state and operands that meet the conditions: verifyRead,
pageCopyDone, burnishRead, selfRefreshEntry, selfRefreshWake, cxlRequestTimeout, cxlLinkDown, cxlRetrain. -/
def Obligations.MemoryMaintenance : Prop :=
  (∀ (s : State) (stack page sel : Nat), stack < 48 → page < 24576 → sel < 2048 →
   let k := rowKey stack page sel
   let pk := stack * 2 ^ 15 + page
   (s.mem.asleep.contains stack = false →
     let t := s.countCorrected stack
     (∀ x, s.rowState stack page sel = .watched x →
       exec (.verifyRead stack page sel none) s = .next (s.setRow k .clean) ∧
       exec (.verifyRead stack page sel (some x)) s = .next
         (if t.remapFree stack sel then t.remapRow stack page sel else t.retireRow stack page sel) ∧
       (∀ y, y ≠ x → exec (.verifyRead stack page sel (some y)) s = .next (t.setRow k (.watched y)))) ∧
     (∀ x, s.rowState stack page sel = .remappedWatched x →
       exec (.verifyRead stack page sel none) s = .next (s.setRow k .remapped) ∧
       exec (.verifyRead stack page sel (some x)) s = .next (t.retireRow stack page sel) ∧
       (∀ y, y ≠ x → exec (.verifyRead stack page sel (some y)) s = .next (t.setRow k (.remappedWatched y))))) ∧
   (∀ pa y, pa < 48 * stackBytes → pa % stackBytes % pageBytes / 256 ≠ pageBytes / 256 - 1 →
     s.mem.asleep.contains (pa / stackBytes) = false →
     let st := pa / stackBytes
     let off := pa % stackBytes
     let b := s.bgBytes st 256
     (s.mem.poison.contains (pa / 256) = false →
       exec (.burnishRead pa none false) s = .next b ∧
       exec (.burnishRead pa (some y) false) s = .next
         (((b.msbBump st 0xC00).stackFault st 0x0500).rowCorrected st (off / pageBytes) (rowSel off) y)) ∧
     (let t := { b with mem := { b.mem with poison := NSet.add b.mem.poison (pa / 256 * 256 / 256) } }
      let g := pa / 256 * 256
      let u := (t.msbBump (g / stackBytes) 0xC08).rowFailed (g / stackBytes) (g % stackBytes / pageBytes) (rowSel (g % stackBytes))
      exec (.burnishRead pa none true) s = .next
        ((u.stackFault (g / stackBytes) 0x0501 (u.logicalOf g)).poisonRecovery g))) ∧
   (s.mem.copying.contains pk = false → exec (.pageCopyDone stack page) s = .next s) ∧
   (s.mem.copying.contains pk = true →
     (s.poolFree stack = [] → exec (.pageCopyDone stack page) s = .next
       (({ s with mem := { s.mem with copying := NSet.del s.mem.copying pk } }).pageLost stack page)) ∧
     (∀ pool, (s.poolFree stack).head? = some pool → s.ckp.guardDue.contains pk = false → s.mem.sleepDue.contains stack = false →
       let t := s.substPage stack page pool
       exec (.pageCopyDone stack page) s = .next t ∧ 24512 ≤ pool ∧ pool < 24576 ∧
       (t.mem.subst.find? (fun e => e.1 == pk)) = some (pk, pool) ∧ t.mem.copying = NSet.del s.mem.copying pk))) ∧
  (∀ (s : State) (stack xp : Nat), stack < 48 → xp < 4 →
   (s.field stack 0x0E 0x040 0 0 = 1 → s.stackQuiet stack = true →
     (s.mem.copying.any (fun k => k / 2 ^ 15 == stack) = false → exec (.selfRefreshEntry stack) s = .next
       (({ s with mem := { s.mem with
           asleep := NSet.add s.mem.asleep stack, sleepDue := NSet.del s.mem.sleepDue stack } }).setField stack 0x0E 0x048 1 1 1)) ∧
     (s.mem.copying.any (fun k => k / 2 ^ 15 == stack) = true → exec (.selfRefreshEntry stack) s = .next
       { s with mem := { s.mem with sleepDue := NSet.add s.mem.sleepDue stack } })) ∧
   (s.field stack 0x0E 0x040 0 0 = 0 → exec (.selfRefreshEntry stack) s = .next s) ∧
   (s.mem.sleepDue.contains stack = false →
     (s.mem.asleep.contains stack = true → exec (.selfRefreshWake stack) s = .next
       (({ s with mem := { s.mem with asleep := NSet.del s.mem.asleep stack } }).setField stack 0x0E 0x048 1 1 0)) ∧
     (s.mem.asleep.contains stack = false → exec (.selfRefreshWake stack) s = .next s)) ∧
   (∀ (c : Instr) (t : State), (c, t) ∈ [(Instr.cxlRequestTimeout xp, s.bump (56 + xp) 0x1F 0xC10),
       (.cxlLinkDown xp, s.setField (56 + xp) 0x1F 0x040 1 0 0)] →
     let u := t.raise (56 + xp) 0x0508 { typ := 0x12, inst := xp }
     t.mem.farLost.contains xp = false →
     (t.mem.farRetried.contains xp = false →
       let v := { u with mem := { u.mem with
         farRetried := NSet.add u.mem.farRetried xp,
         farOps := u.mem.farOps.map (fun (f : Nat × Nat × Bool) =>
           (f.1, f.2.1, f.2.2 || (t.opAt f.1 false f.2.1).farPort == xp)) } }
       exec c s = .next ((v.bump (56 + xp) 0x1F 0xC20).setField (56 + xp) 0x1F 0x040 1 0 2)) ∧
     (t.mem.farRetried.contains xp = true →
       let v := { u with mem := { u.mem with farLost := NSet.add u.mem.farLost xp } }
       let v := { v with ckp := { v.ckp with manifests := v.ckp.manifests.filter (fun m => m.1 != 2) } }
       exec c s = .next ((v.setField (56 + xp) 0x1F 0x040 1 0 3).event 0x0032 xp 0 0))) ∧
   (s.mem.farLost.contains xp = false →
     exec (.cxlRetrain .firmware xp) s = .next ((s.bump (56 + xp) 0x1F 0xC20).setField (56 + xp) 0x1F 0x040 1 0 2)) ∧
   (∀ p, p ≠ .firmware → exec (.cxlRetrain p xp) s = .next (s.reject (56 + xp) 0x1F 0x050 3)))

/-- LEDGER COMMANDS: GENESIS with a ready set, windows in order and bays that fit opens the job at step -1; its hallmarks
done, step -1 is CHECKED with the digest of the CARRIED tensors; a seal tree that does not report in time is LEDGER 0x0203;
END at a released step clears the job; REPLAY_JOB takes every slot back to the chosen unsealed step and sends one notice; a
DATA object that waited in vain asks the root for a deferral; the next deferral entry may be written outside a job; the
standby ledger die takes over, or LEDGER_LOST is recorded (R329, R339, R347 to R349, R354, R356, R362). COMPLETES HERE, with
an answered next state of its own effect for every state and operands that meet the conditions: elasticWaitExpiry, genesis,
genesisHallmarksDone, sealTreeTimeout, endJob, replayJob, ldgDeferWrite, ledgerHandover. -/
def Obligations.LedgerCommands : Prop := ∀ (s : State) (p : Path),
  (s.jobIn = false → s.field 60 0 0x380 15 15 = 0 → s.plan.shadow = .ready → s.windowsOk (some 0) = true → s.ldg.initBad = false →
    s.baysBad = false →
    let t := ((s.raiseEpoch.exchangeAtGenesis).genesisPages).clearJob
    exec (.genesis p) s = .next ((t.wr 62 0x20 0x070 t.jobId).openLedger).tier2Check ∧
    (t.wr 62 0x20 0x070 t.jobId).openLedger.ldg.job = true) ∧
  (s.ldg.genesis = 1 → s.usedSlots.filter (fun n => decide (n < 48)) = [] → s.stepRec (-1) = none →
    exec .genesisHallmarksDone s = .next { s with ldg := { s.ldg with genesis := 2, genesisDigest := digest32 [] } }) ∧
  (s.ldg.genesis = 1 →
    let comp := s.usedSlots.filter (fun n => decide (n < 48))
    let t := forEach comp (fun sid u => forEach (u.carried sid) (fun x v =>
      forN x.tiles (fun i w => w.tileSeal (w.slotDie sid) 0 x (tensorPp x) i (-1)) v) u) s
    let u := { t with ldg := { t.ldg with genesis := 2, genesisDigest := digest32 (comp.flatMap t.slotDigest) } }
    ∀ r, u.stepRec (-1) = some r →
      exec .genesisHallmarksDone s = .next (u.setRec { r with phase := .checked }).progress) ∧
  ((s.ldg.genesis = 1 ∨ s.ldg.genesis = 2) → (s.reportsOf (-1)).length < s.sealChildren →
    exec .sealTreeTimeout s = .next (({ s with ldg := { s.ldg with genesis := 3 } }).ldgFault 0x0203)) ∧
  (s.jobIn = true → s.ldg.newestOpened = s.ldg.newestReleased →
    let t := (s.clearJob.wr 62 0x20 0x070 0).wr 62 0x20 0x0A8 0
    exec (.endJob p) s = .next { t with
      ldg := { t.ldg with
        job := false, recs := [], reports := [], retained := [], genesis := 0, ownNotices := [], swaps := [], defers := [] },
      ckp := { t.ckp with narrowStep := none } }) ∧
  (let n := wordStep (s.sel p 62 0x20 0x058)
   ∀ r, s.stepRec n = some r → s.jobIn = true → s.isRoot = true → r.phase ≠ .sealed → r.phase ≠ .released →
     exec (.replayJob p) s = .next ((s.backAll n).notice 0xFF n 25 2)) ∧
  (∀ die obj, die < 64 → obj < 2 ^ 13 →
    let k := die * 2 ^ 13 + obj
    let o := s.obj k
    let r := s.slot o.sid
    s.ldgMode = true → o.sid < 48 → o.data = true → o.p = 1 → o.phase = .armed → o.count = 0 → o.reserved = 0 → o.deferral = 0 →
    (∃ w ∈ o.registered, w.gen % 256 = o.gen) →
    let d : DeferEntry := { step := r.step, gen := r.gen, sync := objRef k o.gen, dstModule := s.moduleId,
                            dstSlot := slotNum o.sid, action := 0, seq := 0 }
    let t := (s.setObj k { o with deferral := 2 }).bump 62 0x20 0xC10
    exec (.elasticWaitExpiry die obj) s = .next
      (if t.isRoot then t.rootDefer d else t.ledgerMsg t.sealParent 0x06 r.step (deferBytes d))) ∧
  (∀ v, p ≠ .mgmt → s.jobIn = false →
    let pos := (s.sel p 62 0x20 0x080).toNat
    let d := deferOf (wordBytes [s.rd 62 0x20 0x088, s.rd 62 0x20 0x090, s.rd 62 0x20 0x098, v])
    pos = s.ldg.defers.length → d.seq = pos → pos < 16384 →
    let t := { s with ldg := { s.ldg with defers := s.ldg.defers ++ [d] } }
    exec (.ldgDeferWrite p v) s = .next (t.wr 62 0x20 0x0A8 (BitVec.ofNat 64 t.ldg.defers.length))) ∧
  (s.ldg.standby = true →
    let t := { s with ldg := { s.ldg with active := 1 - s.ldg.active, standby := false } }
    exec .ledgerHandover s = .next ((t.wr 62 0x20 0x0B0 (BitVec.ofNat 64 t.ldg.active)).ldgFault 0x0704)) ∧
  (s.ldg.standby = false → exec .ledgerHandover s = .next (s.ldgFault 0x0705))

/-- CHECKPOINTS, RESTORES AND SPARES: a finished tier-0 copy with good tiles is written to its bay and counts for the set; a
protected block that a write meets is copied once; RESTORE begins with an inventory; a placement that lacks no ingot of M
leaves every slot at the boundary of M with M released; a substituted slot goes to the nearest spare with its EPOCH raised
and its share in replay; a finished migration is noted (R365, R370 to R372, R377 to R381, R384, R385). COMPLETES HERE, with
an answered next state of its own effect for every state and operands that meet the conditions: guardCopy, tier0CopyDone,
migrationDone, spareSubstitution, restore, restorePlacementDone. -/
def Obligations.CheckpointCommands : Prop := ∀ (s : State) (sid : Nat), sid < 60 →
  (∀ st b, s.ckp.protectedStep = some st → s.compSlots.contains sid = true → s.ckp.copiedSlots.contains sid = false →
    s.mem.copying.any (fun k => k / 2 ^ 15 == s.slotStack sid) = false →
    [0, 1].find? (fun b => (s.bay (s.slotStack sid) b).st == 1 && decide ((s.bay (s.slotStack sid) b).step = st)) = some b →
    let x := s.slotStack sid
    let die := s.slotDie sid
    let v := s.asProtected
    let pp (t : Tensor) : Nat := if aSpace t.base = 1 then 2 else 0
    let bad := (s.carried sid).any (fun t => (List.range t.tiles).any (fun i =>
      v.poisonLoc (v.tileLoc die st t (pp t) i) (tileBytes t.fmt) || v.poisonLoc (v.hmLoc die st t (pp t) i) 4
        || !v.tileOk die st t (pp t) i st))
    let bs := v.ingot sid st 0
    let a := s.bayPa x b + 2 ^ 20
    let t := ((s.stN a bs).ingotPoison v sid st (.near a)).bgBytes x bs.length
    let t := t.setBay x b { t.bay x b with st := if bad then 3 else 2 }
    let t := if bad then t.raiseAs die 0x0411 2 { typ := 0x07, inst := x } else t
    let t := ({ t with ckp := { t.ckp with copiedSlots := NSet.add t.ckp.copiedSlots sid } }).landHeld
    let last := t.compSlots.all (fun n => t.ckp.copiedSlots.contains n)
    (last = false → exec (.tier0CopyDone sid) s = .next t) ∧
    (last = true → t.copyFailed st = true → exec (.tier0CopyDone sid) s = .next t.endProtect) ∧
    (last = true → t.copyFailed st = false → exec (.tier0CopyDone sid) s = .next (t.completeSet st))) ∧
  (∀ stack block, stack < 48 → block < 24576 → s.ckp.protectedStep.isSome = true →
    let k := stack * 2 ^ 15 + block
    (SMap.get (fun _ => 0) s.ckp.copied k = 1 → exec (.guardCopy stack block) s = .next s) ∧
    (SMap.get (fun _ => 0) s.ckp.copied k ≠ 1 → s.mem.copying.contains k = true → exec (.guardCopy stack block) s = .next
      { s with ckp := { s.ckp with guardDue := NSet.add s.ckp.guardDue k } }) ∧
    (SMap.get (fun _ => 0) s.ckp.copied k ≠ 1 → s.mem.copying.contains k = false →
      exec (.guardCopy stack block) s = .next (s.copyBlock k))) ∧
  (∀ p, p ≠ .mgmt → s.baysBad = false → s.field 60 0 0x380 15 15 ≠ 1 → s.jobIn = true →
    let t := (s.raiseEpoch.genesisPages).clearJob
    let u := t.wr 62 0x20 0x070 t.jobId
    let v := { u with ldg := { u.ldg with
      job := true, recs := [], reports := [], retained := [], genesis := 0, ownNotices := [], swaps := u.ldg.swaps } }
    let c := { v.ckp with
      excluded := [], pick := -1, refused := 0, partnerLost := false, met := v.ckp.met, tier1Off := v.ckp.tier1Off,
      protectedStep := none, copied := [], guards := [], guardDue := [], copiedSlots := [], mirror := none }
    exec (.restore p) s = .next ({ v with ckp := c }).inventoryStart.inventoryDue) ∧
  (s.ckp.restoring = 2 → s.ckpSrc = none → ∃ t, exec .restorePlacementDone s = .next t ∧
    t.ckp.restoring = 0 ∧ t.ldg.newestSealed = s.ckp.pick ∧ t.ldg.newestReleased = s.ckp.pick ∧
    (∀ n ∈ s.usedSlots, (t.slot n).phase = .computed ∧ (t.slot n).step = s.ckp.pick ∧ (t.slot n).passed = s.ckp.pick)) ∧
  (s.viaLost sid = true → exec (.spareSubstitution sid) s = .next (s.turnAlt sid)) ∧
  (s.viaLost sid = false → sid < 48 → s.slotUsed sid = true → s.dieOut (s.slotDie sid) = true →
    (s.pickSpare (s.slotStack sid) = none → exec (.spareSubstitution sid) s = .next (s.noSpare sid)) ∧
    (∀ spare, s.pickSpare (s.slotStack sid) = some spare →
      (s.stackReach (s.slotStack sid) = false → exec (.spareSubstitution sid) s = .next (s.recoverStack sid spare)) ∧
      (s.stackReach (s.slotStack sid) = true → s.jobIn = false →
        let die := s.slotDie sid
        let w := s.xlat sid
        let t := (s.dropObjs die).copyPages die spare
        let t := t.wr 60 0 (0x200 + 8 * sid)
          (setFld (setFld (setFld w 37 32 spare) 21 20 (s.subPath (s.slotStack sid))) 47 40 (fld w 47 40 + 1))
        let t := t.takeSpare spare
        exec (.spareSubstitution sid) s = .next
          (t.setSlot sid { t.slot sid with
            moveDue := false, migrated := false, sinceMig := 0, substituting := true, stopped := false }).cancelSwapFor))) ∧
  ((s.slot sid).substituting = true → s.mem.copying.any (fun k => k / 2 ^ 15 == s.slotStack sid) = false →
    exec (.migrationDone sid) s = .next (s.setSlot sid { s.slot sid with migrated := true }))

/-- PLAN LOADS, SWAPS AND SHADOW PAGES: BEGIN empties the shadow set and opens its generation, COMMIT of a whole set makes
it READY with its digest, DISCARD empties it, and a LOCKED or PENDING set refuses COMMIT and DISCARD; PLAN_DATA stores a
chunk and is answered; a whole route image is written to all link dies and reported; a swap request that holds R54 makes the
set PENDING for its boundary and another is SWAP_REFUSED; cancellation and the time-out mark a request not yet announced.
SHADOW_LOAD copies every swapped register of a page into its shadow unless the shadow is ARMED or PENDING; DISARM of a page
that is not PENDING returns it to NONE; the management port may do so on the fault and power pages only (R51 to R56, R59,
R279, R291, R482, R488). COMPLETES HERE, with an answered next state of its own effect for every state and operands that
meet the conditions: planData, routeImageApply, plnLoadBegin, plnLoadCommit, plnLoadDiscard, swapReq, swapCancel,
swapTimeout, shadowLoad, arm, disarm. -/
def Obligations.PlanSwapsAndShadowPages : Prop :=
  (∀ (s : State) (p : Path), p ≠ .mgmt →
   (∀ gen, gen < 2 ^ 32 → s.shadowBusy = false → exec (.plnLoadBegin p gen) s = .next
     ((s.setPlan { s.plan.noShadow with shadow := .loading, shadowGen := gen }).putDigest 0x180 (zeros 64))) ∧
   (s.plan.shadow = .loading → s.setReject = none →
     let t := s.setPlan { s.plan with shadow := .ready, committed := true }
     exec (.plnLoadCommit p) s = .next (t.putDigest 0x180 (setDigest t.plan.checked t.usedSlots))) ∧
   (∀ c, s.plan.shadow = .loading → s.setReject = some c → exec (.plnLoadCommit p) s = .next
     ((s.setPlan { s.plan with shadow := .rejected }).planReject c s.plan.shadowGen 0xFFFF)) ∧
   (s.shadowBusy = false → exec (.plnLoadDiscard p) s = .next
     ((s.setPlan { s.plan.noShadow with shadow := .empty, shadowGen := 0 }).putDigest 0x180 (zeros 64))) ∧
   (s.plan.shadow = .locked ∨ s.plan.shadow = .pending →
     exec (.plnLoadCommit p) s = .next (s.planReject 0x11 s.plan.shadowGen 0xFFFF) ∧
     exec (.plnLoadDiscard p) s = .next (s.planReject 0x11 s.plan.shadowGen 0xFFFF)) ∧
   (∀ f g t, s.recv p f 0x04 = (t, some g) → p ≠ .firmware → g.addr / 2 ^ 24 = 0 → g.addr % 256 = 0 →
     t.plan.shadow = .loading → exec (.planData p f) s = .next
       ((t.chunkIn (t.imageSid (g.addr / 2 ^ 8 % 256) (g.addr / 2 ^ 16 % 256)) g.aux g.data).respond p g 0 0)) ∧
   (s.plan.route.length < 2 ^ 19 → exec .routeImageApply s = .next s) ∧
   (2 ^ 19 ≤ s.plan.route.length →
     let bytes := s.plan.route.map (fun e => BitVec.ofNat 8 (e.2 - 1))
     let put (d : Nat) (t : State) : State :=
       forN 65536 (fun i u =>
         let w := wordAt bytes i
         if routeLegal w then
           let r := SMap.set (fun _ => BitVec.ofNat 64 (2 ^ 64 - 1)) u.net.routes (d * 2 ^ 16 + i) w
           { u with net := { u.net with routes := r } }
         else u.reject d 0 0x108 (if bitAt w 48 then 2 else 1)) t
     let t := forEach [48, 49, 50, 51, 52, 53, 54, 55] put s
     exec .routeImageApply s = .next (({ t with plan := { t.plan with route := [] } }).event 0x0007 0 0 0).flushWaiting) ∧
   (let n := (s.rd 60 0 0x110).toNat
    (s.swapOk n = true → exec (.swapReq p) s = .next
      (s.setPlan { s.plan with shadow := .pending, swap := some { gen := s.plan.shadowGen, n := n } })) ∧
    (s.swapOk n = false → exec (.swapReq p) s = .next (s.planReject 0x12 s.plan.shadowGen 0xFFFF))) ∧
   (∀ q, s.plan.swap = some q → q.announced = false → q.cancel = 0 →
     exec (.swapCancel p) s = .next { s with plan := { s.plan with swap := some { q with cancel := 2 } } } ∧
     exec .swapTimeout s = .next { s with plan := { s.plan with swap := some { q with cancel := 1 } } }) ∧
   (∀ q, s.plan.swap = some q → q.announced = true → exec (.swapCancel p) s = .next s ∧ exec .swapTimeout s = .next s)) ∧
  (∀ (s : State) (p : Path) (die blk : Nat), die < 64 → blk < 256 →
   s.pageThere die blk = true →
   (p = .mgmt → blk ≠ 0x21 → blk ≠ 0x22 →
     exec (.shadowLoad p die blk) s = .next (s.reject die blk 0x018 3) ∧ exec (.arm p die blk) s = .next (s.reject die blk 0x018 3) ∧
     exec (.disarm p die blk) s = .next (s.reject die blk 0x018 3)) ∧
   (p ≠ .mgmt →
     (s.swapState die blk ≠ 1 → s.swapState die blk ≠ 2 → exec (.shadowLoad p die blk) s = .next
       (forEach (swappedOffs die blk) (fun o t => t.wr die blk (o + 0x800) (t.rd die blk o)) s)) ∧
     (s.swapState die blk = 1 ∨ s.swapState die blk = 2 →
       exec (.shadowLoad p die blk) s = .next (s.reject die blk 0x018 6)) ∧
     (s.swapState die blk ≠ 2 →
       exec (.disarm p die blk) s = .next ((s.setSwap die blk 0).setArmed (pageKey die blk) 0)) ∧
     (s.swapState die blk = 2 → exec (.disarm p die blk) s = .next (s.reject die blk 0x018 4))))

/-- ARM IS JUDGED: an ARM takes effect only when every shadow register passes its checks, N is 0 without a job, and N is greater
than the newest opened step with one; a failing shadow register is rejected with its reason at its own shadow offset, an N
that breaks its condition with STATE at 0x038, and a rejected ARM leaves SWAP as it was (R487). -/
def Obligations.ArmIsJudged : Prop := ∀ (s : State) (p : Path) (die blk : Nat), p ≠ .mgmt → die < 64 → blk < 256 →
  s.pageThere die blk = true → s.swapState die blk ≠ 1 → s.swapState die blk ≠ 2 →
  let n := (s.rd die blk 0x038).toNat
  let nOk := (s.jobIn = false → n = 0) ∧ (s.jobIn = true → s.ldg.newestOpened < (n : Int))
  (s.armCheck die blk = none → s.shadowBad die blk = none ∧ nOk ∧ ∃ t, exec (.arm p die blk) s = .next t ∧
    t.swapState die blk = 1 ∧ t.armedFor (pageKey die blk) = some n) ∧
  (∀ o r, s.shadowBad die blk = some (o, r) → exec (.arm p die blk) s = .next (s.reject die blk o r)) ∧
  (s.shadowBad die blk = none → ¬ nOk → exec (.arm p die blk) s = .next (s.reject die blk 0x038 4)) ∧
  (s.armCheck die blk ≠ none → ∃ t, exec (.arm p die blk) s = .next t ∧ t.swapState die blk = s.swapState die blk)

/-- REGISTER WRITES: in a write an RO field keeps its value, a WO field reads as zero, an RW field takes the written value,
and an RW1C field clears on a 1 and keeps its value on a 0; a bit of no field keeps its value and an accepted value has it
zero; a register without RW, RW1C or WO field is rejected with ACCESS. A REG_WRITE of one register that fails a check leaves
the register as it was, sets REJ_VALID, REJ_OFFSET and REJ_REASON of the page, raises REJ_COUNT, and sets bit 0 of the
answer's bitmap; an accepted one of a register without a command writes it by its field types and is answered with no bit
set; firmware's writes go the same way (R278, R483, R485). COMPLETES HERE, with an answered next state of its own effect for
every state and operands that meet the conditions: regWrite. -/
def Obligations.RegisterWrites : Prop :=
  (∀ (s : State) (p : Path) (die blk off : Nat) (r : RegRow) (old v : Word),
   rowOf die blk off = some r →
   (∀ f ∈ r.fields,
     (f.kind = .ro → fld (written r old v) f.hi f.lo = fld old f.hi f.lo) ∧
     (f.kind = .wo → fld (written r old v) f.hi f.lo = 0) ∧
     (f.kind = .rw → fld (written r old v) f.hi f.lo = fld v f.hi f.lo) ∧
     (f.kind = .rw1c → f.hi = f.lo ∧
       fld (written r old v) f.hi f.lo = if fld v f.hi f.lo = 1 then 0 else fld old f.hi f.lo)) ∧
   (∀ i, i < 64 → (∀ f ∈ r.fields, i < f.lo ∨ f.hi < i) →
     bitAt (written r old v) i = bitAt old i ∧ (s.checkWrite p die blk off v = none → bitAt v i = false)) ∧
   ((∀ f ∈ r.fields, f.kind = .ro) → s.checkWrite p die blk off v = some 3)) ∧
  (∀ (s t : State) (p : Path) (f g : Frame), s.recv p f 2 = (t, some g) →
   let die := addrDie g.addr
   let blk := addrBlk g.addr
   let off := addrOff g.addr
   let v := wordAt g.data 0
   addrBad g = false → g.aux = 1 → g.len = 8 → t.unreachable die blk off 1 = false →
   ∀ ty, blockType die blk = some ty →
   (∀ reason, t.checkWrite p die blk off v = some reason → ¬ (ty = 0x05 ∧ off = 0x040) →
     let u := t.reject die blk off reason
     (∃ st, exec (.regWrite p f) s = .next (u.respond p g st 1) ∧ (st = 1 ∨ st = 2)) ∧
     (off ≠ 0x010 → u.rd die blk off = t.rd die blk off) ∧
     fld (u.rd die blk 0x010) 48 48 = 1 ∧ fld (u.rd die blk 0x010) 47 36 = off ∧ fld (u.rd die blk 0x010) 35 32 = reason ∧
     fld (u.rd die blk 0x010) 31 16 = Nat.min 0xFFFF (fld (t.rd die blk 0x010) 31 16 + 1)) ∧
   (∀ r, t.checkWrite p die blk off v = none → rowOf die blk off = some r → off ≠ 0x010 → off ≠ 0x018 →
     ¬ (ty = 0x23 ∧ off = 0x040) → t.regCommand p die ty off v = none → isSel die blk off = false →
     let new := written r (t.rd die blk off) v
     (r.writer = .split → off < 0x800 →
       exec (.regWrite p f) s = .next ((t.fwXlat ((off - 0x200) / 8) new).respond p g 0 0)) ∧
     (¬ (r.writer = .split ∧ off < 0x800) →
       let u := t.wr die blk off new
       exec (.regWrite p f) s = .next ((u.afterWrite die blk ty off (t.rd die blk off) new).respond p g 0 0) ∧
       (¬ (ty = 0x10 ∧ off = 0x040) → ¬ (ty = 0x03 ∧ off = 0x078) → ¬ (ty = 0x07 ∧ off = 0x058) → firstReg ty off = none →
         exec (.regWrite p f) s = .next (u.respond p g 0 0)))))

/-- REG_READ: an accepted request is answered with COUNT registers of the page, each as it reads on that path; a malformed
one is answered BAD_FRAME, a die that cannot answer NO_DIE, a page the path may not read NO_ACCESS with zeros, and a page
the die does not carry REJECTED with zeros; no register changes (R277, R278, R291, R479). COMPLETES HERE, with an answered
next state of its own effect for every state and operands that meet the conditions: regRead. -/
def Obligations.RegReadAnswers : Prop := ∀ (s t : State) (p : Path) (f g : Frame), s.recv p f 1 = (t, some g) →
  let die := addrDie g.addr
  let blk := addrBlk g.addr
  let off := addrOff g.addr
  let good := addrBad g = false ∧ g.len = 0
  (¬ good → exec (.regRead p f) s = .next (t.respond p g 4 0)) ∧
  (good → t.unreachable die blk off g.aux = true → exec (.regRead p f) s = .next (t.respond p g 3 0)) ∧
  (good → t.unreachable die blk off g.aux = false → t.readDenied p blk = true →
    exec (.regRead p f) s = .next (t.respond p g 2 0 (zeros (8 * g.aux)))) ∧
  (good → t.unreachable die blk off g.aux = false → t.readDenied p blk = false → blockType die blk = none →
    exec (.regRead p f) s = .next (t.respond p g 1 0 (zeros (8 * g.aux)))) ∧
  (good → t.unreachable die blk off g.aux = false → t.readDenied p blk = false → blockType die blk ≠ none →
    exec (.regRead p f) s = .next (({ t with free := t.free + 1 }).respond p g 0 0
      ((List.range g.aux).flatMap (fun i => leBytes 8 (t.readReg p die blk (off + 8 * i)).toNat))))

/-- ALTERNATE DIES: the alternate die of stack n is the next compute die of its row, or in column 7 the one before; through it the
stack base registers of the stack are reached as through its own die, and no other stack's (R12). -/
def Obligations.AlternateDies : Prop := ∀ n, n < 48 →
  altDie n = (if n % 8 = 7 then n - 1 else n + 1) ∧ altDie n < 48 ∧ altDie n / 8 = n / 8 ∧
  (∀ off, canonAddr (altDie n) (if n % 8 = 7 then 0x12 else 0x11) off = canonAddr n 0x0F off) ∧
  blockType (altDie n) (if n % 8 = 7 then 0x12 else 0x11) = some 0x07

/-- PULLS AND PUSHES START: a ready PULL that keeps no copy reads the header of entry FIRST + step x STRIDE of its window,
and a replay takes the kept copy of a retained input; a ready PUSH writes header and data of its entry; LOAD_INIT reads the
first entry of an enabled input window; after its back-off a pull reads its header again; CTL_PULL_FIX starts every pull of
the window that ended in an input fault afresh, and FIX_S raises the fault of each to its partition (R281 to R284, R335,
R383). COMPLETES HERE, with an answered next state of its own effect for every state and operands that meet the conditions:
pull, push, loadInit, pullBackoffExpiry, ctlPullFix, fixSExpiry. -/
def Obligations.PullsAndPushesStart : Prop := ∀ (s : State) (sid op : Nat) (o : Op), sid < 60 →
  (s.Ready sid op 0x0F 1 o →
    let t := s.started sid o
    let q := o.p 1 + (t.slot sid).step.toNat * fld (o.pword 0) 31 0
    ((o.retain = false ∨ t.keptInput sid o = none) → exec (.pull sid op) s = .next
      (t.startPull { sid := sid, op := op, win := fld (o.pword 0) 63 59, q := q, step := (t.slot sid).step })) ∧
    (∀ r, o.retain = true → t.keptInput sid o = some r →
      exec (.pull sid op) s = .next ((t.putOut sid o 0 (t.ldN r.off r.len)).finish sid o 0))) ∧
  (s.Ready sid op 0x0F 2 o → s.sec.conf = false →
    let t := s.started sid o
    let st := (t.slot sid).step
    let q := o.p 1 + st.toNat * fld (o.pword 0) 31 0
    let d := t.inBytes sid o 0
    let p : Pull := { sid := sid, op := op, win := fld (o.pword 0) 63 59, q := q, step := st, stage := .writing, push := true,
                      data := entryHeader q st (fld (o.pword 2) 63 32) d ++ d }
    t.sec.conf = false → exec (.push sid op) s = .next
      (({ t with ctl := { t.ctl with pulls := t.ctl.pulls.filter (fun (x : Pull) => !x.same p) ++ [p] } }).writeEntry p)) ∧
  (∀ (p : Path) (win : Nat), p ≠ .mgmt → win < 32 →
    let x : Pull := { sid := 54, op := 0xFFFFFF, win := win, q := 0, step := -1, init := true }
    let t := { s with
      ctl := { s.ctl with
        pulls := s.ctl.pulls.filter (fun y => !y.init), dma := s.ctl.dma.filter (fun d => d.op != 0xFFFFFF) },
      ldg := { s.ldg with initSet := [] } }
    exec (.loadInit p win) s = .next (if fld (s.winCfg win) 63 62 = 1 then t.startPull x else t.initFail x 0x01)) ∧
  (∀ x, s.ctl.pulls.find? (fun p => p.sid == sid && p.op == op && p.stage == .backoff) = some x →
    exec (.pullBackoffExpiry sid op) s = .next (s.readHeader x)) ∧
  (∀ (p : Path) (win : Nat), win < 32 →
    let l := s.ctl.pulls.filter (fun (x : Pull) => x.inputFaulted win)
    (p ≠ .mgmt → exec (.ctlPullFix p win) s = .next (forEach l (fun x t =>
      t.readHeader { x with reads := 0, second := false, data := [], header := [], code := 0 }) s)) ∧
    (∀ x, l = [x] →
      let a := windowAddr x.win (s.entryOff x.win x.q)
      let up (r : FaultRec) : FaultRec := if x.isRecord a r then { r with cls := 3, escalated := true } else r
      let q := SMap.get (fun _ => []) s.flt.collectors x.sid
      let c := SMap.set (fun _ => []) s.flt.collectors x.sid (q.map up)
      exec (.fixSExpiry win) s = .next
        (({ s with flt := { s.flt with log := s.flt.log.map up, collectors := c } }).partitionFatal x.sid)))

/-- DMA ANSWERS: a header below the expected SEQ waits for its back-off while tries remain and is INPUT_TIMEOUT after them;
the expected one that fits leads to the data, one that does not to INPUT_MISMATCH, and a higher one to INPUT_OVERRUN; a
whole entry is followed by its header again, and an unchanged one with a good hallmark ends the pull; the acknowledged parts
of a push lead to the next part or to its end; a missing answer is asked for again on the same port while retries remain
(R283 to R285). COMPLETES HERE, with an answered next state of its own effect for every state and operands that meet the
conditions: dmaReadData, dmaWriteAck, dmaTmoExpiry. -/
def Obligations.DmaAnswers : Prop := ∀ (s t : State) (p : Path) (f g : Frame) (d : Dma) (x : Pull),
  let u := t.dropDma d.tag
  u.dmaPull d = some x →
  (s.recv p f 6 = (t, some g) → t.ctl.dma.find? (fun d => d.tag == g.tag && !d.write && d.bytes == g.data.length) = some d →
    x.init = false →
    (x.stage = .header →
      let y := { x with reads := x.reads + 1 }
      (hdrSeq g.data < x.q → x.reads + 1 < u.pullTries x → exec (.dmaReadData p f) s = .next (u.setPull { y with stage := .backoff })) ∧
      (hdrSeq g.data < x.q → u.pullTries x ≤ x.reads + 1 → exec (.dmaReadData p f) s = .next (u.inputFault y 0x0210)) ∧
      (hdrSeq g.data = x.q → u.headerFits y g.data = true → exec (.dmaReadData p f) s = .next
        (u.beginData { y with stage := .data, header := g.data, data := [] })) ∧
      (hdrSeq g.data = x.q → u.headerFits y g.data = false → exec (.dmaReadData p f) s = .next (u.inputFault y 0x0211)) ∧
      (x.q < hdrSeq g.data → exec (.dmaReadData p f) s = .next (u.inputFault y 0x0213))) ∧
    (x.stage = .data →
      let y := { x with data := x.data ++ g.data }
      (y.data.length < u.dataBytes y.header → exec (.dmaReadData p f) s = .next (u.readData y)) ∧
      (u.dataBytes y.header ≤ y.data.length → u.sec.conf = false → hallmarkOk y.header y.data = true →
        exec (.dmaReadData p f) s = .next ((u.setPull { y with stage := .check }).readEntry y 0 32))) ∧
    (x.stage = .check → hdrSeq g.data = x.q → u.sec.conf = false →
      (hallmarkOk x.header x.data = true → exec (.dmaReadData p f) s = .next (u.pullDone x x.data)) ∧
      (hallmarkOk x.header x.data = false → exec (.dmaReadData p f) s = .next (u.inputFault x 0x0212)))) ∧
  (s.recv p f 8 = (t, some g) → t.ctl.dma.find? (fun d => d.tag == g.tag && d.write) = some d →
    let y := { x with reads := x.reads + d.bytes }
    (y.reads < y.data.length → exec (.dmaWriteAck p f) s = .next (u.writeEntry y)) ∧
    (y.data.length ≤ y.reads →
      let v := (u.dropPull y).wr 54 0x1E (0x110 + 24 * y.win) (BitVec.ofNat 64 y.q)
      exec (.dmaWriteAck p f) s = .next (if u.pullLive y then v.finish y.sid (u.pullOp y) 0 else v))) ∧
  (t.ctl.dma.find? (fun y => y.tag == d.tag) = some d → t.hostCut = false → t.dmaPath d.sid = d.port →
    (t.dmaRetries d ≤ d.tries → exec (.dmaTmoExpiry d.tag) t = .next (t.dmaTimeout d)) ∧
    (d.tries < t.dmaRetries d →
      let v := t.bump (pathDie d.port) 0x1E 0xC18
      let e := { d with tries := d.tries + 1 }
      exec (.dmaTmoExpiry d.tag) t = .next
        (({ v with ctl := { v.ctl with dma := v.ctl.dma.map (fun (y : Dma) => if y.tag == d.tag then e else y) } }).sendDma e)))

/-- EVENTS AND SESSIONS: an EVENT_ACK takes every event up to the named one out of the queue and leaves the later ones, in
their order; the resend timer sends all of them again; KEY_EXCHANGE of 72 bytes in confidential mode answers and starts a
session, a rekey keeps the entry keys and the old frame keys, and outside that mode it is answered BAD_STATE (the model's
choice, log entry 2); an exchange that does not complete counts a failure; a counter at its limit ends the session (R286,
R288, R289). COMPLETES HERE, with an answered next state of its own effect for every state and operands that meet the
conditions: eventAck, eventResendTimer, keyExchange, keyExchangeTimeout, frameCounterLimit. -/
def Obligations.EventsAndSessions : Prop := ∀ (s t : State) (p : Path) (f g : Frame),
  (s.recv p f 0x0A = (t, some g) → t.ctl.lost = 0 →
    let u := { t with ctl := { t.ctl with events := t.ctl.events.filter (fun e => decide (g.addr < e.seq)) } }
    let hi := Nat.max (t.rd 54 0x1E 0x058).toNat (Nat.min g.addr (t.ctl.nextEvt - 1))
    exec (.eventAck p f) s = .next ((u.wr 54 0x1E 0x058 (BitVec.ofNat 64 hi)).wr 55 0x1E 0x058 (BitVec.ofNat 64 hi))) ∧
  exec .eventResendTimer s = .next (forEach s.ctl.events (fun e u => u.sendEvent e) s) ∧
  (s.recv p f 0x0B = (t, some g) → (p = .cpA ∨ p = .cpB) →
    (t.sec.conf = false → exec (.keyExchange p f) s = .next (t.sendFrame p { typ := 0x0B, tag := g.tag, status := 5 })) ∧
    (t.sec.conf = true → g.data.length = 72 → g.aux = 0 → g.addr = 0 → t.firmwareUp = true →
      exec (.keyExchange p f) s = .next (t.exchangeKeys p g) ∧
      (∀ k, t.ctl.session = some k → ∃ n, (t.exchangeKeys p g).ctl.session = some n ∧ n.entryKeys = k.entryKeys ∧
        n.old = k.keys ∧ n.oldRx = k.rx ∧ n.rx = {} ∧ n.txc = 0))) ∧
  (∀ q, s.ctl.exchange = some q → exec .keyExchangeTimeout s = .next
    (({ s with ctl := { s.ctl with exchange := none } }).bump (pathDie q) 0x1E 0xC20)) ∧
  (s.ctl.exchange = none → exec .keyExchangeTimeout s = .next s) ∧
  (∀ k, s.ctl.session = some k → (2 ^ 32 ≤ k.rx.next ∨ 2 ^ 32 ≤ k.txc) → exec .frameCounterLimit s = .next s.endSession)

/-- IDENTITY AND REPORTS: on the management port CERT_REQ is answered with the certificate chain, or without one while the
certificate does not carry the device key, and ATTEST_REQ with a nonce of 32 bytes by the signed report of the state;
another length is a malformed frame. On a control port that is up every frame of the management port's types is discarded,
counted and unanswered (R446 to R449, R277). COMPLETES HERE, with an answered next state of its own effect for every state
and operands that meet the conditions: attestReq, certReq. -/
def Obligations.IdentityAndReports : Prop := ∀ (s t : State) (p : Path) (f g : Frame),
  (s.mgmtFrame p f 0x22 = (t, some g) →
    (certBad = true → exec (.certReq p f) s = .next (t.sendFrame .mgmt { typ := 0x23, tag := g.tag, status := 1 })) ∧
    (certBad = false → exec (.certReq p f) s = .next (t.sendFrame .mgmt
      { typ := 0x23, tag := g.tag, aux := 3, len := Config.certChain.length, data := Config.certChain }))) ∧
  (s.mgmtFrame p f 0x20 = (t, some g) →
    (g.data.length = 32 → exec (.attestReq p f) s = .next (t.sendFrame .mgmt
      { typ := 0x21, tag := g.tag, len := (t.report g.data).length, data := t.report g.data })) ∧
    (g.data.length ≠ 32 → exec (.attestReq p f) s = .next
      (t.sendFrame .mgmt { typ := 0x21, tag := g.tag, addr := g.addr, status := 4 }))) ∧
  (p = .cpA ∨ p = .cpB → s.cpStatus p = 1 →
    let u := (s.bump (pathDie p) 0x1E 0xC00).countBad p
    u.sent = s.sent ∧
    (f.typ = 0x22 → exec (.certReq p f) s = .next u) ∧ (f.typ = 0x20 → exec (.attestReq p f) s = .next u) ∧
    (f.typ = 0x24 → exec (.fwData p f) s = .next u) ∧ (f.typ = 0x27 → exec (.install p f) s = .next u) ∧
    (f.typ = 0x25 → (f.aux % 256 = 1 → exec (.fwBegin p f) s = .next u) ∧ (f.aux % 256 = 2 → exec (.fwStage p f) s = .next u) ∧
      (f.aux % 256 = 3 → exec (.fwActivate p f) s = .next u) ∧ (f.aux % 256 = 4 → exec (.fwCommit p f) s = .next u) ∧
      (f.aux % 256 = 5 → exec (.fwAbort p f) s = .next u) ∧ (f.aux % 256 = 6 → exec (.revoke p f) s = .next u)))

/-- FIRMWARE UPDATE: BEGIN in IDLE, with a standby or with resets allowed and no job, erases the target die's uncommitted
slot and leads to RECEIVING; DATA stores chunks there; STAGE leads to STAGED when every check passes and else erases the
slot; ACTIVATE with a standby runs the new image on it and hands over, COMMIT keeps the image, and ABORT erases it; a
command in another phase is answered BAD_STATE, a full exchange UPDATE_BUSY (R443 to R445). COMPLETES HERE, with an answered
next state of its own effect for every state and operands that meet the conditions: fwData, fwBegin, fwStage, fwActivate,
fwCommit, fwAbort. -/
def Obligations.FirmwareUpdate : Prop := ∀ (s t : State) (p : Path) (f g : Frame),
  (s.fwCtl p f 1 = (t, some g) →
    let tgt := if t.hasStandby = true then 1 - t.sec.active else t.sec.active
    (t.sec.upd = .idle → t.hasStandby = true ∨ (t.allowReset = true ∧ t.jobIn = false) →
      let u := { t with sec := { t.sec with target := tgt, upd := .receiving } }
      exec (.fwBegin p f) s = .next ((u.eraseSlot tgt (1 - (t.md tgt).pref)).fwResp g 0)) ∧
    (t.sec.upd = .idle → t.hasStandby = false → (t.allowReset = false ∨ t.jobIn = true) →
      exec (.fwBegin p f) s = .next (t.fwResp g 9)) ∧
    (t.sec.upd ≠ .idle → exec (.fwBegin p f) s = .next (t.fwResp g 8))) ∧
  (s.mgmtFrame p f 0x24 = (t, some g) →
    (t.sec.upd = .receiving → g.addr + g.data.length ≤ 2 ^ 26 →
      let m := t.md t.sec.target
      let fl := SMap.setRun (fun _ => 0) m.flash (t.updSlot * 2 ^ 27 + g.addr) g.data
      exec (.fwData p f) s = .next ((t.setMd t.sec.target { m with flash := fl }).fwResp g 0)) ∧
    (t.sec.upd = .receiving → 2 ^ 26 < g.addr + g.data.length → exec (.fwData p f) s = .next (t.fwResp g 0 4)) ∧
    (t.sec.upd ≠ .receiving → exec (.fwData p f) s = .next (t.fwResp g 0 5))) ∧
  (s.fwCtl p f 2 = (t, some g) → t.sec.upd = .receiving →
    let v := imgVersion (t.imageHeader t.sec.target t.updSlot)
    let u := t.fwResp g 0
    (t.stageCode = 0 → exec (.fwStage p f) s = .next ((u.setUpd .staged).event 0x0050 v 0 0)) ∧
    (t.stageCode ≠ 0 → exec (.fwStage p f) s = .next
      (((u.eraseSlot u.sec.target u.updSlot).setUpd .idle).event 0x0051 v 0 (BitVec.ofNat 64 t.stageCode)))) ∧
  (s.fwCtl p f 3 = (t, some g) → t.sec.upd = .staged →
    (t.hasStandby = true → t.sec.target = 1 - t.sec.active → t.sec.active < 2 →
      let u := (t.fwResp g 0).setMd t.sec.target { t.md t.sec.target with running := some t.updSlot }
      let v := (u.countReset (.die (60 + t.sec.target))).setUpd .activated
      exec (.fwActivate p f) s = .next (v.changeRoles (v.md v.sec.active).pref)) ∧
    (t.hasStandby = false → t.allowReset = true → t.jobIn = false → exec (.fwActivate p f) s = .next
      (((t.fwResp g 0).setMd t.sec.target { t.md t.sec.target with trial := some t.updSlot }).beginReset .module))) ∧
  (s.fwCtl p f 4 = (t, some g) →
    (t.sec.upd = .activated → t.sec.target = t.sec.active → (t.md t.sec.active).running = some t.updSlot → t.hasStandby = false →
      let u := (t.fwResp g 0)
      let v := (u.setMd t.sec.active { u.md t.sec.active with pref := t.updSlot }).blowArb
      exec (.fwCommit p f) s = .next ((v.setUpd .idle).event 0x0052 (imgVersion (t.imageHeader t.sec.active t.updSlot)) 0 0)) ∧
    (t.sec.upd = .activated → t.sec.target = t.sec.active → (t.md t.sec.active).running = some t.updSlot → t.hasStandby = true →
      let a := t.sec.active
      let b := 1 - a
      let u := t.fwResp g 0
      let sb := 1 - (u.md b).pref
      let x := u.copyImage a t.updSlot b sb
      let y := if x.slotCode b sb = 0 then (x.setMd b { x.md b with pref := sb, running := some sb }).countReset (.die (60 + b)) else x
      let v := (y.setMd a { y.md a with pref := t.updSlot }).blowArb
      exec (.fwCommit p f) s = .next ((v.setUpd .idle).event 0x0052 (imgVersion (t.imageHeader a t.updSlot)) 0 0)) ∧
    (t.sec.upd ≠ .activated → exec (.fwCommit p f) s = .next (t.fwResp g 0 5))) ∧
  (s.fwCtl p f 5 = (t, some g) →
    (t.sec.upd = .receiving ∨ t.sec.upd = .staged → exec (.fwAbort p f) s = .next (t.fwResp g 0).revertUpdate) ∧
    (t.sec.upd = .idle → exec (.fwAbort p f) s = .next (t.fwResp g 0 5)))

/-- KEYS, INSTALLATION AND MODE: REVOKE outside an update revokes a root key that its checks admit and answers the code of
one they do not; INSTALL without a job writes the section; APPLY outside a job and an update changes the mode, marks the
scrub and resets the module, and is rejected otherwise; DEBUG_LOCK locks until a module reset; SCRUB_DONE zeroes the stacks
and ends the scrub, and a stack whose scrub times out leaves service (R445, R468, R452 to R454). COMPLETES HERE, with an
answered next state of its own effect for every state and operands that meet the conditions: revoke, install, apply,
debugLock, scrubDone, stackScrubTimeout. -/
def Obligations.KeysInstallAndMode : Prop := ∀ (s t : State) (p : Path) (f g : Frame),
  (s.fwCtl p f 6 = (t, some g) →
    let k := g.aux / 256 % 256
    (t.sec.upd ≠ .idle → exec (.revoke p f) s = .next (t.fwResp g 8)) ∧
    (t.sec.upd = .idle → t.revokeCode k g.data = 0 →
      exec (.revoke p f) s = .next
        ((t.programFuses { t with sec := { t.sec with revoked := Nat.lor t.sec.revoked (2 ^ k) } }).fwResp g 0)) ∧
    (t.sec.upd = .idle → t.revokeCode k g.data ≠ 0 → exec (.revoke p f) s = .next (t.fwResp g (t.revokeCode k g.data))) ∧
    (t.revokeCode k g.data = 0 → k < 3 ∧ g.data.length = 114 ∧ t.keyRevoked k = false)) ∧
  (s.mgmtFrame p f 0x27 = (t, some g) →
    (installGood g.data = true → t.jobIn = false →
      exec (.install p f) s = .next ((t.installed (installOf g.data)).respond .mgmt g 0 0)) ∧
    (installGood g.data = true → t.jobIn = true → exec (.install p f) s = .next (t.respond .mgmt g 5 0)) ∧
    (installGood g.data = false → exec (.install p f) s = .next (t.respond .mgmt g 1 0))) ∧
  (p ≠ .mgmt → s.jobIn = false → s.sec.upd = .idle → (s.field 60 0x23 0x040 0 0 == 1) = !s.sec.conf →
    exec (.apply p) s = .next
      (({ s with sec := { s.sec with conf := !s.sec.conf, scrubPending := true } }).beginReset .module)) ∧
  (p ≠ .mgmt → (s.jobIn = true ∨ s.sec.upd ≠ .idle ∨ (s.field 60 0x23 0x040 0 0 == 1) = s.sec.conf) →
    exec (.apply p) s = .next (s.reject 60 0x23 0x040 4)) ∧
  (exec (.apply .mgmt) s = .next (s.reject 60 0x23 0x040 3)) ∧
  (exec (.debugLock p) s = .next
    (if p = .mgmt then s.reject 60 0x23 0x040 3 else { s with sec := { s.sec with debugLocked := true } })) ∧
  (s.sec.scrubbing = true →
    let u := forEach s.sec.toScrub (fun st v => v.zeroStack st) s
    let v := { u with
      units := { u.units with acc := [], obuf := [], dsm := [], dsmDirty := [], cores := [], strands := [], disputes := [] },
      sec := { u.sec with scrubbing := false, scrubPending := false, toScrub := [] } }
    exec .scrubDone s = .next (if v.flt.hold = true then v.setStage 9 else v.openPorts) ∧
    (∀ a, s.sec.toScrub.contains (a / stackBytes) = true → SMap.get memDflt v.mem.stack a = 0)) ∧
  (∀ n, n < 48 → s.sec.scrubbing = true → s.sec.toScrub.contains n = true → exec (.stackScrubTimeout n) s = .next
    ((({ s with sec := { s.sec with toScrub := NSet.del s.sec.toScrub n } }).raise n 0x0312
      { typ := 0x06 }).leaveService (.stackPhy n)))

/-- FAULT RECORDS AND CLAIMS: the front record of a die's collector is dropped when it is CORRECTED and limited or quiet,
merged into an open record of its partition or an open module-fatal one, and else logged under the next SEQ, open from class
DEFERRED on; an unclaimed record is escalated when its window expires; firmware's claim marks an open record, its DONE
closes a DEFERRED one, and RELEASE over the management port ends the service hold (R394 to R396, R412, R414). COMPLETES
HERE, with an answered next state of its own effect for every state and operands that meet the conditions: faultRecord,
handlingWindowExpiry, fltClaim, fltDone, fltCtlRelease. -/
def Obligations.FaultRecordsAndClaims : Prop := ∀ (s : State) (die seq : Nat) (limited : Bool) (r : FaultRec) (rest : List FaultRec),
  (die < 64 → SMap.get (fun _ => []) s.flt.collectors die = r :: rest →
    let t := { s with flt := { s.flt with collectors := SMap.set (fun _ => []) s.flt.collectors die rest } }
    let quiet := r.cls = 0 ∧ (limited = true ∨ t.corrQuiet r = true)
    (quiet → exec (.faultRecord die limited) s = .next t) ∧
    (¬ quiet → t.mergeTarget r = none → exec (.faultRecord die limited) s = .next (t.logRecord r) ∧
      (r.cls < 4 → (t.logRecord r).flt.nextSeq = t.flt.nextSeq + 1 ∧ (t.logRecord r).flt.log =
        trimLog t.flt.log ++ [{ r with seq := t.flt.nextSeq % 2 ^ 24, isOpen := decide (2 ≤ r.cls) }])) ∧
    (∀ o, ¬ quiet → t.mergeTarget r = some o →
      let m := o.merge r
      let u := t.setLog m
      exec (.faultRecord die limited) s = .next (if o.cls < 4 ∧ m.cls = 4 ∧ r.code ≠ 0x0313 then u.fatalSequence else u) ∧
      m.cls = Nat.max o.cls r.cls ∧ m.merged = Nat.min 255 (o.merged + 1) ∧ m.lastCode = r.code ∧ m.seq = o.seq)) ∧
  (s.flt.log.find? (fun x => x.seq == seq && x.isOpen && !x.claimed) = some r →
    (r.cls = 2 → r.part ≠ 999 → exec (.handlingWindowExpiry seq) s = .next
      ((s.setLog { r with cls := 3, escalated := true }).partitionFatal r.part)) ∧
    (r.cls = 2 → r.part = 999 → exec (.handlingWindowExpiry seq) s = .next
      ((s.setLog { r with cls := 4, escalated := true }).fatalSequence)) ∧
    (r.cls = 3 → exec (.handlingWindowExpiry seq) s = .next
      ((s.setLog { r with escalated := true, claimed := true }).beginReset (s.partitionDomain r.part)))) ∧
  (s.flt.log.find? (fun x => x.seq == seq && x.isOpen && !x.claimed) = none → exec (.handlingWindowExpiry seq) s = .next s) ∧
  (seq < 2 ^ 24 →
    let claim (x : FaultRec) : FaultRec := if x.seq = seq ∧ x.isOpen = true then { x with claimed := true } else x
    let close (x : FaultRec) : FaultRec := if x.seq = seq ∧ x.cls = 2 then { x with isOpen := false } else x
    exec (.fltClaim .firmware seq) s = .next { s with flt := { s.flt with log := s.flt.log.map claim } } ∧
    exec (.fltDone .firmware seq) s = .next { s with flt := { s.flt with log := s.flt.log.map close } }) ∧
  (∀ p, p ≠ .firmware → exec (.fltClaim p seq) s = .next (s.reject 60 0x21 0x050 3) ∧
    exec (.fltDone p seq) s = .next (s.reject 60 0x21 0x058 3)) ∧
  (∀ p, p ≠ .mgmt → exec (.fltCtlRelease p) s = .next (s.reject 60 0x21 0x060 3)) ∧
  (s.flt.hold = false → exec (.fltCtlRelease .mgmt) s = .next (s.reject 60 0x21 0x060 4)) ∧
  (s.flt.hold = true →
    let t := { s with flt := { s.flt with hold := false, resets := [] } }
    let u := t.showPair .alive
    exec (.fltCtlRelease .mgmt) s = .next (if s.field 60 0 0x380 23 20 = 9 then
      (if u.sec.scrubPending = true then u.beginScrub.setStage 7 else u.openPorts) else t))

/-- HANGS, HEARTBEAT AND HANDOVER: a die's detector keeps its graph, and one that finds its one suspect on a cycle of the
waits it sees confirms the hang with the number of members: the record, at MODULE_FATAL when a member has no partition, and
else the reset of the smallest domains that hold every member, a core, a die, or each member die; without suspects nothing
is found. A lost heartbeat is MODULE_FATAL; a failed management die hands over to a standby that runs, and without one the
pair is lost; a slot past REPLAY_MAX has its die reset; an edge that goes down raises LINK_FABRIC once; a bus of I3C that
times out changes no state (R294, R350, R398, R401 to R406, R443). That the module detector's tick also counts an
inventory's second is the model's own reading (log entry 26). COMPLETES HERE, with an answered next state of its own effect
for every state and operands that meet the conditions: replayMaxExceeded, dieDetectorTick, moduleDetectorTick,
heartbeatTimeout, mgmtHandover, fabricEdgeDown, i3cTransactionTimeout. -/
def Obligations.HangsHeartbeatHandover : Prop := ∀ (s : State) (die sid op edge : Nat) (edges : List Edge) (o : Op),
  let kept (x : Nat) : State := s.keepGraph x (edges.filter (fun e => e.die == x))
  (s.flt.suspects = [] → (die < 64 → exec (.dieDetectorTick die edges) s = .next (kept die)) ∧
    exec (.moduleDetectorTick edges) s = .next s.inventoryTick) ∧
  (s.flt.suspects = [(sid, op)] → s.liveOp sid op = some o →
    let d := s.slotDie sid
    let site (l : List UnitId) : Site :=
      { opSite sid o with detail := BitVec.ofNat 64 (inFld 63 56 l.length + inFld 55 48 s.flt.nextSnap) }
    let confirm (t : State) (l : List UnitId) : State :=
      let u := t.raiseAs d 0x0301 (t.hangClass l) (site l)
      if t.hangClass l = 4 then u else forEach (hangDomains l) (fun x v => v.beginReset x) u
    let here := cycleOf (edges.filter (fun e => e.die == d)) (d, o.unit)
    let all := cycleOf edges (d, o.unit)
    (d < 64 → here ≠ [] → exec (.dieDetectorTick d edges) s = .next (confirm (kept d) here)) ∧
    (all ≠ [] → exec (.moduleDetectorTick edges) s = .next (confirm s all).inventoryTick) ∧
    (die < 64 → die ≠ d → exec (.dieDetectorTick die edges) s = .next (kept die))) ∧
  (∀ (l : List UnitId) (x : Nat), (l.map (fun u => u.1)).eraseDups = [x] →
    hangDomains l = (match (l.map (fun u => u.2)).eraseDups with
      | [u] => if x < 48 ∧ u < 4 then [.core (4 * x + u)] else [dieDomain x]
      | _ => [dieDomain x])) ∧
  (∀ (l : List UnitId), (l.map (fun u => u.1)).eraseDups.length ≠ 1 →
    hangDomains l = (l.map (fun u => u.1)).eraseDups.map dieDomain) ∧
  (s.pwr.railsOn = true →
    let a := s.sec.active
    let b := 1 - a
    exec .heartbeatTimeout s = .next (s.raise (60 + a) 0x0304 { typ := 0x01, inst := a }) ∧
    ((s.md b).running = none ∨ (s.md b).inService = false →
      exec .mgmtHandover s = .next (s.raise (60 + a) 0x0707 { typ := 0x01, inst := a })) ∧
    ((s.md b).running.isSome = true → (s.md b).inService = true →
      let t := s.setMd a { s.md a with running := none }
      let u := (({ t with sec := { t.sec with active := b, handover := true } }).setSvc (60 + a) 1).setSvc (60 + b) 2
      let v := if u.sec.upd = .activated ∧ u.sec.target = a then u.revertUpdate else u
      exec .mgmtHandover s = .next (v.raise (60 + b) 0x0706 { typ := 0x01, inst := b }))) ∧
  (sid < 60 → s.slotUsed sid = true →
    (s.replayMax < (s.slot sid).replays → exec (.replayMaxExceeded sid) s = .next (s.beginReset (s.partitionDomain sid))) ∧
    ((s.slot sid).replays ≤ s.replayMax → exec (.replayMaxExceeded sid) s = .next s)) ∧
  (die < 48 → edge < 4 →
    (s.field die 0x10 0x060 (2 * edge + 1) (2 * edge) = 0 → exec (.fabricEdgeDown die edge) s = .next s) ∧
    (s.field die 0x10 0x060 (2 * edge + 1) (2 * edge) ≠ 0 → exec (.fabricEdgeDown die edge) s = .next
      ((s.setEdge die edge 0).raise die 0x0509 { typ := 0x08, sub := edge }))) ∧
  exec .i3cTransactionTimeout s = .next s

/-- RESETS BEGIN: each reset command begins the reset of its domain: a snapshot is taken but for an array and a port, and
one that the reset of an inner domain has is widened instead, the tag of each page of the domain goes up by one, from 0xFF
to 0x01, unless a running reset raised it, the reset is counted, and it takes the place of the resets within the domain;
then it acts on the domain. A domain that is in reset, lies within one that is, is fenced, or is an active management or
ledger die is left as it is (R406 to R411). COMPLETES HERE, with an answered next state of its own effect for every state
and operands that meet the conditions: arrayReset, coreReset, stackPhyReset, dieReset, brazePortReset, linkDieReset,
hubReset, moduleReset. -/
def Obligations.ResetsBegin : Prop := ∀ (s : State) (n a : Nat),
  (n < 192 → a < 7 → exec (.arrayReset n a) s = .next (s.beginReset (.array n a))) ∧
  (n < 192 → exec (.coreReset n) s = .next (s.beginReset (.core n))) ∧
  (n < 48 → exec (.stackPhyReset n) s = .next (s.beginReset (.stackPhy n))) ∧
  (n < 48 ∨ 60 ≤ n ∧ n < 64 → exec (.dieReset n) s = .next (s.beginReset (.die n))) ∧
  (n < 48 → exec (.brazePortReset n) s = .next (s.beginReset (.port n))) ∧
  (48 ≤ n → n < 56 → exec (.linkDieReset n) s = .next (s.beginReset (.linkDie n))) ∧
  (56 ≤ n → n < 60 → exec (.hubReset n) s = .next (s.beginReset (.hub n))) ∧
  exec .moduleReset s = .next (s.beginReset .module) ∧
  (∀ d, s.pwr.railsOn = false ∨ d ∈ s.flt.resetting ∨ (∃ e ∈ enclosing d, e ∈ s.flt.resetting) ∨ domainDie d ∈ s.flt.fenced →
    s.beginReset d = s) ∧
  (s.sec.active < 2 → s.beginReset (.die (60 + s.sec.active)) = s) ∧
  (s.ldg.active < 2 → s.beginReset (.die (62 + s.ldg.active)) = s) ∧
  (∀ d, s.Inv → domainOk d = true → s.canReset d = true →
    let taken := s.flt.resetting.filter (fun x => (enclosing x).contains d)
    let tags := (tagsOf d).filter (fun x => !s.tagRaised x)
    let t := if snapped d = false then s else if taken.any snapped = true then s.widenSnap d taken else s.snapshot d
    let u := (forEach tags (fun x v => v.raiseTag x) t).countReset d
    let v := { u with flt := { u.flt with resetting := u.flt.resetting.filter (fun x => !(enclosing x).contains d) ++ [d] } }
    s.beginReset d = v.resetBody d (tags.contains (.die (domainDie d)) || tags.contains d) (!taken.isEmpty) ∧
    resetCount d v.flt.resets = resetCount d s.flt.resets + 1 ∧ d ∈ v.flt.resetting ∧
    (∀ x ∈ v.flt.resetting, d ∉ enclosing x) ∧
    (∀ x ∈ tags, ∀ p ∈ tagPages x, v.field p.1 p.2 0x030 7 0 =
      if s.field p.1 p.2 0x030 7 0 = 255 then 1 else s.field p.1 p.2 0x030 7 0 + 1))

/-- RESETS END OR RUN OUT: a running reset that no trip holds completes and its domain runs again; a watchdog raises
RESET_TIMEOUT and resets the enclosing domain, fences a die, takes a hub out of service, or ends the module with FAULT
shown; a domain at RST_LIMIT leaves service with its record, and a module at MOD_LIMIT goes into the service hold (R407,
R408, R411, R412, R433). COMPLETES HERE, with an answered next state of its own effect for every state and operands that
meet the conditions: resetWatchdog, rstLimitReached, modLimitReached, resetComplete. -/
def Obligations.ResetsEndOrRunOut : Prop := ∀ (s : State) (r : DomainRef), domainOk (ofRef r) = true →
  let d := ofRef r
  let gone (t : State) : State := { t with flt := { t.flt with resetting := t.flt.resetting.filter (fun x => x != d) } }
  (d ∉ s.flt.resetting → exec (.resetComplete r) s = .next s ∧ exec (.resetWatchdog r) s = .next s) ∧
  (d ∈ s.flt.resetting → Domain.module ∉ s.flt.outOfService →
    (s.tripHolds d = true → exec (.resetComplete r) s = .next s) ∧
    (s.tripHolds d = false → exec (.resetComplete r) s = .next ((gone s).completeBody d)) ∧
    (let part := if d = .module then 999 else s.partition (domainSite d).1
     let t := s.raiseAs (domainSite d).1 0x0310 (s.timeoutClass part)
       { (domainSite d).2 with detail := BitVec.ofNat 64 (domainNumber d) }
     (∀ core a, r = .array core a → exec (.resetWatchdog r) s = .next (t.beginReset (.core core))) ∧
     (∀ core, r = .core core → exec (.resetWatchdog r) s = .next (t.beginReset (.die (core / 4)))) ∧
     (∀ n, r = .stackPhy n → exec (.resetWatchdog r) s = .next (t.beginReset (.die n))) ∧
     (∀ n, r = .die n → exec (.resetWatchdog r) s = .next (if n < 48 then (gone t).fenceDie n else (gone t).pairOut n)) ∧
     (∀ n, r = .port n → exec (.resetWatchdog r) s = .next (t.beginReset (.linkDie (brzDie n)))) ∧
     (∀ n, r = .linkDie n → exec (.resetWatchdog r) s = .next (t.beginReset .module)) ∧
     (∀ n, r = .hub n → exec (.resetWatchdog r) s = .next (((gone t).raise n 0x0312 { typ := 0x01 }).leaveService (.hub n))) ∧
     (r = .module → exec (.resetWatchdog r) s = .next ((t.outOfService .module).showPair .fault)))) ∧
  (d ≠ .module → d ∉ s.flt.outOfService → s.rstLimit ≤ resetCount d s.flt.resets → exec (.rstLimitReached r) s = .next
    ((s.raise (domainSite d).1 0x0312 (domainSite d).2).leaveService d)) ∧
  (resetCount d s.flt.resets < s.rstLimit → exec (.rstLimitReached r) s = .next s) ∧
  (s.flt.hold = true ∨ resetCount .module s.flt.resets < s.modLimit → exec .modLimitReached s = .next s) ∧
  (s.flt.hold = false → s.modLimit ≤ resetCount .module s.flt.resets →
    let t := (({ s with flt := { s.flt with hold := true } }).raise 60 0x0313 { typ := 0x01 }).setCpStatus 0
    let u := forN 48 (fun p v => brzDisable p v) t
    exec .modLimitReached s = .next
      (if u.flt.resetting.contains .module = true then u else (u.setStage 9).showPair .fault))

/-- GRANTS, THERMAL LIMITS AND RAILS: a governor's window serves its quadrant's waiting cores in order while 105 A each stay
within QSTEP_A and counts the rest; a cool sample only shows its readings, and one of 115 degrees asserts THERMTRIP_N; a
telemetry reading shows in PWR_RAIL and the quadrant's sum, and one whose reply fails its check twice changes nothing; a
lost VDD_CORE rail is escalated and its die fenced, VDD_AON unpowers the module, another rail is MODULE_FATAL (R294, R419,
R420, R424, R433). COMPLETES HERE, with an answered next state of its own effect for every state and operands that meet the
conditions: grantWindow, thermalSample, railTelemetryPoll, alertN. -/
def Obligations.GrantsThermalAndRails : Prop := ∀ (s : State) (n : Nat) (sensors : List Int) (stack : Int),
  (n < 4 →
    let ask := s.pwr.waiting.filter (fun c => quadOf (c / 4) == n)
    let served := ask.take (s.field 60 0x22 0x040 12 0 / 105)
    let t := { s with pwr := { s.pwr with
      waiting := s.pwr.waiting.filter (fun c => !served.contains c),
      granted := SMap.set (fun _ => 0) s.pwr.granted n (105 * served.length) } }
    105 * served.length ≤ s.field 60 0x22 0x040 12 0 ∧
    exec (.grantWindow n) s = .next (if ask.length ≤ served.length then t
      else t.bump 60 0x22 (0xDA0 + 8 * n) (ask.length - served.length))) ∧
  (n < 48 → s.pwr.railsOn = true →
    let top := hottest sensors
    let t := s.wr n 0 0x050 (BitVec.ofNat 64 (inFld 23 16 top.2 + (BitVec.ofInt 16 top.1).toNat))
    let u := (t.setField n 0x0E 0x048 15 8 stack.toNat).setField n 0x0E 0x048 2 2 (if 85 < stack then 1 else 0)
    (top.1 ≤ (u.warnOf n : Int) → stack ≤ (u.warnOf n : Int) → top.1 < 90 → stack < 90 → (∀ x ∈ sensors, x < 115) →
      (∀ c a, c < 4 → a < 7 → u.aryState (4 * n + c) a ≠ 3) → exec (.thermalSample n sensors stack) s = .next
        { u with pwr := { u.pwr with tripped := NSet.del (NSet.del u.pwr.tripped n) (100 + n) } }) ∧
    ((115 ≤ stack ∨ ∃ x ∈ sensors, 115 ≤ x) →
      ∃ v, exec (.thermalSample n sensors stack) s = .next v ∧ v.pwr.thermtrip = true)) ∧
  (n < 48 → s.pwr.railsOn = false → exec (.thermalSample n sensors stack) s = .next s) ∧
  (∀ x : RailSample, x.rail < 48 → s.pwr.railsOn = true →
    let u := s.wr 60 0x22 (0xC00 + 8 * x.rail) (BitVec.ofNat 64 (inFld 47 32 x.amps + inFld 15 0 x.mv))
    let sum := (quadDies (quadOf x.rail)).foldl (fun a d => a + u.field 60 0x22 (0xC00 + 8 * d) 47 32) 0
    let v := u.wr 60 0x22 (0xD80 + 8 * quadOf x.rail) (BitVec.ofNat 64 sum)
    (x.badReplies < 2 → x.lost = false → exec (.railTelemetryPoll [x]) s = .next v) ∧
    (x.badReplies < 2 → x.lost = true → exec (.railTelemetryPoll [x]) s = .next (v.railLost x.rail)) ∧
    (2 ≤ x.badReplies → exec (.railTelemetryPoll [x]) s = .next s)) ∧
  (n < 73 → s.pwr.railsOn = true →
    (n < 48 → n ∉ s.flt.fenced →
      exec (.alertN n) s = .next ((s.raiseEscalated n 0x0702 3 { typ := 0x01 }).fenceDie n)) ∧
    (n < 48 → n ∈ s.flt.fenced → exec (.alertN n) s = .next s) ∧
    (n = 52 → exec (.alertN n) s = .next s.unpower) ∧
    (48 ≤ n → n ≠ 52 → exec (.alertN n) s = .next
      (s.raiseEscalated (60 + s.sec.active) 0x0702 4 { typ := 0x22, inst := s.sec.active, sub := n })))

/-- REGULATOR TIMEOUTS AND CLOCKS: a voltage write that is not acknowledged is sent again up to three times and is then
POWER_AVS, which excludes the bin of a die that waits for it, on a VDD_CORE rail or a quadrant's VDD_SRAM rail; a PMBus
clock held low is a DEFERRED fault; a lost reference clock fails the compute dies of its quadrant and switches the
peripheral dies on it to the backup pair (R293, R294, R428). COMPLETES HERE, with an answered next state of its own effect
for every state and operands that meet the conditions: avsAckTimeout, pmbusClockLowTimeout, refclkLoss. -/
def Obligations.RegulatorsAndClocks : Prop := ∀ (s : State) (n : Nat), s.pwr.railsOn = true →
  let z : Nat → Nat := fun _ => 0
  (n < 48 →
    (SMap.get z s.pwr.avsTries n < 3 → exec (.avsAckTimeout n) s = .next
      (({ s with pwr := { s.pwr with avsTries := SMap.set z s.pwr.avsTries n (SMap.get z s.pwr.avsTries n + 1) } }).send
        (.avs n (s.volts n)))) ∧
    (3 ≤ SMap.get z s.pwr.avsTries n →
      let t := ({ s with pwr := { s.pwr with avsTries := SMap.set z s.pwr.avsTries n 0 } }).raise n 0x0701 { typ := 0x01 }
      (t.dieSlot n = none → exec (.avsAckTimeout n) s = .next t) ∧
      (∀ sid, t.dieSlot n = some sid → (t.slot sid).phase ≠ .opened → t.jobIn = true →
        exec (.avsAckTimeout n) s = .next (t.excludeBin n (t.dieBin n))) ∧
      (∀ sid, t.dieSlot n = some sid → (t.slot sid).phase = .opened → exec (.avsAckTimeout n) s = .next t))) ∧
  (48 ≤ n → n < 52 →
    (SMap.get z s.pwr.avsTries n < 3 → exec (.avsAckTimeout n) s = .next
      (({ s with pwr := { s.pwr with avsTries := SMap.set z s.pwr.avsTries n (SMap.get z s.pwr.avsTries n + 1) } }).send
        (.avs n (s.volts n)))) ∧
    (3 ≤ SMap.get z s.pwr.avsTries n → exec (.avsAckTimeout n) s = .next
      (({ s with pwr := { s.pwr with avsTries := SMap.set z s.pwr.avsTries n 0 } }).raise (60 + s.sec.active) 0x0701
        { typ := 0x22, inst := s.sec.active, sub := n }))) ∧
  exec .pmbusClockLowTimeout s = .next (s.raise (60 + s.sec.active) 0x0702 { typ := 0x22, inst := s.sec.active }) ∧
  (n < 4 → n ∈ s.pwr.lostPairs → exec (.refclkLoss n) s = .next s) ∧
  (n < 4 → s.pwr.lostPairs = [] → ∃ t, exec (.refclkLoss n) s = .next t ∧ t.pwr.lostPairs = [n] ∧
    (∀ d, 48 ≤ d → d < 64 → pairOf d = n → d ∈ t.pwr.onBackup) ∧
    (∀ d, d ∉ s.pwr.onBackup → pairOf d ≠ n → d ∉ t.pwr.onBackup))

/-- POWER AND SLEEP: POR_N's release starts an unpowered module cold; a rail that misses its power-good is commanded once
more, and a second miss or POR_N withdraws the light and turns the rails off in reverse order; a lost RAILS_OK takes the
unpowered column at once, and with the rails off these change nothing more. SLEEP asks for sleep, which begins when every
slot stands at a boundary and no step replays; WAKE ends it, after its entry when that still runs (R22, R27, R29, R434,
R436, R458, R477). COMPLETES HERE, with an answered next state of its own effect for every state and operands that meet the
conditions: sleep, sleepEntry, wake, porNRelease, powerGoodTimeout, porNAssert, railsOkDeassert. -/
def Obligations.PowerAndSleep : Prop := ∀ (s : State) (n : Nat) (p : Path) (r : StartReport), n < 73 →
  (s.pwr.railsOn = true →
    let down := ((s.withdrawLight []).railsDown).unpower
    exec (.porNRelease r) s = .next s ∧ exec .porNAssert s = .next down ∧ exec .railsOkDeassert s = .next s.unpower ∧
    s.unpower.pwr.railsOn = false ∧ s.unpower.pwr.thermtrip = false ∧
    (n ∉ s.stu.missedRails → exec (.powerGoodTimeout n) s = .next
      (({ s with stu := { s.stu with missedRails := NSet.add s.stu.missedRails n } }).send (.pin (.rail n) 1))) ∧
    (n ∈ s.stu.missedRails → exec (.powerGoodTimeout n) s = .next
      ((down.collect (down.mkRec 60 0x0702 2 { typ := 0x22, sub := n })).showPair .fault))) ∧
  (s.pwr.railsOn = false →
    let t := s.loseSections r.absent
    let u := { t with stu := { t.stu with b2Only := true, strap := strapOf r.strap } }
    exec (.porNRelease r) s = .next (u.railsUp.boot { r with cold := true } false) ∧
    exec (.powerGoodTimeout n) s = .next s ∧ exec .railsOkDeassert s = .next s ∧ exec .porNAssert s = .next s.unpower) ∧
  (let quiet := (∀ sid ∈ s.usedSlots, (s.slot sid).phase = .idle ∨ (s.slot sid).phase = .computed) ∧
     (∀ x ∈ s.ldg.recs, x.phase ≠ .replaying)
   exec (.sleep p) s = .next (if s.pwrStat = 0 then s.setPwrStat 1 else s) ∧
   exec (.wake p) s = .next (if s.pwrStat = 2 then s.wakeUp else if s.pwrStat = 1 then s.setPwrStat 3 else s) ∧
   (quiet → s.pwrStat = 1 → exec .sleepEntry s = .next s.fallAsleep) ∧
   (quiet → s.pwrStat = 3 → exec .sleepEntry s = .next s.fallAsleep.wakeUp) ∧
   (¬ quiet ∨ (s.pwrStat ≠ 1 ∧ s.pwrStat ≠ 3) → exec .sleepEntry s = .next s))

/-- TEST ACCESS AND LOOPBACKS: the debug lock leaves IDCODE, SAMPLE and BYPASS, and a job also the reading of sensors and
eye monitors; BYPASS takes the place of any other instruction. SAMPLE shifts the captured lands out and loads the boundary
register, an instrument's read shifts its answer out, EXTEST and the AC instructions drive the output lands they cover, and
whatever is not SAMPLE or such a reading sets TEST_USED. STU_LOOP starts a loopback that R469 lists, without a job and on an
interface that is neither in one nor the writer's own; another start is rejected; its end takes the oldest out, sets DONE
and clears START with the last (R454, R469 to R473). The instructions' numbers and the order of the lands are the model's
own. COMPLETES HERE, with an answered next state of its own effect for every state and operands that meet the conditions:
tapInstruction, stuLoopStart, loopbackEnd. -/
def Obligations.TestAccessAndLoopbacks : Prop := ∀ (s : State) (die ir dr : Nat) (p : Path) (v : Word),
  (die < 64 → s.pwr.railsOn = true →
    let basic := ir = 0 ∨ ir = 1
    let bypass := (s.sec.debugLocked = true ∧ ¬ basic) ∨ (s.jobIn = true ∧ ¬ basic ∧ ¬ (ir = 2 ∧ monitor dr = true)) ∨ ir = 255
    let put (x on : Nat) : State := ({ s with stu := { s.stu with
      tap := SMap.set (fun _ => tapBypass) s.stu.tap die x } }).setField die 0 0x048 (testDomain die) (testDomain die) on
    let q := put ir 1
    let r := { q with free := s.free + 1 }
    let used (u : State) : State := u.setField 60 0 0x380 15 15 1
    (ir = 0 → exec (.tapInstruction die ir dr) s = .next ((put 0 0).send (.pin .tdo (idcode die)))) ∧
    (bypass → exec (.tapInstruction die ir dr) s = .next ((put 255 0).send (.pin .tdo (dr * 2)))) ∧
    (¬ bypass → ir = 1 → exec (.tapInstruction die ir dr) s = .next (({ r with stu := { r.stu with
      boundary := SMap.set (fun _ => 0) s.stu.boundary die (dr % 2 ^ (dieLands die).length) } }).send
        (.pin .tdo (q.capture1149 die)))) ∧
    (¬ bypass → ir = 2 → monitor dr = true →
      exec (.tapInstruction die ir dr) s = .next (r.send (.pin .tdo (q.instrumentWord die dr)))) ∧
    (¬ bypass → ir = 2 ∧ monitor dr = false ∨ ir = 6 →
      exec (.tapInstruction die ir dr) s = .next (used (r.send (.pin .tdo (q.instrumentWord die dr))))) ∧
    (¬ bypass → 3 ≤ ir → ir ≤ 5 →
      let lands := (dieLands die).zipIdx.filter (fun e => if ir = 3 then outLand e.1 else acLand e.1)
      exec (.tapInstruction die ir dr) s = .next (used (forEach lands (fun e t =>
        t.send (.pin (.land e.1) (SMap.get (fun _ => 0) s.stu.boundary die / 2 ^ e.2 % 2))) r))) ∧
    (¬ bypass → 6 < ir → exec (.tapInstruction die ir dr) s = .next (used r))) ∧
  (s.checkWrite p 60 0 0x390 v = none → bitAt v 63 = true →
    let i := fld v 11 8
    let n := fld v 23 16
    let ms := fld v 47 32
    let free := s.jobIn = false ∧ (∀ l ∈ s.stu.loops, ¬ (l.1 = i ∧ l.2.1 = n)) ∧ loopPath p ≠ some (i, n)
    (1 ≤ ms → ms ≤ 60000 → loopExists i n (fld v 1 0) = true → free →
      let t := { s with stu := { s.stu with loops := s.stu.loops ++ [(i, n, fld v 1 0)] } }
      let w := setFld (setFld (setFld v 62 62 (s.field 60 0 0x390 62 62)) 63 63 1) 62 62 0
      exec (.stuLoopStart p v) s = .next ((((t.wr 60 0 0x390 w).wr 60 0 0xC80 0).wr 60 0 0xC88 0).loopOn i n)) ∧
    (ms = 0 ∨ 60000 < ms → exec (.stuLoopStart p v) s = .next (s.reject 60 0 0x390 1)) ∧
    (1 ≤ ms → ms ≤ 60000 → loopExists i n (fld v 1 0) = false → exec (.stuLoopStart p v) s = .next (s.reject 60 0 0x390 5)) ∧
    (1 ≤ ms → ms ≤ 60000 → loopExists i n (fld v 1 0) = true → ¬ free →
      exec (.stuLoopStart p v) s = .next (s.reject 60 0 0x390 4))) ∧
  (s.stu.loops = [] → exec .loopbackEnd s = .next s) ∧
  (∀ i n d rest, s.stu.loops = (i, n, d) :: rest →
    let t := { s with stu := { s.stu with loops := rest }, free := s.free + 1 }
    let u := (t.wr 60 0 0xC80 (Config.loopCount s.free 1)).wr 60 0 0xC88 (Config.loopCount s.free 0)
    exec .loopbackEnd s = .next (((u.setField 60 0 0x390 62 62 1).setField 60 0 0x390 63 63
      (if rest = [] then 0 else 1)).loopOff i n))
end

