-- ==== Sys2Proof/Laws/Ready.lean ====
section
/-!
SUPPORT. What a ready op's start does: it always starts, and in the state that `State.started` names.
-/

namespace Sys2Proof.Machine

/-- A ready op has been issued already. -/
theorem State.Ready.issue_eq {s : State} {sid op c k : Nat} {o : Op} (h : s.Ready sid op c k o) : s.issue sid o = s := by
  unfold State.issue
  simp [h.index, h.waiting]

/-- A ready op starts. -/
theorem State.Ready.begin_eq {s : State} {sid op c k : Nat} {o : Op} (h : s.Ready sid op c k o) :
    s.begin' sid o = (s.started sid o, true) := by
  unfold State.begin' State.started
  simp only [h.issue_eq, h.index, h.waiting, h.released, h.free, h.reach, h.quiet, h.room, h.clean, h.agreed]
  simp

end Sys2Proof.Machine
end

