-- ==== Sys2Proof/Laws/SMap.lean ====
section
/-!
SUPPORT. The laws of sparse maps: a read after a write to the same key gives the value written, a write leaves every other
key alone, and every operation keeps the canonical form.
-/

namespace Sys2Proof.Machine

variable {β : Type} [DecidableEq β] {d : Nat → β}

/-- The lower bound `lo` lies below a key. -/
def SMap.above : Option Nat → Nat → Prop
  | none, _ => True
  | some l, k => l < k

theorem SMap.wfFrom_cons {lo : Option Nat} {k : Nat} {v : β} {m : SMap β} :
    SMap.wfFrom d lo ((k, v) :: m) = true ↔ SMap.above lo k ∧ v ≠ d k ∧ SMap.wfFrom d (some k) m = true := by
  cases lo <;> simp [SMap.wfFrom, SMap.above, and_assoc]

theorem SMap.above_trans {lo : Option Nat} {k j : Nat} (h : SMap.above lo k) (hk : k < j) : SMap.above lo j := by
  cases lo with
  | none => trivial
  | some l => exact Nat.lt_trans h hk

/-- A smaller lower bound serves as well. -/
theorem SMap.wfFrom_mono {lo : Option Nat} {k : Nat} {m : SMap β} (h : SMap.above lo k)
    (hm : SMap.wfFrom d (some k) m = true) : SMap.wfFrom d lo m = true := by
  cases m with
  | nil => rfl
  | cons e m =>
    obtain ⟨j, w⟩ := e
    rw [SMap.wfFrom_cons] at hm ⊢
    exact ⟨SMap.above_trans h hm.1, hm.2⟩

theorem SMap.wfFrom_drop {lo : Option Nat} {m : SMap β} (k : Nat) (h : SMap.wfFrom d lo m = true) :
    SMap.wfFrom d lo (SMap.drop m k) = true := by
  induction m generalizing lo with
  | nil => exact h
  | cons e m ih =>
    obtain ⟨j, w⟩ := e
    rw [SMap.wfFrom_cons] at h
    simp only [SMap.drop]
    split
    · exact SMap.wfFrom_mono h.1 h.2.2
    · exact SMap.wfFrom_cons.2 ⟨h.1, h.2.1, ih h.2.2⟩

theorem SMap.wfFrom_put {lo : Option Nat} {m : SMap β} {k : Nat} {v : β} (hk : SMap.above lo k) (hv : v ≠ d k)
    (h : SMap.wfFrom d lo m = true) : SMap.wfFrom d lo (SMap.put m k v) = true := by
  induction m generalizing lo with
  | nil => exact SMap.wfFrom_cons.2 ⟨hk, hv, rfl⟩
  | cons e m ih =>
    obtain ⟨j, w⟩ := e
    have h' := SMap.wfFrom_cons.1 h
    simp only [SMap.put]
    split
    · next hlt => exact SMap.wfFrom_cons.2 ⟨hk, hv, SMap.wfFrom_cons.2 ⟨hlt, h'.2⟩⟩
    · split
      · next heq => subst heq; exact SMap.wfFrom_cons.2 ⟨hk, hv, h'.2.2⟩
      · next h1 h2 =>
        exact SMap.wfFrom_cons.2 ⟨h'.1, h'.2.1, ih (lo := some j) (show j < k by omega) h'.2.2⟩

/-- A write keeps the canonical form. -/
theorem SMap.wf_set {m : SMap β} (k : Nat) (v : β) (h : SMap.wf d m = true) : SMap.wf d (SMap.set d m k v) = true := by
  unfold SMap.set
  split
  · exact SMap.wfFrom_drop k h
  · next hv => exact SMap.wfFrom_put trivial hv h

theorem SMap.wf_setRun {m : SMap β} (k : Nat) (vs : List β) (h : SMap.wf d m = true) :
    SMap.wf d (SMap.setRun d m k vs) = true := by
  induction vs generalizing m k with
  | nil => exact h
  | cons v vs ih => exact ih (k + 1) (SMap.wf_set k v h)

theorem SMap.wfFrom_filter {lo : Option Nat} {m : SMap β} (p : Nat × β → Bool) (h : SMap.wfFrom d lo m = true) :
    SMap.wfFrom d lo (m.filter p) = true := by
  induction m generalizing lo with
  | nil => exact h
  | cons e m ih =>
    obtain ⟨j, w⟩ := e
    rw [SMap.wfFrom_cons] at h
    rw [List.filter_cons]
    split
    · exact SMap.wfFrom_cons.2 ⟨h.1, h.2.1, ih h.2.2⟩
    · exact SMap.wfFrom_mono h.1 (ih h.2.2)

/-- Removing entries keeps the canonical form. -/
theorem SMap.wf_filter {m : SMap β} (p : Nat × β → Bool) (h : SMap.wf d m = true) : SMap.wf d (m.filter p) = true :=
  SMap.wfFrom_filter p h

theorem SMap.wf_clear {m : SMap β} (lo hi : Nat) (h : SMap.wf d m = true) : SMap.wf d (SMap.clear m lo hi) = true :=
  SMap.wfFrom_filter _ h

/-- A fold of writes keeps the canonical form. -/
theorem SMap.wf_foldl {α : Type} (l : List α) (f : SMap β → α → SMap β)
    (hf : ∀ m a, SMap.wf d m = true → SMap.wf d (f m a) = true) {m : SMap β} (h : SMap.wf d m = true) :
    SMap.wf d (l.foldl f m) = true := by
  induction l generalizing m with
  | nil => exact h
  | cons a l ih => exact ih (hf m a h)

/-! ## Reads after writes -/

omit [DecidableEq β] in
theorem SMap.get_drop_ne (m : SMap β) {k j : Nat} (h : j ≠ k) : SMap.get d (SMap.drop m k) j = SMap.get d m j := by
  induction m with
  | nil => rfl
  | cons e m ih =>
    obtain ⟨i, w⟩ := e
    simp only [SMap.drop]
    split
    · next hi => subst hi; simp [SMap.get, Ne.symm h]
    · simp [SMap.get, ih]

omit [DecidableEq β] in
theorem SMap.get_put_ne (m : SMap β) {k j : Nat} (v : β) (h : j ≠ k) :
    SMap.get d (SMap.put m k v) j = SMap.get d m j := by
  induction m with
  | nil => simp [SMap.put, SMap.get, Ne.symm h]
  | cons e m ih =>
    obtain ⟨i, w⟩ := e
    simp only [SMap.put]
    split
    · simp [SMap.get, Ne.symm h]
    · split
      · next hi => subst hi; simp [SMap.get, Ne.symm h]
      · simp [SMap.get, ih]

omit [DecidableEq β] in
theorem SMap.get_put_self (m : SMap β) (k : Nat) (v : β) : SMap.get d (SMap.put m k v) k = v := by
  induction m with
  | nil => simp [SMap.put, SMap.get]
  | cons e m ih =>
    obtain ⟨i, w⟩ := e
    simp only [SMap.put]
    split
    · simp [SMap.get]
    · split
      · simp [SMap.get]
      · next h1 h2 => simp [SMap.get, ih, Ne.symm h2]

/-- In a canonical map a key below every listed key reads as its default. -/
theorem SMap.get_below {k : Nat} {m : SMap β} (h : SMap.wfFrom d (some k) m = true) : SMap.get d m k = d k := by
  induction m with
  | nil => rfl
  | cons e m ih =>
    obtain ⟨j, w⟩ := e
    have h' := SMap.wfFrom_cons.1 h
    have hj : k < j := h'.1
    rw [SMap.get, if_neg (by omega)]
    exact ih (SMap.wfFrom_mono (lo := some k) hj h'.2.2)

theorem SMap.get_drop_self {lo : Option Nat} {m : SMap β} (k : Nat) (h : SMap.wfFrom d lo m = true) :
    SMap.get d (SMap.drop m k) k = d k := by
  induction m generalizing lo with
  | nil => rfl
  | cons e m ih =>
    obtain ⟨j, w⟩ := e
    have h' := SMap.wfFrom_cons.1 h
    simp only [SMap.drop]
    split
    · next hj => subst hj; exact SMap.get_below h'.2.2
    · next hj => rw [SMap.get, if_neg hj]; exact ih h'.2.2

/-- Another key reads as before. -/
theorem SMap.get_set_ne (m : SMap β) {k j : Nat} (v : β) (h : j ≠ k) : SMap.get d (SMap.set d m k v) j = SMap.get d m j := by
  unfold SMap.set
  split
  · exact SMap.get_drop_ne m h
  · exact SMap.get_put_ne m v h

/-- The key written reads as the value written. -/
theorem SMap.get_set_self {m : SMap β} (k : Nat) (v : β) (h : SMap.wf d m = true) : SMap.get d (SMap.set d m k v) k = v := by
  unfold SMap.set
  split
  · next hv => rw [hv]; exact SMap.get_drop_self k h
  · exact SMap.get_put_self m k v

/-! ## Sorting -/

theorem mergeBy_perm {α : Type} (le : α → α → Bool) (n : Nat) (xs ys : List α) : (mergeBy le n xs ys).Perm (xs ++ ys) := by
  induction n generalizing xs ys with
  | zero => exact .refl _
  | succ n ih =>
    match xs, ys with
    | [], ys => exact .refl _
    | x :: xs, [] => simp [mergeBy]
    | x :: xs, y :: ys =>
      simp only [mergeBy]
      split
      · exact (ih xs (y :: ys)).cons x
      · exact ((ih (x :: xs) ys).cons y).trans (List.perm_middle (a := y) (l₁ := x :: xs) (l₂ := ys)).symm

theorem mergePairs_perm {α : Type} (le : α → α → Bool) : ∀ l : List (List α), (mergePairs le l).flatten.Perm l.flatten
  | [] => .refl _
  | [_] => .refl _
  | x :: y :: r => by
    simp only [mergePairs, List.flatten_cons, ← List.append_assoc]
    exact (mergeBy_perm le _ x y).append (mergePairs_perm le r)

theorem mergeRounds_perm {α : Type} (le : α → α → Bool) (n : Nat) (l : List (List α)) :
    (mergeRounds le n l).flatten.Perm l.flatten := by
  induction n generalizing l with
  | zero => exact .refl _
  | succ n ih => exact (ih _).trans (mergePairs_perm le l)

theorem flatten_singletons {α : Type} (l : List α) : (l.map (fun x => [x])).flatten = l := by
  induction l with
  | nil => rfl
  | cons x l ih => simp [ih]

/-- A sorted list holds the elements of the list. -/
theorem sortBy_perm {α : Type} (le : α → α → Bool) (l : List α) : (sortBy le l).Perm l := by
  have h := mergeRounds_perm le l.length (l.map (fun x => [x]))
  rwa [flatten_singletons] at h

end Sys2Proof.Machine
end

