-- ==== Sys2Proof/Laws/Sound.lean ====
section
/-!
SUPPORT. Every operation keeps a state sound and leaves its queue alone: what a sound state is, and the shared operations keep it.
-/

set_option maxRecDepth 20000

namespace Sys2Proof.Machine

variable {q Q : List Instr}

/-- The maps of a state stand in canonical form, and its queue is `q`. -/
def State.Sound (q : List Instr) (s : State) : Prop :=
  Registers.wf s.regs = true ∧ Memory.wf s.mem.stack = true ∧ Memory.wf s.mem.far = true ∧ Memory.wf s.units.dsm = true
    ∧ s.pending = q

theorem Sound_mk {r p1 p2 p3 p4 p5 p6 p7 p8 u m p11 p12 p13 p14 p15 p16 pd} :
  (State.mk r p1 p2 p3 p4 p5 p6 p7 p8 u m p11 p12 p13 p14 p15 p16 pd).Sound q =
   (Registers.wf r = true ∧ Memory.wf m.stack = true ∧ Memory.wf m.far = true ∧ Memory.wf u.dsm = true ∧ pd = q) := propext Iff.rfl

theorem Sound.parts {s : State} (h : s.Sound q) : Registers.wf s.regs = true ∧ Memory.wf s.mem.stack = true ∧ Memory.wf s.mem.far = true ∧ Memory.wf s.units.dsm = true ∧ s.pending = q := h

theorem Sound.partsNil {s : State} (h : s.Sound q) : Registers.wf s.regs = true ∧ Memory.wf s.mem.stack = true ∧ Memory.wf s.mem.far = true ∧ Memory.wf [] = true ∧ s.pending = q := ⟨h.1, h.2.1, h.2.2.1, rfl, h.2.2.2.2⟩

theorem Sound.stack {s : State} (h : s.Sound q) : Memory.wf s.mem.stack = true := h.2.1

theorem Sound.ite {c : Prop} [Decidable c] {s t : State} (h1 : c → s.Sound q) (h2 : ¬c → t.Sound q) :
    (if c then s else t).Sound q := by
  split <;> simp_all

theorem Sound.ofFst {α : Type} {p : State × α} {t : State} {a : α} (e : p = (t, a))
    (h : p.1.Sound q) : t.Sound q := by cases e; exact h

theorem Sound.forEach {α} (l : List α) (f : α → State → State) {s : State} (hf : ∀ a s, s.Sound q →
    (f a s).Sound q) (h : s.Sound q) : (forEach l f s).Sound q := by
  unfold Machine.forEach
  induction l generalizing s with
  | nil => exact h
  | cons a l ih => exact ih (hf a s h)

theorem Sound.foldl {α} (l : List α) (f : State → α → State) {s : State} (hf : ∀ s a, s.Sound q →
    (f s a).Sound q)  (h : s.Sound q) : (l.foldl f s).Sound q := by
  induction l generalizing s with
  | nil => exact h
  | cons a l ih => exact ih (hf s a h)

theorem Sound.foldl1 {α β} (l : List α) (f : State × β → α → State × β) {s : State × β} (hf : ∀ s a, s.1.Sound q →
    (f s a).1.Sound q)  (h : s.1.Sound q) : (l.foldl f s).1.Sound q := by
  induction l generalizing s with
  | nil => exact h
  | cons a l ih => exact ih (hf s a h)

theorem Sound.onSome {α} (o : Option α) (f : α → State → State) {s : State} (hf : ∀ a s, s.Sound q →
    (f a s).Sound q) (h : s.Sound q) : (onSome o f s).Sound q := by
  cases o with
  | none => exact h
  | some a => exact hf a s h

theorem Sound.forN (n) (f : Nat → State → State) {s : State} (hf : ∀ a s, s.Sound q → (f a s).Sound q) (h : s.Sound q) : (forN n f s).Sound q := Sound.forEach _ _ hf h
/-- Every next state of an outcome is sound. -/
def OutSound (q : List Instr) (o : Out) : Prop := ∀ t, o = .next t → t.Sound q

theorem ok_sound {s : State} (h : s.Sound q) : OutSound q (ok s) := by intro t e; cases e; exact h

theorem onUnit_sound {b : Bool} {s : State} (h : s.Sound q) : OutSound q (onUnit b s) := by
  unfold onUnit; intro t e; split at e
  · cases e; exact h
  · cases e

/-! ## Ops -/

theorem State.setReg_sound (s : State) (a : Nat) (v : Word) (h : s.Sound Q) : (State.setReg s a v).Sound Q := ⟨SMap.wf_set _ _ h.1, h.2.1, h.2.2.1, h.2.2.2.1, h.2.2.2.2⟩

theorem State.dropRegs_sound (s : State) (f : Nat → Bool) (h : s.Sound Q) : (State.dropRegs s f).Sound Q :=
  ⟨SMap.wf_filter _ h.1, h.2.1, h.2.2.1, h.2.2.2.1, h.2.2.2.2⟩

theorem State.wr_sound (s : State) (die blk off : Nat) (v : Word) (hg : s.Sound Q) :
    (State.wr s die blk off v).Sound Q := by
  unfold State.wr
  repeat' (first | with_reducible assumption | with_reducible apply State.setReg_sound)

theorem State.setField_sound (s : State) (die blk off hi lo v : Nat) (hg : s.Sound Q) :
    (State.setField s die blk off hi lo v).Sound Q := by
  unfold State.setField
  repeat' (first | with_reducible assumption | with_reducible apply State.wr_sound)

theorem State.bump_sound (s : State) (die blk off : Nat) (n : Nat) (hg : s.Sound Q) :
    (State.bump s die blk off n).Sound Q := by
  unfold State.bump
  repeat' (first | with_reducible assumption | with_reducible apply State.wr_sound)

theorem State.setSlot_sound (s : State) (sid : Nat) (r : SlotRun) (hg : s.Sound Q) :
    (State.setSlot s sid r).Sound Q := by
  unfold State.setSlot
  repeat' (first | with_reducible exact Sound.parts (by with_reducible assumption) | simp only [Sound_mk])

theorem State.setOp_sound (s : State) (sid op : Nat) (o : OpRun) (hg : s.Sound Q) :
    (State.setOp s sid op o).Sound Q := by
  unfold State.setOp
  repeat' (first | with_reducible assumption | with_reducible apply State.setSlot_sound)

theorem State.setSvc_sound (s : State) (die v : Nat) (hg : s.Sound Q) : (State.setSvc s die v).Sound Q := by
  unfold State.setSvc
  repeat' (first | with_reducible assumption | with_reducible apply State.setField_sound)

theorem State.setPd_sound (s : State) (die powered retention : Nat) (hg : s.Sound Q) :
    (State.setPd s die powered retention).Sound Q := by
  unfold State.setPd
  repeat' (first | with_reducible assumption | with_reducible apply State.wr_sound)

theorem State.pdService_sound (s : State) (die : Nat) (hg : s.Sound Q) : (State.pdService s die).Sound Q := by
  unfold State.pdService
  repeat' (first | with_reducible assumption | intro _ | with_reducible apply State.setPd_sound
                 | with_reducible apply Sound.ite)

theorem State.setStack_sound (s : State) (m : SMap Byte) (h : s.Sound Q) (hm : Memory.wf m = true) : (State.setStack s m).Sound Q := ⟨h.1, hm, h.2.2.1, h.2.2.2.1, h.2.2.2.2⟩

theorem State.st_sound (s : State) (pa : Nat) (b : Byte) (h : s.Sound Q) : (State.st s pa b).Sound Q :=
  State.setStack_sound _ _ h (SMap.wf_set _ _ h.2.1)

theorem moveBytes_wf (m l : SMap Byte) (a b : Nat) (hm : Memory.wf m = true) : Memory.wf (moveBytes m l a b) = true :=
  SMap.wf_foldl _ _ (fun _ _ h => SMap.wf_set _ _ h) hm

theorem Memory.wf_clear (m : SMap Byte) (lo hi : Nat) (hm : Memory.wf m = true) : Memory.wf (SMap.clear m lo hi) = true :=
  SMap.wf_clear _ _ hm

theorem State.stRun_sound (s : State) (pa : Nat) (bs : List Byte) (h : s.Sound Q) :
    (State.stRun s pa bs).Sound Q := by
  induction bs generalizing s pa with
  | nil => exact h
  | cons b bs ih => exact ih _ _ (State.st_sound s pa b h)

theorem State.stN_sound (s : State) (pa : Nat) (bs : List Byte) (h : s.Sound Q) : (State.stN s pa bs).Sound Q := by
  have h := State.stRun_sound s pa bs h
  exact ⟨h.1, h.2.1, h.2.2.1, h.2.2.2.1, h.2.2.2.2⟩

theorem State.setImg_sound (s : State) (sid : Nat) (shadow : Bool) (off : Nat) (bs : List Byte) (hg : s.Sound Q) :
    (State.setImg s sid shadow off bs).Sound Q := by
  unfold State.setImg
  repeat' (first | with_reducible assumption | intro _ | with_reducible apply State.stN_sound
                 | with_reducible apply Sound.ite | with_reducible exact Sound.parts (by with_reducible assumption)
                 | split | simp only [Sound_mk])

theorem State.send_sound (s : State) (x : Sent) (hg : s.Sound Q) : (State.send s x).Sound Q := by
  unfold State.send
  repeat' (first | with_reducible exact Sound.parts (by with_reducible assumption) | simp only [Sound_mk])

theorem State.setPort_sound (s : State) (p : Nat) (x : PortState) (hg : s.Sound Q) :
    (State.setPort s p x).Sound Q := by
  unfold State.setPort
  repeat' (first | with_reducible exact Sound.parts (by with_reducible assumption) | simp only [Sound_mk])

theorem State.sendFrame_sound (s : State) (p : Path) (f : Frame) (hg : s.Sound Q) :
    (State.sendFrame s p f).Sound Q := by
  unfold State.sendFrame
  repeat' (first | with_reducible assumption | intro _ | with_reducible apply State.send_sound
                 | with_reducible apply State.bump_sound | with_reducible apply Sound.ite
                 | with_reducible exact Sound.parts (by with_reducible assumption) | split | simp only [Sound_mk])

theorem State.sendEvent_sound (s : State) (e : Event) (hg : s.Sound Q) : (State.sendEvent s e).Sound Q := by
  unfold State.sendEvent
  repeat' (first | with_reducible assumption | intro _
                 | (fail_if_no_progress extract_lets +onlyGivenNames t; refine (fun (ht : State.Sound Q t) => ?_) ?_; clear_value t; on_goal 2 => (unfold t; clear t))
                 | with_reducible apply State.sendFrame_sound | with_reducible apply Sound.ite)

theorem State.event_sound (s : State) (typ subject : Nat) (step : Word) (arg : Word) (body : List Byte)
    (hg : s.Sound Q) : (State.event s typ subject step arg body).Sound Q := by
  unfold State.event
  repeat' (first | with_reducible apply State.sendEvent_sound | with_reducible apply State.wr_sound
                 | with_reducible exact Sound.parts (by with_reducible assumption) | split | simp only [Sound_mk])

theorem State.setRec_sound (s : State) (r : StepRec) (hg : s.Sound Q) : (State.setRec s r).Sound Q := by
  unfold State.setRec
  repeat' (first | with_reducible exact Sound.parts (by with_reducible assumption) | simp only [Sound_mk])

theorem State.collect_sound (s : State) (r : FaultRec) (hg : s.Sound Q) : (State.collect s r).Sound Q := by
  unfold State.collect
  repeat' (first | with_reducible exact Sound.parts (by with_reducible assumption) | simp only [Sound_mk])

theorem State.outOfService_sound (s : State) (d : Domain) (hg : s.Sound Q) : (State.outOfService s d).Sound Q := by
  unfold State.outOfService
  repeat' (first | with_reducible assumption | intro _ | with_reducible apply Sound.ite
                 | with_reducible exact Sound.parts (by with_reducible assumption) | simp only [Sound_mk])

/-! ## Allowance -/

theorem State.relend_sound (s : State) (q : Nat) (hg : s.Sound Q) : (State.relend s q).Sound Q := by
  unfold State.relend
  repeat' (first | with_reducible exact Sound.parts (by with_reducible assumption) | simp only [Sound_mk])

theorem State.setCore_sound (s : State) (c : Nat) (x : CoreState) (hg : s.Sound Q) :
    (State.setCore s c x).Sound Q := by
  unfold State.setCore
  repeat' (first | with_reducible exact Sound.parts (by with_reducible assumption) | simp only [Sound_mk])

theorem State.fillRows_sound (s : State) (core : Nat) (hg : s.Sound Q) : (State.fillRows s core).Sound Q := by
  unfold State.fillRows
  repeat' (first | with_reducible assumption | intro _
                 | (fail_if_no_progress extract_lets +onlyGivenNames t; refine (fun (ht : State.Sound Q t) => ?_) ?_; clear_value t; on_goal 2 => (unfold t; clear t))
                 | with_reducible apply State.bump_sound | with_reducible apply Sound.forN
                 | with_reducible exact Sound.parts (by with_reducible assumption) | simp only [Sound_mk])

theorem State.stopFill_sound (s : State) (core : Nat) (hg : s.Sound Q) : (State.stopFill s core).Sound Q := by
  unfold State.stopFill
  repeat' (first | with_reducible assumption | intro _ | with_reducible apply State.fillRows_sound
                 | with_reducible apply State.setCore_sound | with_reducible apply Sound.ite)

theorem State.setDeclared_sound (s : State) (core : Nat) (on : Bool) (hg : s.Sound Q) :
    (State.setDeclared s core on).Sound Q := by
  unfold State.setDeclared
  repeat' (first | with_reducible assumption | intro _
                 | (fail_if_no_progress extract_lets +onlyGivenNames t; refine (fun (ht : State.Sound Q t) => ?_) ?_; clear_value t; on_goal 2 => (unfold t; clear t))
                 | with_reducible apply State.stopFill_sound | with_reducible apply State.setCore_sound
                 | with_reducible apply State.relend_sound | with_reducible apply Sound.ite
                 | with_reducible apply Sound.parts | split | simp only [Sound_mk])

end Sys2Proof.Machine
end

