-- ==== Sys2Proof/Laws/SoundNet.lean ====
section
/-!
SUPPORT. Every operation keeps a state sound and leaves its queue alone: fabric, links, pages, frames, windows, plans, tiles and sync objects.
-/

set_option maxRecDepth 20000

namespace Sys2Proof.Machine

variable {q Q : List Instr}

/-! ## Fabric -/

theorem State.switchRoutes_sound (s : State) (hg : s.Sound Q) : (State.switchRoutes s).Sound Q := by
  unfold State.switchRoutes
  repeat' (first | with_reducible assumption | intro _ | with_reducible apply State.wr_sound
                 | with_reducible apply Sound.forN | with_reducible apply Sound.ite)

theorem State.setEdge_sound (s : State) (d e v : Nat) (hg : s.Sound Q) : (State.setEdge s d e v).Sound Q := by
  unfold State.setEdge
  repeat' (first | with_reducible assumption
                 | (fail_if_no_progress extract_lets +onlyGivenNames t; refine (fun (ht : State.Sound Q t) => ?_) ?_; clear_value t; on_goal 2 => (unfold t; clear t))
                 | with_reducible apply State.setField_sound | split)

theorem State.edgesDown_sound (s : State) (d : Nat) (hg : s.Sound Q) : (State.edgesDown s d).Sound Q := by
  unfold State.edgesDown
  repeat' (first | with_reducible assumption | intro _ | with_reducible apply State.setEdge_sound
                 | with_reducible apply Sound.forEach)

theorem State.countFabric_sound (s : State) (src dst n : Nat) (hg : s.Sound Q) :
    (State.countFabric s src dst n).Sound Q := by
  unfold State.countFabric
  repeat' (first | with_reducible assumption | intro _ | with_reducible apply State.bump_sound
                 | with_reducible apply Sound.forEach | with_reducible apply Sound.ite | split)

theorem State.trainStack_sound (s : State) (st : Nat) (hg : s.Sound Q) : (State.trainStack s st).Sound Q := by
  unfold State.trainStack
  repeat' (first | with_reducible assumption | with_reducible apply State.setField_sound)

theorem State.trainPorts_sound (s : State) (d : Nat) (hg : s.Sound Q) : (State.trainPorts s d).Sound Q := by
  unfold State.trainPorts
  repeat' (first | with_reducible assumption | intro _ | with_reducible apply State.trainStack_sound
                 | with_reducible apply Sound.forEach | with_reducible apply Sound.ite)

theorem State.portsDown_sound (s : State) (d v : Nat) (hg : s.Sound Q) : (State.portsDown s d v).Sound Q := by
  unfold State.portsDown
  repeat' (first | with_reducible assumption | intro _ | with_reducible apply State.setField_sound
                 | with_reducible apply Sound.forEach | with_reducible apply Sound.ite)

/-! ## Net -/

theorem State.enqueue_sound (s : State) (p vc : Nat) (bs : List Byte) (hg : s.Sound Q) :
    (State.enqueue s p vc bs).Sound Q := by
  unfold State.enqueue
  repeat' (first | with_reducible assumption | with_reducible apply State.setPort_sound)

theorem State.segmentLeaves_sound (s : State) (m : Msg) (p : Nat) (hg : s.Sound Q) :
    (State.segmentLeaves s m p).Sound Q := by
  unfold State.segmentLeaves
  repeat' (first | with_reducible assumption | intro _ | with_reducible apply Sound.ite
                 | with_reducible exact Sound.parts (by with_reducible assumption) | simp only [Sound_mk])

theorem State.sendMsg_sound (s : State) (die : Nat) (m : Msg) (hg : s.Sound Q) : (State.sendMsg s die m).Sound Q := by
  unfold State.sendMsg
  repeat' (first | with_reducible assumption | with_reducible apply State.segmentLeaves_sound
                 | with_reducible apply State.enqueue_sound
                 | with_reducible exact Sound.parts (by with_reducible assumption) | split | simp only [Sound_mk])

theorem State.track_sound (s : State) (l : List Track) (hg : s.Sound Q) : (State.track s l).Sound Q := by
  unfold State.track
  repeat' (first | with_reducible exact Sound.parts (by with_reducible assumption) | simp only [Sound_mk])

theorem State.request_sound (s : State) (x : Track) (m : Msg) (hg : s.Sound Q) : (State.request s x m).Sound Q := by
  unfold State.request
  repeat' (first | with_reducible assumption | intro _ | with_reducible apply State.track_sound
                 | with_reducible apply State.sendMsg_sound | with_reducible apply Sound.ite
                 | with_reducible exact Sound.parts (by with_reducible assumption) | simp only [Sound_mk])

theorem State.untrack_sound (s : State) (f : Track → Bool) (hg : s.Sound Q) : (State.untrack s f).Sound Q := by
  unfold State.untrack
  repeat' (first | with_reducible assumption | intro _ | with_reducible apply State.request_sound
                 | with_reducible apply Sound.forEach
                 | with_reducible exact Sound.parts (by with_reducible assumption) | simp only [Sound_mk])

theorem State.flushWaiting_sound (s : State) (hg : s.Sound Q) : (State.flushWaiting s).Sound Q := by
  unfold State.flushWaiting
  repeat' (first | with_reducible assumption | intro _ | with_reducible apply State.sendMsg_sound
                 | with_reducible apply Sound.forEach
                 | with_reducible exact Sound.parts (by with_reducible assumption) | simp only [Sound_mk])

theorem State.sendVc3_sound (s : State) (die : Nat) (m : Msg) (hg : s.Sound Q) : (State.sendVc3 s die m).Sound Q := by
  unfold State.sendVc3
  repeat' (first | with_reducible apply State.sendMsg_sound
                 | with_reducible exact Sound.parts (by with_reducible assumption) | simp only [Sound_mk])

theorem State.ledgerMsg_sound (s : State) (dst typ : Nat) (st : Step) (body : List Byte) (hg : s.Sound Q) :
    (State.ledgerMsg s dst typ st body).Sound Q := by
  unfold State.ledgerMsg
  repeat' (first | with_reducible assumption | with_reducible apply State.sendVc3_sound)

theorem State.treeSend_sound (s : State) (typ : Nat) (step : Step) (body : List Byte) (except : Nat)
    (hg : s.Sound Q) : (State.treeSend s typ step body except).Sound Q := by
  unfold State.treeSend
  repeat' (first | with_reducible assumption | intro _ | with_reducible apply State.ledgerMsg_sound
                 | with_reducible apply Sound.forEach)

theorem State.notice_sound (s : State) (sid : Nat) (step : Step) (allow gran : Nat) (withElapsed : Bool)
    (hg : s.Sound Q) : (State.notice s sid step allow gran withElapsed).Sound Q := by
  unfold State.notice
  repeat' (first | with_reducible assumption | with_reducible apply State.treeSend_sound
                 | with_reducible apply Sound.parts | split | simp only [Sound_mk])

theorem State.noticeTag_sound (s : State) (sid tag : Nat) (hg : s.Sound Q) : (State.noticeTag s sid tag).Sound Q := by
  unfold State.noticeTag
  repeat' (first | with_reducible assumption | with_reducible apply State.treeSend_sound | split)

theorem State.dropAttempt_sound (s : State) (sid : Nat) (hg : s.Sound Q) : (State.dropAttempt s sid).Sound Q := by
  unfold State.dropAttempt
  repeat' (first | with_reducible exact Sound.parts (by with_reducible assumption) | simp only [Sound_mk])

theorem State.toReplaying_sound (s : State) (sid : Nat) (hg : s.Sound Q) : (State.toReplaying s sid).Sound Q := by
  unfold State.toReplaying
  repeat' (first | with_reducible assumption | intro _ | with_reducible apply State.dropAttempt_sound
                 | with_reducible apply State.ledgerMsg_sound | with_reducible apply State.setRec_sound
                 | with_reducible apply State.setSlot_sound | with_reducible apply State.bump_sound
                 | with_reducible apply State.setField_sound | with_reducible apply Sound.forN
                 | with_reducible apply Sound.ite | split | simp only [Sound_mk])

theorem State.faultAgain_sound (s : State) (sid : Nat) (hg : s.Sound Q) : (State.faultAgain s sid).Sound Q := by
  unfold State.faultAgain
  repeat' (first | with_reducible assumption | intro _ | with_reducible apply State.setSlot_sound
                 | with_reducible apply Sound.ite)

theorem State.replaySlot_sound (s : State) (sid allow : Nat) (hg : s.Sound Q) :
    (State.replaySlot s sid allow).Sound Q := by
  unfold State.replaySlot
  repeat' (first | with_reducible assumption | intro _ | with_reducible apply State.toReplaying_sound
                 | with_reducible apply State.notice_sound | with_reducible apply Sound.ite)

theorem State.backRecs_sound (s : State) (sid : Nat) (st : Step) (hg : s.Sound Q) :
    (State.backRecs s sid st).Sound Q := by
  unfold State.backRecs
  repeat' (first | with_reducible assumption | intro _ | with_reducible apply State.ledgerMsg_sound
                 | with_reducible apply Sound.forEach | with_reducible apply Sound.parts | simp only [Sound_mk])

theorem State.goBack_sound (s : State) (sid : Nat) (st : Step) (hg : s.Sound Q) :
    (State.goBack s sid st).Sound Q := by
  unfold State.goBack
  repeat' (first | with_reducible assumption | intro _ | with_reducible apply State.backRecs_sound
                 | with_reducible apply State.toReplaying_sound | with_reducible apply State.setSlot_sound
                 | with_reducible apply Sound.ite)

theorem State.replayModule_sound (s : State) (sid : Nat) (st : Step) (allow : Nat) (hg : s.Sound Q) :
    (State.replayModule s sid st allow).Sound Q := by
  unfold State.replayModule
  repeat' (first | with_reducible assumption | intro _ | with_reducible apply State.goBack_sound
                 | with_reducible apply State.notice_sound | with_reducible apply Sound.forEach)

theorem State.replayShare_sound (s : State) (sid : Nat) (st : Step) (hg : s.Sound Q) :
    (State.replayShare s sid st).Sound Q := by
  unfold State.replayShare
  repeat' (first | with_reducible assumption | intro _ | with_reducible apply State.replayModule_sound
                 | with_reducible apply State.goBack_sound | with_reducible apply State.notice_sound
                 | with_reducible apply Sound.ite)

theorem State.stopSlot_sound (s : State) (sid : Nat) (hg : s.Sound Q) : (State.stopSlot s sid).Sound Q := by
  unfold State.stopSlot
  repeat' (first | with_reducible assumption | with_reducible apply State.setSlot_sound)

theorem State.partitionFatal_sound (s : State) (part : Nat) (hg : s.Sound Q) :
    (State.partitionFatal s part).Sound Q := by
  unfold State.partitionFatal
  repeat' (first | with_reducible assumption | intro _ | with_reducible apply State.stopSlot_sound
                 | with_reducible apply State.replayModule_sound | with_reducible apply State.replaySlot_sound
                 | with_reducible apply State.faultAgain_sound | with_reducible apply Sound.ite)

theorem State.moduleFatal_sound (s : State) (hg : s.Sound Q) : (State.moduleFatal s).Sound Q := by
  unfold State.moduleFatal
  repeat' (first | with_reducible assumption | intro _ | with_reducible apply State.send_sound
                 | with_reducible apply State.setSlot_sound | with_reducible apply Sound.forEach
                 | with_reducible exact Sound.parts (by with_reducible assumption) | simp only [Sound_mk])

theorem State.raiseAs_sound (s : State) (die code cls : Nat) (x : Site) (hg : s.Sound Q) :
    (State.raiseAs s die code cls x).Sound Q := by
  unfold State.raiseAs
  repeat' (first | with_reducible assumption | intro _ | with_reducible apply State.moduleFatal_sound
                 | with_reducible apply State.partitionFatal_sound | with_reducible apply State.collect_sound
                 | with_reducible apply Sound.ite)

theorem State.raise_sound (s : State) (die code : Nat) (x : Site) (hg : s.Sound Q) :
    (State.raise s die code x).Sound Q := by
  unfold State.raise
  repeat' (first | with_reducible assumption | with_reducible apply State.raiseAs_sound)

theorem State.closeFatal_sound (s : State) (hg : s.Sound Q) : (State.closeFatal s).Sound Q := by
  unfold State.closeFatal
  repeat' (first | with_reducible exact Sound.parts (by with_reducible assumption) | simp only [Sound_mk])

theorem State.rung7_sound (s : State) (code seq : Nat) (hg : s.Sound Q) : (State.rung7 s code seq).Sound Q := by
  unfold State.rung7
  repeat' (first | with_reducible assumption | intro _ | with_reducible apply State.closeFatal_sound
                 | with_reducible apply State.event_sound | with_reducible apply State.setSlot_sound
                 | with_reducible apply Sound.forEach)

theorem State.raisePlan_sound (s : State) (sid code op : Nat) (x : Site) (hg : s.Sound Q) :
    (State.raisePlan s sid code op x).Sound Q := by
  unfold State.raisePlan
  repeat' (first | with_reducible assumption | intro _ | with_reducible apply State.rung7_sound
                 | with_reducible apply State.raise_sound | with_reducible apply State.setSlot_sound
                 | with_reducible apply Sound.ite)

/-! ## Braze -/

theorem State.setPhase_sound (s : State) (p n : Nat) (hg : s.Sound Q) : (State.setPhase s p n).Sound Q := by
  unfold State.setPhase
  repeat' (first | with_reducible assumption | intro _ | with_reducible apply State.setPort_sound
                 | with_reducible apply State.setField_sound | with_reducible apply Sound.ite)

theorem State.portBump_sound (s : State) (p off : Nat) (n : Nat) (hg : s.Sound Q) :
    (State.portBump s p off n).Sound Q := by
  unfold State.portBump
  repeat' (first | with_reducible assumption | intro _ | with_reducible apply State.bump_sound
                 | with_reducible apply Sound.ite)

theorem State.txFlit_sound (s : State) (p : Nat) (f : Flit) (hg : s.Sound Q) : (State.txFlit s p f).Sound Q := by
  unfold State.txFlit
  repeat' (first | with_reducible assumption | with_reducible apply State.setPort_sound
                 | with_reducible apply State.send_sound)

theorem State.prbsSlot_sound (s : State) (p : Nat) (hg : s.Sound Q) : (State.prbsSlot s p).Sound Q := by
  unfold State.prbsSlot
  repeat' (first | with_reducible assumption
                 | (fail_if_no_progress extract_lets +onlyGivenNames t; refine (fun (ht : State.Sound Q t) => ?_) ?_; clear_value t; on_goal 2 => (unfold t; clear t))
                 | with_reducible apply State.portBump_sound
                 | with_reducible exact Sound.parts (by with_reducible assumption) | simp only [Sound_mk])

theorem transmit_sound (p : Nat) (s : State) (hg : s.Sound Q) : (transmit p s).Sound Q := by
  unfold transmit
  repeat' (first | with_reducible assumption | intro _
                 | (fail_if_no_progress extract_lets +onlyGivenNames t; refine (fun (ht : State.Sound Q t) => ?_) ?_; clear_value t; on_goal 2 => (unfold t; clear t))
                 | with_reducible apply State.prbsSlot_sound | with_reducible apply State.txFlit_sound
                 | with_reducible apply State.portBump_sound | with_reducible apply State.raise_sound
                 | with_reducible apply State.setPort_sound | with_reducible apply Sound.ite | split)

theorem execFlitTransmit_sound (p : Nat) (s : State) (hg : s.Sound Q) : OutSound Q (execFlitTransmit p s) := by
  unfold execFlitTransmit
  repeat' (first | with_reducible apply onUnit_sound | with_reducible assumption
                 | with_reducible apply transmit_sound)

theorem State.flitBad_sound (s : State) (p : Nat) (hg : s.Sound Q) : (State.flitBad s p).Sound Q := by
  unfold State.flitBad
  repeat' (first | with_reducible assumption | with_reducible apply State.portBump_sound
                 | with_reducible apply State.setPort_sound)

theorem State.countFec_sound (s : State) (p : Nat) (f : Flit) (hg : s.Sound Q) : (State.countFec s p f).Sound Q := by
  unfold State.countFec
  repeat' (first | with_reducible assumption | with_reducible apply State.portBump_sound)

theorem State.acceptFlit_sound (s : State) (p : Nat) (f : Flit) (hg : s.Sound Q) :
    (State.acceptFlit s p f).Sound Q := by
  unfold State.acceptFlit
  repeat' (first | with_reducible assumption | intro _ | with_reducible apply State.setPort_sound
                 | with_reducible apply Sound.ite | with_reducible apply Sound.parts | split | simp only [Sound_mk])

theorem State.outOfOrder_sound (s : State) (p : Nat) (hg : s.Sound Q) : (State.outOfOrder s p).Sound Q := by
  unfold State.outOfOrder
  repeat' (first | with_reducible assumption | with_reducible apply State.setPort_sound)

theorem takeFlit_sound (p : Nat) (f : Flit) (s : State) (hg : s.Sound Q) : (takeFlit p f s).Sound Q := by
  unfold takeFlit
  repeat' (first | with_reducible assumption | intro _
                 | (fail_if_no_progress extract_lets +onlyGivenNames t; refine (fun (ht : State.Sound Q t) => ?_) ?_; clear_value t; on_goal 2 => (unfold t; clear t))
                 | with_reducible apply State.outOfOrder_sound | with_reducible apply State.acceptFlit_sound
                 | with_reducible apply State.portBump_sound | with_reducible apply State.setPort_sound
                 | with_reducible apply Sound.ite)

theorem receive_sound (p : Nat) (f : Flit) (s : State) (hg : s.Sound Q) : (receive p f s).Sound Q := by
  unfold receive
  repeat' (first | with_reducible assumption | intro _ | with_reducible apply takeFlit_sound
                 | with_reducible apply State.countFec_sound | with_reducible apply State.flitBad_sound
                 | with_reducible apply Sound.ite)

theorem execDataFlit_sound (p : Nat) (f : Flit) (s : State) (hg : s.Sound Q) : OutSound Q (execDataFlit p f s) := by
  unfold execDataFlit
  repeat' (first | with_reducible apply onUnit_sound | with_reducible assumption | intro _
                 | with_reducible apply receive_sound | with_reducible apply Sound.ite)

theorem execAck_sound (p : Nat) (f : Flit) (s : State) (hg : s.Sound Q) : OutSound Q (execAck p f s) := by
  unfold execAck
  repeat' (first | with_reducible apply onUnit_sound | with_reducible assumption | intro _
                 | with_reducible apply receive_sound | with_reducible apply Sound.ite)

theorem execNak_sound (p : Nat) (f : Flit) (s : State) (hg : s.Sound Q) : OutSound Q (execNak p f s) := by
  unfold execNak
  repeat' (first | with_reducible apply onUnit_sound | with_reducible assumption | intro _
                 | with_reducible apply receive_sound | with_reducible apply Sound.ite)

theorem execAckIntervalTimer_sound (p : Nat) (s : State) (hg : s.Sound Q) : OutSound Q
    (execAckIntervalTimer p s) := by
  unfold execAckIntervalTimer
  repeat' (first | with_reducible apply onUnit_sound | with_reducible assumption | intro _
                 | with_reducible apply State.txFlit_sound | with_reducible apply State.setPort_sound
                 | with_reducible apply Sound.ite)

theorem State.setLaneMask_sound (s : State) (p k mask : Nat) (hg : s.Sound Q) :
    (State.setLaneMask s p k mask).Sound Q := by
  unfold State.setLaneMask
  repeat' (first | with_reducible assumption | intro _ | with_reducible apply State.setPort_sound
                 | with_reducible apply State.setField_sound | with_reducible apply Sound.forN
                 | with_reducible apply Sound.ite)

theorem State.setHealth_sound (s : State) (p tx rx : Nat) (hg : s.Sound Q) : (State.setHealth s p tx rx).Sound Q := by
  unfold State.setHealth
  repeat' (first | with_reducible assumption | with_reducible apply State.setLaneMask_sound
                 | with_reducible apply State.setPort_sound)

theorem State.useLanes_sound (s : State) (p tx rx : Nat) (hg : s.Sound Q) : (State.useLanes s p tx rx).Sound Q := by
  unfold State.useLanes
  repeat' (first | with_reducible assumption | intro _
                 | (fail_if_no_progress extract_lets +onlyGivenNames t; refine (fun (ht : State.Sound Q t) => ?_) ?_; clear_value t; on_goal 2 => (unfold t; clear t))
                 | with_reducible apply State.setLaneMask_sound | with_reducible apply State.setField_sound
                 | with_reducible apply Sound.ite)

theorem State.applyWidth_sound (s : State) (p : Nat) (hg : s.Sound Q) : (State.applyWidth s p).Sound Q := by
  unfold State.applyWidth
  repeat' (first | with_reducible assumption | with_reducible apply State.useLanes_sound)

theorem State.widthEvent_sound (s : State) (p : Nat) (hg : s.Sound Q) : (State.widthEvent s p).Sound Q := by
  unfold State.widthEvent
  repeat' (first | with_reducible assumption | intro _ | with_reducible apply State.event_sound
                 | with_reducible apply Sound.ite)

theorem State.handBack_sound (s : State) (p : Nat) (hg : s.Sound Q) : (State.handBack s p).Sound Q := by
  unfold State.handBack
  repeat' (first | with_reducible assumption | intro _ | with_reducible apply State.sendMsg_sound
                 | with_reducible apply State.setPort_sound | with_reducible apply Sound.forEach
                 | with_reducible apply Sound.ite | with_reducible apply Sound.parts | simp only [Sound_mk])

theorem State.portDown_sound (s : State) (p reason : Nat) (hg : s.Sound Q) : (State.portDown s p reason).Sound Q := by
  unfold State.portDown
  repeat' (first | with_reducible assumption | intro _ | with_reducible apply State.handBack_sound
                 | with_reducible apply State.useLanes_sound | with_reducible apply State.setPhase_sound
                 | with_reducible apply State.raise_sound | with_reducible apply State.setField_sound
                 | with_reducible apply Sound.ite)

theorem State.requestLight_sound (s : State) (p : Nat) (hg : s.Sound Q) : (State.requestLight s p).Sound Q := by
  unfold State.requestLight
  repeat' (first | with_reducible assumption | intro _ | with_reducible apply State.send_sound
                 | with_reducible apply Sound.ite | with_reducible exact Sound.parts (by with_reducible assumption)
                 | simp only [Sound_mk])

theorem State.releaseLight_sound (s : State) (p : Nat) (hg : s.Sound Q) : (State.releaseLight s p).Sound Q := by
  unfold State.releaseLight
  repeat' (first | with_reducible assumption | intro _ | with_reducible apply State.send_sound
                 | with_reducible apply Sound.ite | with_reducible exact Sound.parts (by with_reducible assumption)
                 | simp only [Sound_mk])

theorem brzEnable_sound (p : Nat) (s : State) (hg : s.Sound Q) : (brzEnable p s).Sound Q := by
  unfold brzEnable
  repeat' (first | with_reducible assumption | intro _
                 | (fail_if_no_progress extract_lets +onlyGivenNames t; refine (fun (ht : State.Sound Q t) => ?_) ?_; clear_value t; on_goal 2 => (unfold t; clear t))
                 | with_reducible apply State.requestLight_sound | with_reducible apply State.setPhase_sound
                 | with_reducible apply State.setField_sound | with_reducible apply Sound.ite)

theorem execBrzEnableSet_sound (p : Nat) (s : State) (hg : s.Sound Q) : OutSound Q (execBrzEnableSet p s) := by
  unfold execBrzEnableSet
  repeat' (first | with_reducible apply onUnit_sound | with_reducible assumption
                 | with_reducible apply brzEnable_sound)

theorem brzDisable_sound (p : Nat) (s : State) (hg : s.Sound Q) : (brzDisable p s).Sound Q := by
  unfold brzDisable
  repeat' (first | with_reducible assumption | intro _
                 | (fail_if_no_progress extract_lets +onlyGivenNames t; refine (fun (ht : State.Sound Q t) => ?_) ?_; clear_value t; on_goal 2 => (unfold t; clear t))
                 | with_reducible apply State.releaseLight_sound | with_reducible apply State.portDown_sound
                 | with_reducible apply State.setField_sound | with_reducible apply Sound.ite)

theorem execBrzEnableClear_sound (p : Nat) (s : State) (hg : s.Sound Q) : OutSound Q (execBrzEnableClear p s) := by
  unfold execBrzEnableClear
  repeat' (first | with_reducible apply onUnit_sound | with_reducible assumption
                 | with_reducible apply brzDisable_sound)

theorem execLightReady_sound (p : Nat) (s : State) (hg : s.Sound Q) : OutSound Q (execLightReady p s) := by
  unfold execLightReady
  repeat' (first | with_reducible apply onUnit_sound | with_reducible assumption | intro _
                 | with_reducible apply State.setPhase_sound | with_reducible apply Sound.ite)

theorem execTrainDone_sound (p tx rx : Nat) (search : Bool) (s : State) (hg : s.Sound Q) : OutSound Q
    (execTrainDone p tx rx search s) := by
  unfold execTrainDone
  repeat' (first | with_reducible apply onUnit_sound | with_reducible assumption | intro _
                 | (fail_if_no_progress extract_lets +onlyGivenNames t; refine (fun (ht : State.Sound Q t) => ?_) ?_; clear_value t; on_goal 2 => (unfold t; clear t))
                 | with_reducible apply State.setHealth_sound | with_reducible apply State.setPhase_sound
                 | with_reducible apply State.setPort_sound | with_reducible apply State.setField_sound
                 | with_reducible apply Sound.ite)

theorem execAlignDone_sound (p : Nat) (s : State) (hg : s.Sound Q) : OutSound Q (execAlignDone p s) := by
  unfold execAlignDone
  repeat' (first | with_reducible apply onUnit_sound | with_reducible assumption | intro _
                 | with_reducible apply transmit_sound | with_reducible apply State.setPhase_sound
                 | with_reducible apply Sound.ite)

theorem State.goUp_sound (s : State) (p : Nat) (hg : s.Sound Q) : (State.goUp s p).Sound Q := by
  unfold State.goUp
  repeat' (first | intro _ | with_reducible apply State.portDown_sound | with_reducible apply State.applyWidth_sound
                 | with_reducible apply State.setPhase_sound | with_reducible apply State.flushWaiting_sound
                 | with_reducible apply State.setPort_sound | with_reducible apply Sound.ite
                 | with_reducible exact Sound.parts (by with_reducible assumption) | simp only [Sound_mk])

theorem identFlit_sound (p : Nat) (f : Flit) (s : State) (hg : s.Sound Q) : (identFlit p f s).Sound Q := by
  unfold identFlit
  repeat' (first | with_reducible assumption | intro _
                 | (fail_if_no_progress extract_lets +onlyGivenNames t; refine (fun (ht : State.Sound Q t) => ?_) ?_; clear_value t; on_goal 2 => (unfold t; clear t))
                 | with_reducible apply State.goUp_sound | with_reducible apply State.countFec_sound
                 | with_reducible apply State.setPhase_sound | with_reducible apply State.event_sound
                 | with_reducible apply State.setField_sound | with_reducible apply Sound.ite)

theorem execIdent_sound (p : Nat) (f : Flit) (s : State) (hg : s.Sound Q) : OutSound Q (execIdent p f s) := by
  unfold execIdent
  repeat' (first | with_reducible apply onUnit_sound | with_reducible assumption
                 | with_reducible apply identFlit_sound)

theorem echoAnswer_sound (p : Nat) (f : Flit) (s : State) (hg : s.Sound Q) : (echoAnswer p f s).Sound Q := by
  unfold echoAnswer
  repeat' (first | with_reducible assumption | intro _
                 | (fail_if_no_progress extract_lets +onlyGivenNames t; refine (fun (ht : State.Sound Q t) => ?_) ?_; clear_value t; on_goal 2 => (unfold t; clear t))
                 | with_reducible apply State.portBump_sound | with_reducible apply State.setPort_sound
                 | with_reducible apply Sound.ite)

theorem echoFlit_sound (p : Nat) (f : Flit) (s : State) (hg : s.Sound Q) : (echoFlit p f s).Sound Q := by
  unfold echoFlit
  repeat' (first | with_reducible assumption | intro _
                 | (fail_if_no_progress extract_lets +onlyGivenNames t; refine (fun (ht : State.Sound Q t) => ?_) ?_; clear_value t; on_goal 2 => (unfold t; clear t))
                 | with_reducible apply echoAnswer_sound | with_reducible apply receive_sound
                 | with_reducible apply State.countFec_sound | with_reducible apply State.send_sound
                 | with_reducible apply Sound.ite)

theorem execEcho_sound (p : Nat) (f : Flit) (s : State) (hg : s.Sound Q) : OutSound Q (execEcho p f s) := by
  unfold execEcho
  repeat' (first | with_reducible apply onUnit_sound | with_reducible assumption
                 | with_reducible apply echoFlit_sound)

theorem execEchoTimeout_sound (p : Nat) (s : State) (hg : s.Sound Q) : OutSound Q (execEchoTimeout p s) := by
  unfold execEchoTimeout
  repeat' (first | with_reducible apply onUnit_sound | with_reducible assumption | intro _
                 | with_reducible apply State.portBump_sound | with_reducible apply State.setPort_sound
                 | with_reducible apply Sound.ite)

theorem execBrzStateTimeout_sound (p : Nat) (s : State) (hg : s.Sound Q) : OutSound Q (execBrzStateTimeout p s) := by
  unfold execBrzStateTimeout
  repeat' (first | with_reducible apply onUnit_sound | with_reducible assumption | intro _
                 | with_reducible apply State.portDown_sound | with_reducible apply Sound.ite)

theorem State.reLane_sound (s : State) (p : Nat) (hg : s.Sound Q) : (State.reLane s p).Sound Q := by
  unfold State.reLane
  repeat' (first | with_reducible assumption | intro _ | with_reducible apply State.setPhase_sound
                 | with_reducible apply State.setPort_sound | with_reducible apply Sound.ite)

theorem State.healthChanged_sound (s : State) (p : Nat) (hg : s.Sound Q) : (State.healthChanged s p).Sound Q := by
  unfold State.healthChanged
  repeat' (first | with_reducible assumption | intro _ | with_reducible apply State.reLane_sound
                 | with_reducible apply State.portDown_sound | with_reducible apply Sound.ite)

theorem laneHealth_sound (p tx rx : Nat) (s : State) (hg : s.Sound Q) : (laneHealth p tx rx s).Sound Q := by
  unfold laneHealth
  repeat' (first | with_reducible assumption | with_reducible apply State.healthChanged_sound
                 | with_reducible apply State.setHealth_sound)

theorem execLaneHealthChange_sound (p tx rx : Nat) (s : State) (hg : s.Sound Q) : OutSound Q
    (execLaneHealthChange p tx rx s) := by
  unfold execLaneHealthChange
  repeat' (first | with_reducible apply onUnit_sound | with_reducible assumption
                 | with_reducible apply laneHealth_sound)

theorem State.resendAll_sound (s : State) (p : Nat) (hg : s.Sound Q) : (State.resendAll s p).Sound Q := by
  unfold State.resendAll
  repeat' (first | with_reducible assumption | with_reducible apply State.setPort_sound)

theorem widthDone_sound (p : Nat) (s : State) (hg : s.Sound Q) : (widthDone p s).Sound Q := by
  unfold widthDone
  repeat' (first | with_reducible assumption | intro _ | with_reducible apply State.resendAll_sound
                 | with_reducible apply State.widthEvent_sound | with_reducible apply State.useLanes_sound
                 | with_reducible apply State.portBump_sound | with_reducible apply State.setPhase_sound
                 | with_reducible apply State.raise_sound | with_reducible apply State.flushWaiting_sound
                 | with_reducible apply Sound.ite)

theorem execWidthChangeDone_sound (p : Nat) (s : State) (hg : s.Sound Q) : OutSound Q (execWidthChangeDone p s) := by
  unfold execWidthChangeDone
  repeat' (first | with_reducible apply onUnit_sound | with_reducible assumption
                 | with_reducible apply widthDone_sound)

theorem State.toRetrain_sound (s : State) (p : Nat) (hg : s.Sound Q) : (State.toRetrain s p).Sound Q := by
  unfold State.toRetrain
  repeat' (first | with_reducible assumption | with_reducible apply State.portBump_sound
                 | with_reducible apply State.setPhase_sound)

theorem execCodewordLockLost_sound (p : Nat) (s : State) (hg : s.Sound Q) : OutSound Q
    (execCodewordLockLost p s) := by
  unfold execCodewordLockLost
  repeat' (first | with_reducible apply onUnit_sound | with_reducible assumption | intro _
                 | with_reducible apply State.toRetrain_sound | with_reducible apply Sound.ite)

theorem execRetryLimReached_sound (p : Nat) (s : State) (hg : s.Sound Q) : OutSound Q (execRetryLimReached p s) := by
  unfold execRetryLimReached
  repeat' (first | with_reducible apply onUnit_sound | with_reducible assumption | intro _
                 | with_reducible apply State.toRetrain_sound | with_reducible apply State.setPort_sound
                 | with_reducible apply Sound.ite)

theorem execRetrainDone_sound (p : Nat) (s : State) (hg : s.Sound Q) : OutSound Q (execRetrainDone p s) := by
  unfold execRetrainDone
  repeat' (first | with_reducible apply onUnit_sound | with_reducible assumption | intro _
                 | with_reducible apply State.resendAll_sound | with_reducible apply State.portDown_sound
                 | with_reducible apply State.applyWidth_sound | with_reducible apply State.setPhase_sound
                 | with_reducible apply State.flushWaiting_sound | with_reducible apply Sound.ite)

theorem execLossOfSignal_sound (p : Nat) (s : State) (hg : s.Sound Q) : OutSound Q (execLossOfSignal p s) := by
  unfold execLossOfSignal
  repeat' (first | with_reducible apply onUnit_sound | with_reducible assumption | intro _
                 | with_reducible apply State.portDown_sound | with_reducible apply Sound.ite)

theorem execBrzPortRestart_sound (p : Nat) (s : State) (hg : s.Sound Q) : OutSound Q (execBrzPortRestart p s) := by
  unfold execBrzPortRestart
  repeat' (first | with_reducible apply onUnit_sound | with_reducible assumption | intro _
                 | with_reducible apply brzEnable_sound | with_reducible apply Sound.ite)

theorem State.laserFault_sound (s : State) (e input : Nat) (hg : s.Sound Q) :
    (State.laserFault s e input).Sound Q := by
  unfold State.laserFault
  repeat' (first | with_reducible assumption | intro _ | with_reducible apply State.raise_sound
                 | with_reducible apply Sound.forEach | split)

theorem laser_sound (die engine input dbm : Nat) (s : State) (hg : s.Sound Q) :
    (laser die engine input dbm s).Sound Q := by
  unfold laser
  repeat' (first | with_reducible assumption | intro _ | with_reducible apply State.laserFault_sound
                 | with_reducible apply laneHealth_sound | with_reducible apply Sound.forEach
                 | with_reducible apply Sound.ite | with_reducible exact Sound.parts (by with_reducible assumption)
                 | split | simp only [Sound_mk])

theorem execLaserInput_sound (die engine input dbm : Nat) (s : State) (hg : s.Sound Q) : OutSound Q
    (execLaserInput die engine input dbm s) := by
  unfold execLaserInput
  repeat' (first | with_reducible apply onUnit_sound | with_reducible assumption | with_reducible apply laser_sound)

theorem rewiden_sound (die : Nat) (s : State) (hg : s.Sound Q) : (rewiden die s).Sound Q := by
  unfold rewiden
  repeat' (first | with_reducible assumption | intro _ | with_reducible apply State.setPhase_sound
                 | with_reducible apply State.setPort_sound | with_reducible apply Sound.forN
                 | with_reducible apply Sound.ite)

theorem State.lightLost_sound (s : State) (engines : List Nat) (hg : s.Sound Q) :
    (State.lightLost s engines).Sound Q := by
  unfold State.lightLost
  repeat' (first | with_reducible assumption | intro _ | with_reducible apply State.portDown_sound
                 | with_reducible apply Sound.forN | with_reducible apply Sound.ite)

/-! ## Pages -/

theorem State.reject_sound (s : State) (die blk off reason : Nat) (hg : s.Sound Q) :
    (State.reject s die blk off reason).Sound Q := by
  unfold State.reject
  repeat' (first | with_reducible assumption | with_reducible apply State.wr_sound)

theorem State.setSwap_sound (s : State) (die blk v : Nat) (hg : s.Sound Q) : (State.setSwap s die blk v).Sound Q := by
  unfold State.setSwap
  repeat' (first | with_reducible assumption | with_reducible apply State.setField_sound)

theorem State.shadowLoad_sound (s : State) (die blk : Nat) (hg : s.Sound Q) :
    (State.shadowLoad s die blk).Sound Q := by
  unfold State.shadowLoad
  repeat' (first | with_reducible assumption | intro _ | with_reducible apply State.wr_sound
                 | with_reducible apply Sound.forEach)

theorem State.setArmed_sound (s : State) (key v : Nat) (hg : s.Sound Q) : (State.setArmed s key v).Sound Q := by
  unfold State.setArmed
  repeat' (first | with_reducible exact Sound.parts (by with_reducible assumption) | simp only [Sound_mk])

theorem State.arm_sound (s : State) (die blk : Nat) (hg : s.Sound Q) : (State.arm s die blk).Sound Q := by
  unfold State.arm
  repeat' (first | with_reducible assumption | with_reducible apply State.setArmed_sound
                 | with_reducible apply State.setSwap_sound | with_reducible apply State.reject_sound | split)

theorem State.disarm_sound (s : State) (die blk : Nat) (hg : s.Sound Q) : (State.disarm s die blk).Sound Q := by
  unfold State.disarm
  repeat' (first | with_reducible assumption | intro _ | with_reducible apply State.setArmed_sound
                 | with_reducible apply State.setSwap_sound | with_reducible apply State.reject_sound
                 | with_reducible apply Sound.ite)

theorem State.blkCtl_sound (s : State) (die blk : Nat) (v : Word) (hg : s.Sound Q) :
    (State.blkCtl s die blk v).1.Sound Q := by
  unfold State.blkCtl
  repeat' (first | with_reducible assumption | with_reducible apply State.disarm_sound
                 | with_reducible apply State.arm_sound | with_reducible apply State.shadowLoad_sound
                 | with_reducible apply State.reject_sound | split | simp only [Sound_mk])

theorem State.blkCmd_sound (s : State) (p : Path) (die blk c : Nat) (hg : s.Sound Q) :
    (State.blkCmd s p die blk c).Sound Q := by
  unfold State.blkCmd
  repeat' (first | with_reducible assumption | intro _ | with_reducible apply State.blkCtl_sound
                 | with_reducible apply State.reject_sound | with_reducible apply Sound.ite)

theorem execShadowLoad_sound (p : Path) (die blk : Nat) (s : State) (hg : s.Sound Q) : OutSound Q
    (execShadowLoad p die blk s) := by
  unfold execShadowLoad
  repeat' (first | with_reducible apply onUnit_sound | with_reducible assumption
                 | with_reducible apply State.blkCmd_sound)

theorem execArm_sound (p : Path) (die blk : Nat) (s : State) (hg : s.Sound Q) : OutSound Q (execArm p die blk s) := by
  unfold execArm
  repeat' (first | with_reducible apply onUnit_sound | with_reducible assumption
                 | with_reducible apply State.blkCmd_sound)

theorem execDisarm_sound (p : Path) (die blk : Nat) (s : State) (hg : s.Sound Q) : OutSound Q
    (execDisarm p die blk s) := by
  unfold execDisarm
  repeat' (first | with_reducible apply onUnit_sound | with_reducible assumption
                 | with_reducible apply State.blkCmd_sound)

theorem State.movePlanArea_sound (s : State) (from_ to_ : Nat) (hg : s.Sound Q) :
    (State.movePlanArea s from_ to_).Sound Q := by
  unfold State.movePlanArea
  repeat' (first | with_reducible assumption | intro _ | with_reducible apply State.setStack_sound
                 | with_reducible apply Sound.ite | with_reducible apply moveBytes_wf
                 | with_reducible apply Memory.wf_clear
                 | with_reducible exact Sound.stack (by with_reducible assumption))

theorem State.applyPage_sound (s : State) (key : Nat) (hg : s.Sound Q) : (State.applyPage s key).Sound Q := by
  unfold State.applyPage
  repeat' (first | with_reducible assumption | intro _
                 | (fail_if_no_progress extract_lets +onlyGivenNames t; refine (fun (ht : State.Sound Q t) => ?_) ?_; clear_value t; on_goal 2 => (unfold t; clear t))
                 | with_reducible apply State.movePlanArea_sound | with_reducible apply State.setArmed_sound
                 | with_reducible apply State.setSwap_sound | with_reducible apply State.setField_sound
                 | with_reducible apply State.wr_sound | with_reducible apply Sound.forEach
                 | with_reducible apply Sound.ite)

theorem State.refusePage_sound (s : State) (key : Nat) (hg : s.Sound Q) : (State.refusePage s key).Sound Q := by
  unfold State.refusePage
  repeat' (first | with_reducible assumption | with_reducible apply State.setArmed_sound
                 | with_reducible apply State.setSwap_sound | with_reducible apply State.reject_sound)

theorem State.eachArmed_sound (s : State) (st n : Nat) (q : Nat → Bool) (f : Nat → State → State) (h : s.Sound Q)
    (hf : ∀ k t, t.Sound Q → (f k t).Sound Q) : (State.eachArmed s st n q f).Sound Q := by
  unfold State.eachArmed
  exact Sound.forEach _ _ hf h

theorem State.pagesPending_sound (s : State) (n : Nat) (hg : s.Sound Q) : (State.pagesPending s n).Sound Q := by
  unfold State.pagesPending
  repeat' (first | with_reducible assumption | intro _ | with_reducible apply State.eachArmed_sound
                 | with_reducible apply State.setSwap_sound)

theorem State.pagesRefused_sound (s : State) (n : Nat) (hg : s.Sound Q) : (State.pagesRefused s n).Sound Q := by
  unfold State.pagesRefused
  repeat' (first | with_reducible assumption | intro _ | with_reducible apply State.eachArmed_sound
                 | with_reducible apply State.refusePage_sound)

theorem State.slotPages_sound (s : State) (sid n : Nat) (hg : s.Sound Q) : (State.slotPages s sid n).Sound Q := by
  unfold State.slotPages
  repeat' (first | with_reducible assumption | intro _ | with_reducible apply State.eachArmed_sound
                 | with_reducible apply State.applyPage_sound)

theorem State.setPages_sound (s : State) (n : Nat) (hg : s.Sound Q) : (State.setPages s n).Sound Q := by
  unfold State.setPages
  repeat' (first | with_reducible assumption | intro _ | with_reducible apply State.eachArmed_sound
                 | with_reducible apply State.applyPage_sound)

theorem State.genesisPages_sound (s : State) (hg : s.Sound Q) : (State.genesisPages s).Sound Q := by
  unfold State.genesisPages
  repeat' (first | with_reducible assumption | intro _ | with_reducible apply State.eachArmed_sound
                 | with_reducible apply State.applyPage_sound)

/-! ## Frames -/

theorem State.setCpStatus_sound (s : State) (v : Nat) (hg : s.Sound Q) : (State.setCpStatus s v).Sound Q := by
  unfold State.setCpStatus
  repeat' (first | with_reducible assumption | intro _ | with_reducible apply State.setField_sound
                 | with_reducible apply Sound.forEach)

theorem State.endSession_sound (s : State) (hg : s.Sound Q) : (State.endSession s).Sound Q := by
  unfold State.endSession
  repeat' (first | with_reducible apply State.setCpStatus_sound
                 | with_reducible exact Sound.parts (by with_reducible assumption) | simp only [Sound_mk])

theorem State.authFail_sound (s : State) (p : Path) (time : Nat) (hg : s.Sound Q) :
    (State.authFail s p time).Sound Q := by
  unfold State.authFail
  repeat' (first | intro _ | with_reducible apply State.endSession_sound | with_reducible apply State.bump_sound
                 | with_reducible apply Sound.ite | with_reducible exact Sound.parts (by with_reducible assumption)
                 | split | simp only [Sound_mk])

theorem State.respond_sound (s : State) (p : Path) (f : Frame) (status aux : Nat) (data : List Byte)
    (hg : s.Sound Q) : (State.respond s p f status aux data).Sound Q := by
  unfold State.respond
  repeat' (first | with_reducible assumption | with_reducible apply State.sendFrame_sound)

theorem State.mgmtBad_sound (s : State) (f : Frame) (typ : Nat) (hg : s.Sound Q) :
    (State.mgmtBad s f typ).Sound Q := by
  unfold State.mgmtBad
  repeat' (first | with_reducible assumption | intro _ | with_reducible apply State.respond_sound
                 | with_reducible apply State.sendFrame_sound | with_reducible apply Sound.ite)

theorem State.recv_sound (s : State) (p : Path) (f : Frame) (typ : Nat) (hg : s.Sound Q) :
    (State.recv s p f typ).1.Sound Q := by
  unfold State.recv
  repeat' (first | with_reducible assumption | with_reducible apply State.mgmtBad_sound
                 | with_reducible apply State.respond_sound | with_reducible apply State.authFail_sound
                 | with_reducible apply State.sendFrame_sound | with_reducible apply State.bump_sound
                 | with_reducible apply Sound.parts | split | simp only [Sound_mk])

theorem State.countBad_sound (s : State) (p : Path) (hg : s.Sound Q) : (State.countBad s p).Sound Q := by
  unfold State.countBad
  repeat' (first | with_reducible assumption | with_reducible apply State.bump_sound | split)

/-! ## Window -/

theorem State.sendDma_sound (s : State) (d : Dma) (hg : s.Sound Q) : (State.sendDma s d).Sound Q := by
  unfold State.sendDma
  repeat' (first | with_reducible assumption | intro _ | with_reducible apply State.sendFrame_sound
                 | with_reducible apply Sound.ite)

theorem State.issueDma_sound (s : State) (d : Dma) (hg : s.Sound Q) : (State.issueDma s d).Sound Q := by
  unfold State.issueDma
  repeat' (first | with_reducible apply State.sendDma_sound
                 | with_reducible exact Sound.parts (by with_reducible assumption) | simp only [Sound_mk])

theorem State.dropPull_sound (s : State) (p : Pull) (hg : s.Sound Q) : (State.dropPull s p).Sound Q := by
  unfold State.dropPull
  repeat' (first | with_reducible exact Sound.parts (by with_reducible assumption) | simp only [Sound_mk])

theorem State.setPull_sound (s : State) (p : Pull) (hg : s.Sound Q) : (State.setPull s p).Sound Q := by
  unfold State.setPull
  repeat' (first | with_reducible exact Sound.parts (by with_reducible assumption) | simp only [Sound_mk])

theorem State.readEntry_sound (s : State) (p : Pull) (off n : Nat) (hg : s.Sound Q) :
    (State.readEntry s p off n).Sound Q := by
  unfold State.readEntry
  repeat' (first | with_reducible assumption | with_reducible apply State.issueDma_sound)

theorem State.readHeader_sound (s : State) (p : Pull) (hg : s.Sound Q) : (State.readHeader s p).Sound Q := by
  unfold State.readHeader
  repeat' (first | with_reducible assumption | with_reducible apply State.readEntry_sound
                 | with_reducible apply State.setPull_sound)

theorem State.startPull_sound (s : State) (p : Pull) (hg : s.Sound Q) : (State.startPull s p).Sound Q := by
  unfold State.startPull
  repeat' (first | with_reducible apply State.readHeader_sound
                 | with_reducible exact Sound.parts (by with_reducible assumption) | simp only [Sound_mk])

/-! ## Plan -/

theorem State.planRegs_sound (s : State) (hg : s.Sound Q) : (State.planRegs s).Sound Q := by
  unfold State.planRegs
  repeat' (first | with_reducible assumption | with_reducible apply State.setField_sound
                 | with_reducible apply State.wr_sound)

theorem State.setPlan_sound (s : State) (p : PlanState) (hg : s.Sound Q) : (State.setPlan s p).Sound Q := by
  unfold State.setPlan
  repeat' (first | with_reducible apply State.planRegs_sound
                 | with_reducible exact Sound.parts (by with_reducible assumption) | simp only [Sound_mk])

theorem State.putDigest_sound (s : State) (off : Nat) (d : List Byte) (hg : s.Sound Q) :
    (State.putDigest s off d).Sound Q := by
  unfold State.putDigest
  repeat' (first | with_reducible assumption | intro _ | with_reducible apply State.wr_sound
                 | with_reducible apply Sound.forN)

theorem State.planReject_sound (s : State) (code gen where_ : Nat) (hg : s.Sound Q) :
    (State.planReject s code gen where_).Sound Q := by
  unfold State.planReject
  repeat' (first | with_reducible assumption | with_reducible apply State.event_sound
                 | with_reducible apply State.setField_sound)

theorem State.rejectImage_sound (s : State) (code sid : Nat) (hg : s.Sound Q) :
    (State.rejectImage s code sid).Sound Q := by
  unfold State.rejectImage
  repeat' (first | with_reducible assumption | with_reducible apply State.planReject_sound
                 | with_reducible apply State.setPlan_sound)

theorem State.rejectSize_sound (s : State) (sid : Nat) (hg : s.Sound Q) : (State.rejectSize s sid).Sound Q := by
  unfold State.rejectSize
  repeat' (first | with_reducible assumption | with_reducible apply State.rejectImage_sound)

theorem State.judge_sound (s : State) (sid : Nat) (hg : s.Sound Q) : (State.judge s sid).Sound Q := by
  unfold State.judge
  repeat' (first | with_reducible assumption | intro _ | with_reducible apply State.rejectSize_sound
                 | with_reducible apply State.rejectImage_sound | with_reducible apply State.setPlan_sound
                 | with_reducible apply Sound.ite | split)

theorem State.chunkIn_sound (s : State) (sid off : Nat) (bs : List Byte) (hg : s.Sound Q) :
    (State.chunkIn s sid off bs).Sound Q := by
  unfold State.chunkIn
  repeat' (first | with_reducible assumption | intro _ | with_reducible apply State.judge_sound
                 | with_reducible apply State.rejectSize_sound | with_reducible apply State.rejectImage_sound
                 | with_reducible apply State.setImg_sound | with_reducible apply Sound.ite
                 | with_reducible apply Sound.parts | simp only [Sound_mk])

theorem State.askReload_sound (s : State) (sid gen : Nat) (step : Word) (hg : s.Sound Q) :
    (State.askReload s sid gen step).Sound Q := by
  unfold State.askReload
  repeat' (first | with_reducible apply State.event_sound
                 | with_reducible exact Sound.parts (by with_reducible assumption) | simp only [Sound_mk])

theorem State.reloaded_sound (s : State) (hg : s.Sound Q) : (State.reloaded s).Sound Q := by
  unfold State.reloaded
  repeat' (first | with_reducible assumption | intro _ | with_reducible apply State.setPlan_sound
                 | with_reducible apply Sound.ite)

theorem State.reloadIn_sound (s : State) (sid off : Nat) (bs : List Byte) (h : s.Sound Q) :
    (State.reloadIn s sid off bs).Sound Q := by
  have ht : (s.setImg sid (decide (s.plan.reloadGen ≠ s.plan.activeGen)) off bs).Sound Q := State.setImg_sound _ _ _ _ _ h
  unfold State.reloadIn
  dsimp only
  generalize s.setImg sid (decide (s.plan.reloadGen ≠ s.plan.activeGen)) off bs = t at ht
  refine Sound.ite (fun _ => h) (fun _ => ?_)
  refine Sound.ite (fun _ => Sound.ite (fun _ => ?_) (fun _ => ?_)) (fun _ => ht)
  · with_reducible apply State.reloaded_sound
    exact ht
  · with_reducible apply State.askReload_sound
    exact ht

theorem planData_sound (p : Path) (f : Frame) (s : State) (hg : s.Sound Q) : (planData p f s).Sound Q := by
  unfold planData
  repeat' (first | with_reducible assumption | intro _ | with_reducible apply State.reloadIn_sound
                 | with_reducible apply State.chunkIn_sound | with_reducible apply State.recv_sound
                 | with_reducible apply State.respond_sound | with_reducible apply Sound.ite
                 | with_reducible apply Sound.parts
                 | with_reducible refine Sound.ofFst (by with_reducible assumption) ?_ | split
                 | simp only [Sound_mk])

theorem execPlanData_sound (p : Path) (f : Frame) (s : State) (hg : s.Sound Q) : OutSound Q (execPlanData p f s) := by
  unfold execPlanData
  repeat' (first | with_reducible apply ok_sound | with_reducible assumption | with_reducible apply planData_sound)

theorem routeApply_sound (s : State) (hg : s.Sound Q) : (routeApply s).Sound Q := by
  unfold routeApply
  repeat' (first | with_reducible assumption | intro _ | with_reducible apply State.reject_sound
                 | with_reducible apply State.flushWaiting_sound | with_reducible apply State.event_sound
                 | with_reducible apply Sound.forEach | with_reducible apply Sound.forN
                 | with_reducible apply Sound.ite | with_reducible exact Sound.parts (by with_reducible assumption)
                 | with_reducible apply Sound.parts | simp only [Sound_mk])

theorem execRouteImageApply_sound (s : State) (hg : s.Sound Q) : OutSound Q (execRouteImageApply s) := by
  unfold execRouteImageApply
  repeat' (first | with_reducible apply ok_sound | with_reducible assumption | with_reducible apply routeApply_sound)

theorem plnLoadBegin_sound (gen : Nat) (s : State) (hg : s.Sound Q) : (plnLoadBegin gen s).Sound Q := by
  unfold plnLoadBegin
  repeat' (first | with_reducible assumption | intro _ | with_reducible apply State.planReject_sound
                 | with_reducible apply State.putDigest_sound | with_reducible apply State.setPlan_sound
                 | with_reducible apply Sound.ite)

theorem plnLoadCommit_sound (s : State) (hg : s.Sound Q) : (plnLoadCommit s).Sound Q := by
  unfold plnLoadCommit
  repeat' (first | with_reducible assumption | intro _ | with_reducible apply State.planReject_sound
                 | with_reducible apply State.putDigest_sound | with_reducible apply State.setPlan_sound
                 | with_reducible apply Sound.ite | split)

theorem plnLoadDiscard_sound (s : State) (hg : s.Sound Q) : (plnLoadDiscard s).Sound Q := by
  unfold plnLoadDiscard
  repeat' (first | with_reducible assumption | intro _ | with_reducible apply State.planReject_sound
                 | with_reducible apply State.putDigest_sound | with_reducible apply State.setPlan_sound
                 | with_reducible apply Sound.ite)

theorem State.mgmtRefuse_sound (s : State) (off : Nat) (hg : s.Sound Q) : (State.mgmtRefuse s off).Sound Q := by
  unfold State.mgmtRefuse
  repeat' (first | with_reducible assumption | with_reducible apply State.reject_sound)

theorem execPlnLoadBegin_sound (p : Path) (gen : Nat) (s : State) (hg : s.Sound Q) : OutSound Q
    (execPlnLoadBegin p gen s) := by
  unfold execPlnLoadBegin
  repeat' (first | with_reducible apply ok_sound | with_reducible assumption | intro _
                 | with_reducible apply State.mgmtRefuse_sound | with_reducible apply plnLoadBegin_sound
                 | with_reducible apply Sound.ite)

theorem execPlnLoadCommit_sound (p : Path) (s : State) (hg : s.Sound Q) : OutSound Q (execPlnLoadCommit p s) := by
  unfold execPlnLoadCommit
  repeat' (first | with_reducible apply ok_sound | with_reducible assumption | intro _
                 | with_reducible apply State.mgmtRefuse_sound | with_reducible apply plnLoadCommit_sound
                 | with_reducible apply Sound.ite)

theorem execPlnLoadDiscard_sound (p : Path) (s : State) (hg : s.Sound Q) : OutSound Q (execPlnLoadDiscard p s) := by
  unfold execPlnLoadDiscard
  repeat' (first | with_reducible apply ok_sound | with_reducible assumption | intro _
                 | with_reducible apply State.mgmtRefuse_sound | with_reducible apply plnLoadDiscard_sound
                 | with_reducible apply Sound.ite)

theorem swapReq_sound (s : State) (hg : s.Sound Q) : (swapReq s).Sound Q := by
  unfold swapReq
  repeat' (first | with_reducible assumption | intro _ | with_reducible apply State.planReject_sound
                 | with_reducible apply State.setPlan_sound | with_reducible apply Sound.ite)

theorem State.cancelSwap_sound (s : State) (reason : Nat) (hg : s.Sound Q) : (State.cancelSwap s reason).Sound Q := by
  unfold State.cancelSwap
  repeat' (first | with_reducible assumption | intro _ | with_reducible apply Sound.ite
                 | with_reducible exact Sound.parts (by with_reducible assumption) | split | simp only [Sound_mk])

theorem execSwapReq_sound (p : Path) (s : State) (hg : s.Sound Q) : OutSound Q (execSwapReq p s) := by
  unfold execSwapReq
  repeat' (first | with_reducible apply ok_sound | with_reducible assumption | intro _
                 | with_reducible apply swapReq_sound | with_reducible apply State.mgmtRefuse_sound
                 | with_reducible apply Sound.ite)

theorem execSwapCancel_sound (p : Path) (s : State) (hg : s.Sound Q) : OutSound Q (execSwapCancel p s) := by
  unfold execSwapCancel
  repeat' (first | with_reducible apply ok_sound | with_reducible assumption | intro _
                 | with_reducible apply State.cancelSwap_sound | with_reducible apply State.mgmtRefuse_sound
                 | with_reducible apply Sound.ite)

theorem execSwapTimeout_sound (s : State) (hg : s.Sound Q) : OutSound Q (execSwapTimeout s) := by
  unfold execSwapTimeout
  repeat' (first | with_reducible apply ok_sound | with_reducible assumption
                 | with_reducible apply State.cancelSwap_sound)

theorem State.carryPlan_sound (s : State) (a b : Nat) (hg : s.Sound Q) : (State.carryPlan s a b).Sound Q := by
  unfold State.carryPlan
  repeat' (first | with_reducible assumption | intro _ | with_reducible apply State.setStack_sound
                 | with_reducible apply Sound.ite | with_reducible apply moveBytes_wf
                 | with_reducible apply Memory.wf_clear
                 | with_reducible exact Sound.stack (by with_reducible assumption))

theorem State.layDown_sound (s : State) (n : Nat) (hg : s.Sound Q) : (State.layDown s n).Sound Q := by
  unfold State.layDown
  repeat' (first | with_reducible assumption | with_reducible apply State.setStack_sound
                 | with_reducible apply Sound.parts | with_reducible apply moveBytes_wf
                 | with_reducible apply Memory.wf_clear
                 | with_reducible exact Sound.stack (by with_reducible assumption) | simp only [Sound_mk])

theorem State.putXlat_sound (s : State) (n : Nat) (new : Word) (hg : s.Sound Q) :
    (State.putXlat s n new).Sound Q := by
  unfold State.putXlat
  refine Sound.ite (fun _ => hg) (fun _ => ?_)
  dsimp only
  have ht := State.wr_sound s 60 0 (0x200 + 8 * n) (setFld new 47 40 (fld (s.xlat n) 47 40 + 1)) hg
  generalize s.wr 60 0 (0x200 + 8 * n) (setFld new 47 40 (fld (s.xlat n) 47 40 + 1)) = t at ht
  have hu : (if xMs new = xMs (s.xlat n) then t else t.setSlot n { t.slot n with frozenOk := false }).Sound Q :=
    Sound.ite (fun _ => ht) (fun _ => State.setSlot_sound _ _ _ ht)
  generalize (if xMs new = xMs (s.xlat n) then t else t.setSlot n { t.slot n with frozenOk := false }) = u at hu
  exact Sound.ite (fun _ => hu) (fun _ => Sound.ite (fun _ => State.layDown_sound _ _ hu) (fun _ => State.carryPlan_sound _ _ _ hu))

theorem State.takeXlat_sound (s : State) (n : Nat) (st : Step) (hg : s.Sound Q) :
    (State.takeXlat s n st).Sound Q := by
  unfold State.takeXlat
  repeat' (first | with_reducible assumption | intro _ | with_reducible apply State.putXlat_sound
                 | with_reducible apply Sound.forEach
                 | with_reducible exact Sound.parts (by with_reducible assumption) | simp only [Sound_mk])

theorem State.carryOff_sound (s : State) (n : Nat) (hg : s.Sound Q) : (State.carryOff s n).Sound Q := by
  unfold State.carryOff
  repeat' (first | with_reducible assumption | intro _ | with_reducible apply Sound.ite
                 | with_reducible exact Sound.parts (by with_reducible assumption) | simp only [Sound_mk])

theorem State.dueXlats_sound (s : State) (st : Step) (hg : s.Sound Q) : (State.dueXlats s st).Sound Q := by
  unfold State.dueXlats
  repeat' (first | with_reducible assumption | intro _ | with_reducible apply State.carryOff_sound
                 | with_reducible apply State.takeXlat_sound | with_reducible apply State.setSlot_sound
                 | with_reducible apply Sound.forN | with_reducible apply Sound.ite
                 | with_reducible exact Sound.parts (by with_reducible assumption)
                 | with_reducible apply Sound.parts | split | simp only [Sound_mk])

theorem State.takeXlats_sound (s : State) (st : Step) (hg : s.Sound Q) : (State.takeXlats s st).Sound Q := by
  unfold State.takeXlats
  repeat' (first | with_reducible assumption | intro _ | with_reducible apply State.takeXlat_sound
                 | with_reducible apply Sound.forN)

theorem State.fwXlat_sound (s : State) (n : Nat) (new : Word) (hg : s.Sound Q) : (State.fwXlat s n new).Sound Q := by
  unfold State.fwXlat
  repeat' (first | with_reducible assumption | intro _ | with_reducible apply State.putXlat_sound
                 | with_reducible apply Sound.ite | with_reducible exact Sound.parts (by with_reducible assumption)
                 | simp only [Sound_mk])

theorem swapHalves_wf (m : SMap Byte) (a : Nat) (h : Memory.wf m = true) : Memory.wf (swapHalves m a) = true :=
  moveBytes_wf _ _ _ _ (moveBytes_wf _ _ _ _ (Memory.wf_clear _ _ _ h))

theorem State.exchangeSets_sound (s : State) (n : Nat) (h : s.Sound Q) : (State.exchangeSets s n).Sound Q := by
  unfold State.exchangeSets
  dsimp only
  apply State.dueXlats_sound
  apply State.setPages_sound
  apply State.wr_sound
  apply Sound.forN
  · intro _ _ _
    apply State.wr_sound
    apply State.wr_sound
    assumption
  · apply State.setPlan_sound
    apply Sound.forEach
    · intro _ _ hs
      exact State.setSlot_sound _ _ _ hs
    · exact ⟨h.1, SMap.wf_foldl _ _ (fun m i hm => swapHalves_wf m _ hm) h.2.1, h.2.2.1, h.2.2.2.1, h.2.2.2.2⟩

theorem State.exchangeAtGenesis_sound (s : State) (hg : s.Sound Q) : (State.exchangeAtGenesis s).Sound Q := by
  unfold State.exchangeAtGenesis
  repeat' (first | with_reducible assumption
                 | (fail_if_no_progress extract_lets +onlyGivenNames t; refine (fun (ht : State.Sound Q t) => ?_) ?_; clear_value t; on_goal 2 => (unfold t; clear t))
                 | with_reducible apply State.exchangeSets_sound | with_reducible apply State.takeXlats_sound
                 | with_reducible apply State.putDigest_sound | with_reducible apply State.setPlan_sound
                 | with_reducible apply State.wr_sound)

theorem State.retireGen_sound (s : State) (hg : s.Sound Q) : (State.retireGen s).Sound Q := by
  unfold State.retireGen
  repeat' (first | with_reducible assumption | intro _ | with_reducible apply State.putDigest_sound
                 | with_reducible apply State.setPlan_sound | with_reducible apply State.event_sound
                 | with_reducible apply Sound.ite)

/-! ## Tiles -/

theorem State.writeLoc_sound (s : State) (l : Loc) (bs : List Byte) (h : s.Sound Q) :
    (State.writeLoc s l bs).Sound Q := by
  cases l with
  | near pa => exact State.stN_sound _ _ _ h
  | dsm d o => exact ⟨h.1, h.2.1, h.2.2.1, SMap.wf_setRun _ _ h.2.2.2.1, h.2.2.2.2⟩
  | far p o => exact ⟨h.1, h.2.1, SMap.wf_setRun _ _ h.2.2.1, h.2.2.2.1, h.2.2.2.2⟩
  | none => exact h

theorem State.carryPoison_sound (s : State) (l : Loc) (ds : List Nat) (hg : s.Sound Q) :
    (State.carryPoison s l ds).Sound Q := by
  unfold State.carryPoison
  repeat' (first | with_reducible assumption | with_reducible exact Sound.parts (by with_reducible assumption)
                 | split | simp only [Sound_mk])

theorem State.markLines_sound (s : State) (l : Loc) (n : Nat) (dirty : Bool) (hg : s.Sound Q) :
    (State.markLines s l n dirty).Sound Q := by
  unfold State.markLines
  repeat' (first | with_reducible assumption | with_reducible exact Sound.parts (by with_reducible assumption)
                 | split | simp only [Sound_mk])

theorem State.tileSeal_sound (s : State) (die : Nat) (st : Step) (t : Tensor) (pp i : Nat) (tag : Step)
    (hg : s.Sound Q) : (State.tileSeal s die st t pp i tag).Sound Q := by
  unfold State.tileSeal
  repeat' (first | with_reducible assumption | with_reducible apply State.writeLoc_sound)

theorem State.sealRange_sound (s : State) (die : Nat) (st : Step) (ts : List Tensor) (a n : Nat)
    (hg : s.Sound Q) : (State.sealRange s die st ts a n).Sound Q := by
  unfold State.sealRange
  repeat' (first | with_reducible assumption | intro _ | with_reducible apply State.tileSeal_sound
                 | with_reducible apply Sound.forEach | with_reducible apply Sound.ite | split)

theorem State.wakeStack_sound (s : State) (stack : Nat) (hg : s.Sound Q) : (State.wakeStack s stack).Sound Q := by
  unfold State.wakeStack
  repeat' (first | with_reducible assumption | intro _ | with_reducible apply State.setField_sound
                 | with_reducible apply Sound.ite | with_reducible exact Sound.parts (by with_reducible assumption)
                 | split | simp only [Sound_mk])

theorem State.access_sound (s : State) (die a : Nat) (l : Loc) (n : Nat) (write : Bool) (hg : s.Sound Q) :
    (State.access s die a l n write).Sound Q := by
  unfold State.access
  repeat' (first | with_reducible assumption | intro _ | with_reducible apply State.wakeStack_sound
                 | with_reducible apply State.countFabric_sound | with_reducible apply State.bump_sound
                 | with_reducible apply Sound.ite | with_reducible apply Sound.parts | split | simp only [Sound_mk])

theorem State.landPut_sound (s : State) (sid : Nat) (o : Op) (i off : Nat) (bs : List Byte) (hg : s.Sound Q) :
    (State.landPut s sid o i off bs).Sound Q := by
  unfold State.landPut
  repeat' (first | with_reducible assumption | intro _ | with_reducible apply State.access_sound
                 | with_reducible apply State.sealRange_sound | with_reducible apply State.markLines_sound
                 | with_reducible apply State.writeLoc_sound | with_reducible apply Sound.ite)

theorem State.declareHeld_sound (s : State) (sid : Nat) (o : Op) (on : Bool) (hg : s.Sound Q) :
    (State.declareHeld s sid o on).Sound Q := by
  unfold State.declareHeld
  repeat' (first | with_reducible assumption | intro _ | with_reducible apply State.setDeclared_sound
                 | with_reducible apply Sound.ite)

theorem State.putAt_sound (s : State) (sid : Nat) (o : Op) (i off : Nat) (bs : List Byte) (hg : s.Sound Q) :
    (State.putAt s sid o i off bs).Sound Q := by
  unfold State.putAt
  repeat' (first | with_reducible assumption | intro _ | with_reducible apply State.declareHeld_sound
                 | with_reducible apply State.landPut_sound | with_reducible apply Sound.ite
                 | with_reducible exact Sound.parts (by with_reducible assumption) | simp only [Sound_mk])

theorem State.landHeld_sound (s : State) (hg : s.Sound Q) : (State.landHeld s).Sound Q := by
  unfold State.landHeld
  repeat' (first | with_reducible assumption | intro _ | with_reducible apply State.declareHeld_sound
                 | with_reducible apply State.landPut_sound | with_reducible apply Sound.forEach
                 | with_reducible apply Sound.ite | with_reducible exact Sound.parts (by with_reducible assumption)
                 | simp only [Sound_mk])

/-! ## Sync -/

theorem State.setObj_sound (s : State) (k : Nat) (o : SyncObj) (hg : s.Sound Q) : (State.setObj s k o).Sound Q := by
  unfold State.setObj
  repeat' (first | with_reducible exact Sound.parts (by with_reducible assumption) | simp only [Sound_mk])

theorem State.syncFault_sound (s : State) (k code op : Nat) (hg : s.Sound Q) :
    (State.syncFault s k code op).Sound Q := by
  unfold State.syncFault
  repeat' (first | with_reducible assumption | intro _ | with_reducible apply State.raisePlan_sound
                 | with_reducible apply State.raise_sound | with_reducible apply Sound.ite | split)

theorem State.retain_sound (s : State) (sid : Nat) (n : Step) (op seg kind : Nat) (bs : List Byte)
    (msg : Option Msg) (marks : List Nat) (hg : s.Sound Q) : (State.retain s sid n op seg kind bs msg marks).Sound Q := by
  unfold State.retain
  repeat' (first | with_reducible assumption | with_reducible apply State.stN_sound
                 | with_reducible apply Sound.parts | simp only [Sound_mk])

theorem State.answer_sound (s : State) (die : Nat) (m : Msg) (status : Nat) (hg : s.Sound Q) :
    (State.answer s die m status).Sound Q := by
  unfold State.answer
  repeat' (first | with_reducible assumption | intro _
                 | (fail_if_no_progress extract_lets +onlyGivenNames t; refine (fun (ht : State.Sound Q t) => ?_) ?_; clear_value t; on_goal 2 => (unfold t; clear t))
                 | with_reducible apply State.sendMsg_sound | with_reducible apply State.bump_sound
                 | with_reducible apply Sound.ite)

theorem State.land_sound (s : State) (m : Msg) (hg : s.Sound Q) : (State.land s m).Sound Q := by
  unfold State.land
  repeat' (first | with_reducible assumption | with_reducible apply State.access_sound
                 | with_reducible apply State.sealRange_sound | with_reducible apply State.writeLoc_sound)

theorem State.landed_sound (s : State) (die : Nat) (m : Msg) (hg : s.Sound Q) : (State.landed s die m).Sound Q := by
  unfold State.landed
  repeat' (first | with_reducible assumption | intro _
                 | (fail_if_no_progress extract_lets +onlyGivenNames t; refine (fun (ht : State.Sound Q t) => ?_) ?_; clear_value t; on_goal 2 => (unfold t; clear t))
                 | with_reducible apply State.answer_sound | with_reducible apply State.retain_sound
                 | with_reducible apply State.untrack_sound | with_reducible apply Sound.ite
                 | with_reducible exact Sound.parts (by with_reducible assumption)
                 | with_reducible apply Sound.parts | simp only [Sound_mk])

theorem State.park_sound (s : State) (a : Arrival) (hg : s.Sound Q) : (State.park s a).Sound Q := by
  unfold State.park
  repeat' (first | with_reducible assumption | intro _
                 | (fail_if_no_progress extract_lets +onlyGivenNames t; refine (fun (ht : State.Sound Q t) => ?_) ?_; clear_value t; on_goal 2 => (unfold t; clear t))
                 | with_reducible apply State.answer_sound | with_reducible apply State.syncFault_sound
                 | with_reducible apply State.bump_sound | with_reducible apply Sound.ite
                 | with_reducible exact Sound.parts (by with_reducible assumption) | split | simp only [Sound_mk])

theorem State.takeParked_sound (s : State) (k : Nat) (st : Step) (gen : Nat) (hg : s.Sound Q) :
    (State.takeParked s k st gen).1.Sound Q := by
  unfold State.takeParked
  repeat' (first | with_reducible exact Sound.parts (by with_reducible assumption) | simp only [Sound_mk])

theorem State.releaseWaiter_sound (s : State) (w : Waiter) (hg : s.Sound Q) : (State.releaseWaiter s w).Sound Q := by
  unfold State.releaseWaiter
  repeat' (first | with_reducible assumption | intro _ | with_reducible apply State.setOp_sound
                 | with_reducible apply Sound.ite)

theorem State.objNext_sound (s : State) (k : Nat) (hg : s.Sound Q) : (State.objNext s k).1.Sound Q := by
  unfold State.objNext
  repeat' (first | with_reducible assumption | with_reducible apply State.takeParked_sound
                 | with_reducible apply State.setObj_sound | split | simp only [Sound_mk])

theorem State.nodeComplete_sound (s : State) (k : Nat) (hg : s.Sound Q) : (State.nodeComplete s k).1.Sound Q := by
  unfold State.nodeComplete
  repeat' (first | with_reducible assumption | with_reducible apply State.sendVc3_sound | split
                 | simp only [Sound_mk])

theorem State.objComplete_sound (s : State) (k : Nat) (hg : s.Sound Q) : (State.objComplete s k).1.Sound Q := by
  unfold State.objComplete
  repeat' (first | with_reducible assumption | intro _ | with_reducible apply State.nodeComplete_sound
                 | with_reducible apply State.objNext_sound | with_reducible apply State.releaseWaiter_sound
                 | with_reducible apply State.setObj_sound | with_reducible apply Sound.forEach | split
                 | simp only [Sound_mk])

theorem State.countDross_sound (s : State) (die : Nat) (hg : s.Sound Q) : (State.countDross s die).Sound Q := by
  unfold State.countDross
  repeat' (first | with_reducible exact Sound.parts (by with_reducible assumption) | simp only [Sound_mk])

theorem State.count_sound (s : State) (a : Arrival) (hg : s.Sound Q) : (State.count s a).1.Sound Q := by
  unfold State.count
  repeat' (first | with_reducible assumption | with_reducible apply State.countDross_sound
                 | with_reducible apply State.objComplete_sound | with_reducible apply State.landed_sound
                 | with_reducible apply State.land_sound | with_reducible apply State.answer_sound
                 | with_reducible apply State.syncFault_sound | with_reducible apply State.setObj_sound | split
                 | simp only [Sound_mk])

theorem State.releaseChild_sound (s : State) (die : Nat) (st : Step) (c : NodeChild) (hg : s.Sound Q) :
    (State.releaseChild s die st c).1.Sound Q := by
  unfold State.releaseChild
  repeat' (first | with_reducible assumption | with_reducible apply State.countDross_sound
                 | with_reducible apply State.sendVc3_sound | split | simp only [Sound_mk])

theorem gather_sound {α : Type} (l : List α) (f : α → State → State × List SyncAct) (s : State)
    (hf : ∀ a t, t.Sound Q → (f a t).1.Sound Q) (h : s.Sound Q) : (gather l f s).1.Sound Q := by
  unfold gather
  exact Sound.foldl1 _ _ (fun p a hp => hf a p.1 hp) h

theorem State.nodeRelease_sound (s : State) (k : Nat) (st : Step) (gen : Nat) (hg : s.Sound Q) :
    (State.nodeRelease s k st gen).1.Sound Q := by
  unfold State.nodeRelease
  repeat' (first | with_reducible assumption | intro _ | with_reducible apply gather_sound
                 | with_reducible apply State.releaseChild_sound | with_reducible apply State.objNext_sound | split
                 | simp only [Sound_mk])

theorem State.record_sound (s : State) (a : Arrival) (hg : s.Sound Q) : (State.record s a).1.Sound Q := by
  unfold State.record
  repeat' (first | with_reducible assumption | with_reducible exact Sound.parts (by with_reducible assumption)
                 | split | simp only [Sound_mk])

theorem State.arriveAt_sound (s : State) (a : Arrival) (hg : s.Sound Q) : (State.arriveAt s a).1.Sound Q := by
  unfold State.arriveAt
  repeat' (first | with_reducible assumption | with_reducible apply State.record_sound
                 | with_reducible apply State.releaseChild_sound | with_reducible apply State.count_sound
                 | with_reducible apply State.park_sound | with_reducible apply State.answer_sound
                 | with_reducible apply State.syncFault_sound | with_reducible apply State.bump_sound
                 | with_reducible refine Sound.ofFst (by with_reducible assumption) ?_ | split
                 | simp only [Sound_mk])

theorem State.waitAt_sound (s : State) (k : Nat) (w : Waiter) (hg : s.Sound Q) : (State.waitAt s k w).1.Sound Q := by
  unfold State.waitAt
  repeat' (first | with_reducible assumption | with_reducible apply State.objNext_sound
                 | with_reducible apply State.releaseWaiter_sound | with_reducible apply State.syncFault_sound
                 | with_reducible apply State.setObj_sound | split | simp only [Sound_mk])

theorem State.syncAct_sound (s : State) (a : SyncAct) (h : s.Sound Q) : (State.syncAct s a).1.Sound Q := by
  cases a with
  | arrive a => exact State.arriveAt_sound _ _ h
  | release k st g => exact State.nodeRelease_sound _ _ _ _ h
  | wait k w => exact State.waitAt_sound _ _ _ h

theorem syncRun_sound (n : Nat) (l : List SyncAct) (s : State) (h : s.Sound Q) : (syncRun n l s).Sound Q := by
  induction n generalizing l s with
  | zero => exact h
  | succ n ih =>
    cases l with
    | nil => exact h
    | cons a l => exact ih _ _ (State.syncAct_sound s a h)

theorem State.sync_sound (s : State) (l : List SyncAct) (h : s.Sound Q) : (State.sync s l).Sound Q := syncRun_sound _ _ _ h

theorem State.idleObjs_sound (s : State) (die : Nat) (hg : s.Sound Q) : (State.idleObjs s die).Sound Q := by
  unfold State.idleObjs
  repeat' (first | with_reducible assumption | intro _ | with_reducible apply State.setObj_sound
                 | with_reducible apply Sound.forEach)

theorem State.dropObjs_sound (s : State) (die : Nat) (hg : s.Sound Q) : (State.dropObjs s die).Sound Q := by
  unfold State.dropObjs
  repeat' (first | with_reducible assumption
                 | (fail_if_no_progress extract_lets +onlyGivenNames t; refine (fun (ht : State.Sound Q t) => ?_) ?_; clear_value t; on_goal 2 => (unfold t; clear t))
                 | with_reducible apply State.idleObjs_sound
                 | with_reducible exact Sound.parts (by with_reducible assumption) | simp only [Sound_mk])

theorem State.armObjs_sound (s : State) (sid : Nat) (reopened : Bool) (hg : s.Sound Q) :
    (State.armObjs s sid reopened).Sound Q := by
  unfold State.armObjs
  repeat' (first | with_reducible assumption | intro _
                 | (fail_if_no_progress extract_lets +onlyGivenNames t; refine (fun (ht : State.Sound Q t) => ?_) ?_; clear_value t; on_goal 2 => (unfold t; clear t))
                 | with_reducible apply State.idleObjs_sound | with_reducible apply State.sync_sound
                 | with_reducible apply gather_sound | with_reducible apply State.takeParked_sound
                 | with_reducible apply State.syncFault_sound | with_reducible apply State.setObj_sound
                 | with_reducible apply Sound.forEach | with_reducible apply Sound.ite | split)

theorem State.creditSource_sound (s : State) (sid : Nat) (hg : s.Sound Q) : (State.creditSource s sid).Sound Q := by
  unfold State.creditSource
  repeat' (first | with_reducible exact Sound.parts (by with_reducible assumption) | simp only [Sound_mk])

end Sys2Proof.Machine
end

