-- ==== Sys2Proof/Laws/SoundRun.lean ====
section
/-!
SUPPORT. Every operation keeps a state sound and leaves its queue alone: the ledger, checkpoints, memory, power, messages and the run of ops.
-/

set_option maxRecDepth 20000

namespace Sys2Proof.Machine

variable {q Q : List Instr}

/-! ## Ledger -/

theorem State.ldgFault_sound (s : State) (code : Nat) (hg : s.Sound Q) : (State.ldgFault s code).Sound Q := by
  unfold State.ldgFault
  repeat' (first | with_reducible assumption | with_reducible apply State.raise_sound)

theorem State.ldgReject_sound (s : State) (off reason : Nat) (hg : s.Sound Q) :
    (State.ldgReject s off reason).Sound Q := by
  unfold State.ldgReject
  repeat' (first | with_reducible assumption | with_reducible apply State.reject_sound)

theorem State.ctlReject_sound (s : State) (p : Path) (reason : Nat) (hg : s.Sound Q) :
    (State.ctlReject s p reason).Sound Q := by
  unfold State.ctlReject
  repeat' (first | with_reducible assumption | intro _ | with_reducible apply State.ldgReject_sound
                 | with_reducible apply State.reject_sound | with_reducible apply Sound.ite)

theorem State.sendSeg_sound (s : State) (sid : Nat) (o : Op) (m : Msg) (hg : s.Sound Q) :
    (State.sendSeg s sid o m).Sound Q := by
  unfold State.sendSeg
  repeat' (first | with_reducible assumption | with_reducible apply State.retain_sound
                 | with_reducible apply State.request_sound | with_reducible apply Sound.parts
                 | simp only [Sound_mk])

theorem State.sendPut_sound (s : State) (sid : Nat) (o : Op) (bs : List Byte) (zero : Bool) (hg : s.Sound Q) :
    (State.sendPut s sid o bs zero).Sound Q := by
  unfold State.sendPut
  repeat' (first | with_reducible assumption | intro _
                 | (fail_if_no_progress extract_lets +onlyGivenNames t; refine (fun (ht : State.Sound Q t) => ?_) ?_; clear_value t; on_goal 2 => (unfold t; clear t))
                 | with_reducible apply State.sendSeg_sound | with_reducible apply State.setRec_sound
                 | with_reducible apply Sound.forEach | split)

theorem State.keepCarry_sound (s : State) (sid : Nat) (o : Op) (d : DeferEntry) (hg : s.Sound Q) :
    (State.keepCarry s sid o d).Sound Q := by
  unfold State.keepCarry
  repeat' (first | with_reducible assumption | intro _ | with_reducible apply State.retain_sound
                 | with_reducible apply State.setRec_sound | with_reducible apply Sound.ite | split
                 | simp only [Sound_mk])

theorem State.actSwap_sound (s : State) (f : SwapField) (hg : s.Sound Q) : (State.actSwap s f).Sound Q := by
  unfold State.actSwap
  repeat' (first | with_reducible assumption | intro _ | with_reducible apply State.setPlan_sound
                 | with_reducible apply State.pagesRefused_sound | with_reducible apply State.pagesPending_sound
                 | with_reducible apply State.event_sound | with_reducible apply Sound.ite
                 | with_reducible exact Sound.parts (by with_reducible assumption) | split | simp only [Sound_mk])

theorem State.freePart_sound (s : State) (n : Step) (hg : s.Sound Q) : (State.freePart s n).Sound Q := by
  unfold State.freePart
  repeat' (first | with_reducible exact Sound.parts (by with_reducible assumption) | simp only [Sound_mk])

theorem State.releaseStep_sound (s : State) (n : Step) (hg : s.Sound Q) : (State.releaseStep s n).Sound Q := by
  unfold State.releaseStep
  repeat' (first | with_reducible assumption
                 | (fail_if_no_progress extract_lets +onlyGivenNames t; refine (fun (ht : State.Sound Q t) => ?_) ?_; clear_value t; on_goal 2 => (unfold t; clear t))
                 | with_reducible apply State.freePart_sound | with_reducible apply State.event_sound
                 | with_reducible exact Sound.parts (by with_reducible assumption) | simp only [Sound_mk])

theorem State.setBay_sound (s : State) (st b : Nat) (x : Bay) (hg : s.Sound Q) : (State.setBay s st b x).Sound Q := by
  unfold State.setBay
  repeat' (first | with_reducible exact Sound.parts (by with_reducible assumption) | simp only [Sound_mk])

theorem State.ckpSealed_sound (s : State) (n : Step) (hg : s.Sound Q) : (State.ckpSealed s n).Sound Q := by
  unfold State.ckpSealed
  repeat' (first | with_reducible assumption | intro _ | with_reducible apply State.setBay_sound
                 | with_reducible apply State.bump_sound | with_reducible apply Sound.forEach
                 | with_reducible apply Sound.ite | with_reducible exact Sound.parts (by with_reducible assumption)
                 | with_reducible apply Sound.parts | split | simp only [Sound_mk])

theorem State.sealStep_sound (s : State) (n : Step) (body : List Byte) (hg : s.Sound Q) :
    (State.sealStep s n body).Sound Q := by
  unfold State.sealStep
  repeat' (first | with_reducible assumption | intro _
                 | (fail_if_no_progress extract_lets +onlyGivenNames t; refine (fun (ht : State.Sound Q t) => ?_) ?_; clear_value t; on_goal 2 => (unfold t; clear t))
                 | with_reducible apply State.ckpSealed_sound | with_reducible apply State.releaseStep_sound
                 | with_reducible apply State.actSwap_sound | with_reducible apply State.landHeld_sound
                 | with_reducible apply State.retireGen_sound | with_reducible apply State.ledgerMsg_sound
                 | with_reducible apply State.event_sound | with_reducible apply State.bump_sound
                 | with_reducible apply State.wr_sound | with_reducible apply Sound.forEach
                 | with_reducible apply Sound.ite | with_reducible exact Sound.parts (by with_reducible assumption)
                 | with_reducible apply Sound.parts | split | simp only [Sound_mk])

theorem State.fire_sound (s : State) (r : StepRec) (hg : s.Sound Q) : (State.fire s r).Sound Q := by
  unfold State.fire
  repeat' (first | with_reducible assumption | intro _ | with_reducible apply State.sealStep_sound
                 | with_reducible apply State.ledgerMsg_sound | with_reducible apply State.setRec_sound
                 | with_reducible apply Sound.ite)

theorem State.progress_sound (s : State) (hg : s.Sound Q) : (State.progress s).Sound Q := by
  unfold State.progress
  repeat' (first | with_reducible assumption | intro _ | with_reducible apply State.fire_sound
                 | with_reducible apply State.setRec_sound | with_reducible apply Sound.forEach | split)

theorem State.genSplit_sound (s : State) (n : Step) (hg : s.Sound Q) : (State.genSplit s n).Sound Q := by
  unfold State.genSplit
  repeat' (first | with_reducible assumption | with_reducible apply State.rung7_sound
                 | with_reducible apply State.raise_sound)

theorem State.newRec_sound (s : State) (r : StepRec) (hg : s.Sound Q) : (State.newRec s r).Sound Q := by
  unfold State.newRec
  repeat' (first | intro _ | with_reducible apply State.genSplit_sound | with_reducible apply Sound.ite
                 | with_reducible exact Sound.parts (by with_reducible assumption) | simp only [Sound_mk])

theorem State.ldgChecked_sound (s : State) (m : Msg) (hg : s.Sound Q) : (State.ldgChecked s m).Sound Q := by
  unfold State.ldgChecked
  repeat' (first | intro _ | with_reducible apply State.genSplit_sound | with_reducible apply State.progress_sound
                 | with_reducible apply Sound.ite | with_reducible exact Sound.parts (by with_reducible assumption)
                 | split | simp only [Sound_mk])

theorem State.ldgUncheck_sound (s : State) (m : Msg) (hg : s.Sound Q) : (State.ldgUncheck s m).Sound Q := by
  unfold State.ldgUncheck
  repeat' (first | intro _ | with_reducible apply State.ledgerMsg_sound | with_reducible apply State.setRec_sound
                 | with_reducible apply Sound.ite | with_reducible exact Sound.parts (by with_reducible assumption)
                 | split | simp only [Sound_mk])

theorem State.ldgSeal_sound (s : State) (m : Msg) (hg : s.Sound Q) : (State.ldgSeal s m).Sound Q := by
  unfold State.ldgSeal
  repeat' (first | with_reducible assumption | intro _ | with_reducible apply State.progress_sound
                 | with_reducible apply State.sealStep_sound | with_reducible apply Sound.ite | split)

theorem State.extend_sound (s : State) (origin id ext : Nat) (hg : s.Sound Q) :
    (State.extend s origin id ext).Sound Q := by
  unfold State.extend
  repeat' (first | with_reducible assumption | intro _ | with_reducible apply Sound.ite
                 | with_reducible exact Sound.parts (by with_reducible assumption) | simp only [Sound_mk])

theorem State.backAll_sound (s : State) (n : Step) (hg : s.Sound Q) : (State.backAll s n).Sound Q := by
  unfold State.backAll
  repeat' (first | with_reducible assumption | intro _ | with_reducible apply State.goBack_sound
                 | with_reducible apply Sound.forEach)

theorem State.forwardNotice_sound (s : State) (m : Msg) (hg : s.Sound Q) : (State.forwardNotice s m).Sound Q := by
  unfold State.forwardNotice
  repeat' (first | with_reducible assumption | with_reducible apply State.treeSend_sound)

theorem State.ldgReplay_sound (s : State) (m : Msg) (hg : s.Sound Q) : (State.ldgReplay s m).Sound Q := by
  unfold State.ldgReplay
  repeat' (first | with_reducible assumption | intro _ | with_reducible apply State.forwardNotice_sound
                 | with_reducible apply State.backAll_sound | with_reducible apply State.extend_sound
                 | with_reducible apply Sound.ite | with_reducible apply Sound.parts | split | simp only [Sound_mk])

theorem State.ldgReopen_sound (s : State) (m : Msg) (hg : s.Sound Q) : (State.ldgReopen s m).Sound Q := by
  unfold State.ldgReopen
  repeat' (first | with_reducible assumption | intro _
                 | (fail_if_no_progress extract_lets +onlyGivenNames t; refine (fun (ht : State.Sound Q t) => ?_) ?_; clear_value t; on_goal 2 => (unfold t; clear t))
                 | with_reducible apply State.forwardNotice_sound | with_reducible apply State.sendMsg_sound
                 | with_reducible apply Sound.forEach | with_reducible apply Sound.ite | split)

theorem State.deferObj_sound (s : State) (d : DeferEntry) (hg : s.Sound Q) : (State.deferObj s d).Sound Q := by
  unfold State.deferObj
  repeat' (first | with_reducible assumption | intro _ | with_reducible apply State.setObj_sound
                 | with_reducible apply Sound.ite)

theorem State.deferOp_sound (s : State) (sid : Nat) (o : Op) (d : DeferEntry) (hg : s.Sound Q) :
    (State.deferOp s sid o d).Sound Q := by
  unfold State.deferOp
  repeat' (first | with_reducible assumption | intro _ | with_reducible apply State.keepCarry_sound
                 | with_reducible apply State.sendPut_sound | with_reducible apply State.setRec_sound
                 | with_reducible apply Sound.ite | split)

theorem State.deferPuts_sound (s : State) (d : DeferEntry) (hg : s.Sound Q) : (State.deferPuts s d).Sound Q := by
  unfold State.deferPuts
  repeat' (first | with_reducible assumption | intro _ | with_reducible apply State.deferOp_sound
                 | with_reducible apply Sound.forEach | with_reducible apply Sound.ite)

theorem State.decision_sound (s : State) (d : DeferEntry) (hg : s.Sound Q) : (State.decision s d).Sound Q := by
  unfold State.decision
  repeat' (first | with_reducible assumption | intro _ | with_reducible apply State.deferPuts_sound
                 | with_reducible apply State.deferObj_sound | with_reducible apply State.progress_sound
                 | with_reducible apply State.wr_sound | with_reducible apply Sound.ite
                 | with_reducible exact Sound.parts (by with_reducible assumption) | simp only [Sound_mk])

theorem State.rootDefer_sound (s : State) (d : DeferEntry) (hg : s.Sound Q) : (State.rootDefer s d).Sound Q := by
  unfold State.rootDefer
  repeat' (first | with_reducible assumption | intro _ | with_reducible apply State.decision_sound
                 | with_reducible apply State.ledgerMsg_sound | with_reducible apply Sound.forEach)

theorem State.ldgDeferReq_sound (s : State) (m : Msg) (hg : s.Sound Q) : (State.ldgDeferReq s m).Sound Q := by
  unfold State.ldgDeferReq
  repeat' (first | with_reducible assumption | intro _ | with_reducible apply State.rootDefer_sound
                 | with_reducible apply State.ledgerMsg_sound | with_reducible apply Sound.ite)

theorem State.ldgDefer_sound (s : State) (m : Msg) (hg : s.Sound Q) : (State.ldgDefer s m).Sound Q := by
  unfold State.ldgDefer
  repeat' (first | with_reducible assumption | intro _ | with_reducible apply State.decision_sound
                 | with_reducible apply State.ledgerMsg_sound | with_reducible apply Sound.forEach)

theorem elasticExpiry_sound (die part : Nat) (s : State) (hg : s.Sound Q) : (elasticExpiry die part s).Sound Q := by
  unfold elasticExpiry
  repeat' (first | with_reducible assumption | intro _ | with_reducible apply State.rootDefer_sound
                 | with_reducible apply State.setObj_sound | with_reducible apply State.ledgerMsg_sound
                 | with_reducible apply State.bump_sound | with_reducible apply Sound.ite)

theorem execElasticWaitExpiry_sound (die obj : Nat) (s : State) (hg : s.Sound Q) : OutSound Q
    (execElasticWaitExpiry die obj s) := by
  unfold execElasticWaitExpiry
  repeat' (first | with_reducible apply onUnit_sound | with_reducible assumption
                 | with_reducible apply elasticExpiry_sound)

theorem State.raiseEpoch_sound (s : State) (hg : s.Sound Q) : (State.raiseEpoch s).Sound Q := by
  unfold State.raiseEpoch
  repeat' (first | with_reducible exact Sound.parts (by with_reducible assumption) | split | simp only [Sound_mk])

theorem State.clearJob_sound (s : State) (hg : s.Sound Q) : (State.clearJob s).Sound Q := by
  unfold State.clearJob
  repeat' (first | with_reducible exact Sound.parts (by with_reducible assumption) | simp only [Sound_mk])

theorem genesisHallmarks_sound (s : State) (hg : s.Sound Q) : (genesisHallmarks s).Sound Q := by
  unfold genesisHallmarks
  repeat' (first | with_reducible assumption | intro _ | with_reducible apply State.progress_sound
                 | with_reducible apply State.tileSeal_sound | with_reducible apply State.setRec_sound
                 | with_reducible apply Sound.forEach | with_reducible apply Sound.forN
                 | with_reducible apply Sound.ite | with_reducible apply Sound.parts | split | simp only [Sound_mk])

theorem execGenesisHallmarksDone_sound (s : State) (hg : s.Sound Q) : OutSound Q (execGenesisHallmarksDone s) := by
  unfold execGenesisHallmarksDone
  repeat' (first | with_reducible apply ok_sound | with_reducible assumption
                 | with_reducible apply genesisHallmarks_sound)

theorem sealTreeTimeout_sound (s : State) (hg : s.Sound Q) : (sealTreeTimeout s).Sound Q := by
  unfold sealTreeTimeout
  repeat' (first | with_reducible assumption | intro _ | with_reducible apply State.ldgFault_sound
                 | with_reducible apply Sound.ite | with_reducible exact Sound.parts (by with_reducible assumption)
                 | simp only [Sound_mk])

theorem execSealTreeTimeout_sound (s : State) (hg : s.Sound Q) : OutSound Q (execSealTreeTimeout s) := by
  unfold execSealTreeTimeout
  repeat' (first | with_reducible apply ok_sound | with_reducible assumption
                 | with_reducible apply sealTreeTimeout_sound)

theorem endJob_sound (p : Path) (s : State) (hg : s.Sound Q) : (endJob p s).Sound Q := by
  unfold endJob
  repeat' (first | with_reducible assumption | intro _
                 | (fail_if_no_progress extract_lets +onlyGivenNames t; refine (fun (ht : State.Sound Q t) => ?_) ?_; clear_value t; on_goal 2 => (unfold t; clear t))
                 | with_reducible apply State.clearJob_sound | with_reducible apply State.ctlReject_sound
                 | with_reducible apply State.wr_sound | with_reducible apply Sound.ite
                 | with_reducible exact Sound.parts (by with_reducible assumption) | simp only [Sound_mk])

theorem execEndJob_sound (p : Path) (s : State) (hg : s.Sound Q) : OutSound Q (execEndJob p s) := by
  unfold execEndJob
  repeat' (first | with_reducible apply ok_sound | with_reducible assumption | with_reducible apply endJob_sound)

theorem replayJob_sound (p : Path) (s : State) (hg : s.Sound Q) : (replayJob p s).Sound Q := by
  unfold replayJob
  repeat' (first | with_reducible assumption | intro _ | with_reducible apply State.backAll_sound
                 | with_reducible apply State.ctlReject_sound | with_reducible apply State.notice_sound
                 | with_reducible apply Sound.ite | split | simp only [Sound_mk])

theorem execReplayJob_sound (p : Path) (s : State) (hg : s.Sound Q) : OutSound Q (execReplayJob p s) := by
  unfold execReplayJob
  repeat' (first | with_reducible apply ok_sound | with_reducible assumption | with_reducible apply replayJob_sound)

theorem ldgDeferStore_sound (p : Path) (v : Word) (s : State) (hg : s.Sound Q) : (ldgDeferStore p v s).Sound Q := by
  unfold ldgDeferStore
  repeat' (first | with_reducible assumption | intro _ | with_reducible apply State.ldgReject_sound
                 | with_reducible apply State.wr_sound | with_reducible apply Sound.ite
                 | with_reducible exact Sound.parts (by with_reducible assumption) | simp only [Sound_mk])

theorem execLdgDeferWrite_sound (p : Path) (v : Word) (s : State) (hg : s.Sound Q) : OutSound Q
    (execLdgDeferWrite p v s) := by
  unfold execLdgDeferWrite
  repeat' (first | with_reducible apply ok_sound | with_reducible assumption | intro _
                 | with_reducible apply ldgDeferStore_sound | with_reducible apply State.ldgReject_sound
                 | with_reducible apply Sound.ite)

theorem ledgerHandover_sound (s : State) (hg : s.Sound Q) : (ledgerHandover s).Sound Q := by
  unfold ledgerHandover
  repeat' (first | with_reducible assumption | intro _ | with_reducible apply State.ldgFault_sound
                 | with_reducible apply State.wr_sound | with_reducible apply Sound.ite
                 | with_reducible exact Sound.parts (by with_reducible assumption) | simp only [Sound_mk])

theorem execLedgerHandover_sound (s : State) (hg : s.Sound Q) : OutSound Q (execLedgerHandover s) := by
  unfold execLedgerHandover
  repeat' (first | with_reducible apply ok_sound | with_reducible assumption
                 | with_reducible apply ledgerHandover_sound)

/-! ## Ckp -/

theorem State.openLedger_sound (s : State) (hg : s.Sound Q) : (State.openLedger s).Sound Q := by
  unfold State.openLedger
  repeat' (first | with_reducible exact Sound.parts (by with_reducible assumption) | simp only [Sound_mk])

theorem State.tier2Check_sound (s : State) (hg : s.Sound Q) : (State.tier2Check s).Sound Q := by
  unfold State.tier2Check
  repeat' (first | with_reducible assumption | intro _ | with_reducible apply State.raise_sound
                 | with_reducible apply Sound.ite | with_reducible exact Sound.parts (by with_reducible assumption)
                 | simp only [Sound_mk])

theorem genesisWrite_sound (p : Path) (s : State) (hg : s.Sound Q) : (genesisWrite p s).Sound Q := by
  unfold genesisWrite
  repeat' (first | with_reducible assumption | intro _
                 | (fail_if_no_progress extract_lets +onlyGivenNames t; refine (fun (ht : State.Sound Q t) => ?_) ?_; clear_value t; on_goal 2 => (unfold t; clear t))
                 | with_reducible apply State.tier2Check_sound | with_reducible apply State.openLedger_sound
                 | with_reducible apply State.clearJob_sound | with_reducible apply State.raiseEpoch_sound
                 | with_reducible apply State.ctlReject_sound | with_reducible apply State.exchangeAtGenesis_sound
                 | with_reducible apply State.genesisPages_sound | with_reducible apply State.wr_sound
                 | with_reducible apply Sound.ite)

theorem execGenesis_sound (p : Path) (s : State) (hg : s.Sound Q) : OutSound Q (execGenesis p s) := by
  unfold execGenesis
  repeat' (first | with_reducible apply ok_sound | with_reducible assumption
                 | with_reducible apply genesisWrite_sound)

theorem State.placeEntry_sound (s : State) (sid : Nat) (st : Step) (copy : Nat) (b e : List Byte) (sh : Bool)
    (hg : s.Sound Q) : (State.placeEntry s sid st copy b e sh).Sound Q := by
  unfold State.placeEntry
  repeat' (first | with_reducible assumption | intro _ | with_reducible apply State.tileSeal_sound
                 | with_reducible apply State.writeLoc_sound | with_reducible apply Sound.forN
                 | with_reducible apply Sound.ite | split)

theorem State.setComplete_sound (s : State) (tier : Nat) (st : Step) (m : List Byte) (hg : s.Sound Q) :
    (State.setComplete s tier st m).Sound Q := by
  unfold State.setComplete
  repeat' (first | with_reducible apply State.event_sound | with_reducible apply State.bump_sound
                 | with_reducible apply State.wr_sound
                 | with_reducible exact Sound.parts (by with_reducible assumption) | simp only [Sound_mk])

theorem State.meetPartner_sound (s : State) (hg : s.Sound Q) : (State.meetPartner s).Sound Q := by
  unfold State.meetPartner
  repeat' (first | with_reducible assumption | intro _ | with_reducible apply State.raiseAs_sound
                 | with_reducible apply Sound.ite | with_reducible exact Sound.parts (by with_reducible assumption)
                 | simp only [Sound_mk])

theorem State.sendMirror_sound (s : State) (st : Step) (hg : s.Sound Q) : (State.sendMirror s st).Sound Q := by
  unfold State.sendMirror
  repeat' (first | with_reducible assumption | intro _ | with_reducible apply State.setBay_sound
                 | with_reducible apply State.sendMsg_sound | with_reducible apply Sound.forEach
                 | with_reducible exact Sound.parts (by with_reducible assumption) | simp only [Sound_mk])

theorem State.startMirror_sound (s : State) (st : Step) (hg : s.Sound Q) : (State.startMirror s st).Sound Q := by
  unfold State.startMirror
  repeat' (first | with_reducible assumption | intro _
                 | (fail_if_no_progress extract_lets +onlyGivenNames t; refine (fun (ht : State.Sound Q t) => ?_) ?_; clear_value t; on_goal 2 => (unfold t; clear t))
                 | with_reducible apply State.sendMirror_sound | with_reducible apply State.meetPartner_sound
                 | with_reducible apply State.bump_sound | with_reducible apply Sound.ite)

theorem State.endMirror_sound (s : State) (good : Bool) (hg : s.Sound Q) : (State.endMirror s good).Sound Q := by
  unfold State.endMirror
  repeat' (first | with_reducible assumption | intro _ | with_reducible apply State.setComplete_sound
                 | with_reducible apply State.setBay_sound | with_reducible apply Sound.forEach
                 | with_reducible apply Sound.ite | with_reducible exact Sound.parts (by with_reducible assumption)
                 | with_reducible apply Sound.parts | split | simp only [Sound_mk])

theorem State.bayView_sound (s : State) (sid : Nat) (st : Step) (hg : s.Sound Q) :
    (State.bayView s sid st).Sound Q := by
  unfold State.bayView
  repeat' (first | with_reducible assumption | intro _ | with_reducible apply State.placeEntry_sound
                 | with_reducible apply Sound.forEach)

theorem State.writeTier2_sound (s : State) (st : Step) (hg : s.Sound Q) : (State.writeTier2 s st).Sound Q := by
  unfold State.writeTier2
  repeat' (first | with_reducible assumption | intro _ | with_reducible apply State.setComplete_sound
                 | with_reducible apply State.carryPoison_sound | with_reducible apply State.writeLoc_sound
                 | with_reducible apply Sound.forEach | with_reducible apply Sound.ite
                 | with_reducible apply Sound.parts | simp only [Sound_mk])

theorem State.bgBytes_sound (s : State) (stack n : Nat) (hg : s.Sound Q) : (State.bgBytes s stack n).Sound Q := by
  unfold State.bgBytes
  repeat' (first | with_reducible assumption | with_reducible apply State.bump_sound)

theorem State.copyBlock_sound (s : State) (k : Nat) (hg : s.Sound Q) : (State.copyBlock s k).Sound Q := by
  unfold State.copyBlock
  repeat' (first | with_reducible apply State.bgBytes_sound | with_reducible apply State.landHeld_sound
                 | with_reducible apply State.bump_sound
                 | with_reducible exact Sound.parts (by with_reducible assumption) | simp only [Sound_mk])

theorem State.asProtected_sound (s : State) (hg : s.Sound Q) : (State.asProtected s).Sound Q := by
  unfold State.asProtected
  apply Sound.forEach _ _ _ hg
  intro g t ht
  exact ⟨ht.1, moveBytes_wf _ _ _ _ (Memory.wf_clear _ _ _ ht.2.1), ht.2.2.1, ht.2.2.2.1, ht.2.2.2.2⟩

theorem State.ingotPoison_sound (s view : State) (sid : Nat) (st : Step) (l : Loc) (hg : s.Sound Q)
    (hg1 : view.Sound Q) : (State.ingotPoison s view sid st l).Sound Q := by
  unfold State.ingotPoison
  repeat' (first | with_reducible assumption | intro _ | with_reducible apply State.carryPoison_sound
                 | with_reducible apply Sound.forEach | split)

theorem State.sealCopy_sound (s : State) (sid : Nat) (st : Step) (b : Nat) (hg : s.Sound Q) :
    (State.sealCopy s sid st b).Sound Q := by
  unfold State.sealCopy
  repeat' (first | with_reducible assumption | with_reducible apply State.ingotPoison_sound
                 | with_reducible apply State.asProtected_sound | with_reducible apply State.bgBytes_sound
                 | with_reducible apply State.setBay_sound | with_reducible apply State.landHeld_sound
                 | with_reducible apply State.raiseAs_sound | with_reducible apply State.stN_sound
                 | with_reducible apply Sound.parts | split | simp only [Sound_mk])

theorem State.endProtect_sound (s : State) (hg : s.Sound Q) : (State.endProtect s).Sound Q := by
  unfold State.endProtect
  repeat' (first | with_reducible exact Sound.parts (by with_reducible assumption) | simp only [Sound_mk])

theorem State.completeSet_sound (s : State) (st : Step) (hg : s.Sound Q) : (State.completeSet s st).Sound Q := by
  unfold State.completeSet
  repeat' (first | with_reducible assumption | intro _ | with_reducible apply State.endProtect_sound
                 | with_reducible apply State.writeTier2_sound | with_reducible apply State.startMirror_sound
                 | with_reducible apply State.setComplete_sound | with_reducible apply State.stN_sound
                 | with_reducible apply Sound.forEach | with_reducible apply Sound.ite)

theorem tier0Done_sound (sid : Nat) (s : State) (hg : s.Sound Q) : (tier0Done sid s).Sound Q := by
  unfold tier0Done
  repeat' (first | with_reducible assumption | intro _
                 | (fail_if_no_progress extract_lets +onlyGivenNames t; refine (fun (ht : State.Sound Q t) => ?_) ?_; clear_value t; on_goal 2 => (unfold t; clear t))
                 | with_reducible apply State.completeSet_sound | with_reducible apply State.endProtect_sound
                 | with_reducible apply State.sealCopy_sound | with_reducible apply Sound.ite | split)

theorem execTier0CopyDone_sound (sid : Nat) (s : State) (hg : s.Sound Q) : OutSound Q (execTier0CopyDone sid s) := by
  unfold execTier0CopyDone
  repeat' (first | with_reducible apply onUnit_sound | with_reducible assumption
                 | with_reducible apply tier0Done_sound)

theorem guardCopy_sound (stack block : Nat) (s : State) (hg : s.Sound Q) : (guardCopy stack block s).Sound Q := by
  unfold guardCopy
  repeat' (first | with_reducible assumption | intro _ | with_reducible apply State.copyBlock_sound
                 | with_reducible apply Sound.ite | with_reducible exact Sound.parts (by with_reducible assumption)
                 | simp only [Sound_mk])

theorem execGuardCopy_sound (stack block : Nat) (s : State) (hg : s.Sound Q) : OutSound Q
    (execGuardCopy stack block s) := by
  unfold execGuardCopy
  repeat' (first | with_reducible apply onUnit_sound | with_reducible assumption
                 | with_reducible apply guardCopy_sound)

theorem State.fetchMirror_sound (s : State) (sid : Nat) (st : Step) (addr : Nat) (hg : s.Sound Q) :
    (State.fetchMirror s sid st addr).Sound Q := by
  unfold State.fetchMirror
  repeat' (first | with_reducible assumption | intro _ | with_reducible apply State.setBay_sound
                 | with_reducible apply State.sendMsg_sound | with_reducible apply Sound.forN)

theorem State.picked_sound (s : State) (st : Step) (hg : s.Sound Q) : (State.picked s st).Sound Q := by
  unfold State.picked
  repeat' (first | with_reducible assumption | intro _
                 | (fail_if_no_progress extract_lets +onlyGivenNames t; refine (fun (ht : State.Sound Q t) => ?_) ?_; clear_value t; on_goal 2 => (unfold t; clear t))
                 | with_reducible apply State.fetchMirror_sound | with_reducible apply State.ledgerMsg_sound
                 | with_reducible apply Sound.forEach
                 | with_reducible exact Sound.parts (by with_reducible assumption) | split | simp only [Sound_mk])

theorem State.unrecoverable_sound (s : State) (hg : s.Sound Q) : (State.unrecoverable s).Sound Q := by
  unfold State.unrecoverable
  repeat' (first | with_reducible assumption | intro _ | with_reducible apply State.closeFatal_sound
                 | with_reducible apply State.event_sound | with_reducible apply State.setSlot_sound
                 | with_reducible apply Sound.forEach | with_reducible apply Sound.parts | simp only [Sound_mk])

theorem State.rootPick_sound (s : State) (hg : s.Sound Q) : (State.rootPick s).Sound Q := by
  unfold State.rootPick
  repeat' (first | with_reducible assumption | intro _ | with_reducible apply State.unrecoverable_sound
                 | with_reducible apply State.picked_sound | with_reducible apply State.event_sound
                 | with_reducible apply State.bump_sound | with_reducible apply Sound.forEach
                 | with_reducible apply Sound.parts | split | simp only [Sound_mk])

theorem State.askMirror_sound (s : State) (n sid off len : Nat) (hg : s.Sound Q) :
    (State.askMirror s n sid off len).Sound Q := by
  unfold State.askMirror
  repeat' (first | with_reducible apply State.sendMsg_sound
                 | with_reducible exact Sound.parts (by with_reducible assumption) | simp only [Sound_mk])

theorem State.inventoryStart_sound (s : State) (hg : s.Sound Q) : (State.inventoryStart s).Sound Q := by
  unfold State.inventoryStart
  repeat' (first | with_reducible assumption | intro _ | with_reducible apply State.askMirror_sound
                 | with_reducible apply Sound.forEach | with_reducible apply Sound.ite
                 | with_reducible exact Sound.parts (by with_reducible assumption) | simp only [Sound_mk])

theorem State.inventoryDue_sound (s : State) (hg : s.Sound Q) : (State.inventoryDue s).Sound Q := by
  unfold State.inventoryDue
  repeat' (first | with_reducible assumption | intro _ | with_reducible apply State.rootPick_sound
                 | with_reducible apply State.ledgerMsg_sound | with_reducible apply Sound.ite)

theorem State.mirrorAnswer_sound (s : State) (n : Nat) (bs : List Byte) (hg : s.Sound Q) :
    (State.mirrorAnswer s n bs).Sound Q := by
  unfold State.mirrorAnswer
  repeat' (first | with_reducible assumption | intro _ | with_reducible apply State.inventoryDue_sound
                 | with_reducible apply State.askMirror_sound | with_reducible apply Sound.forN
                 | with_reducible apply Sound.ite | with_reducible exact Sound.parts (by with_reducible assumption)
                 | split | simp only [Sound_mk])

theorem State.inventoryTick_sound (s : State) (hg : s.Sound Q) : (State.inventoryTick s).Sound Q := by
  unfold State.inventoryTick
  repeat' (first | with_reducible assumption | intro _ | with_reducible apply State.inventoryDue_sound
                 | with_reducible apply Sound.ite | with_reducible exact Sound.parts (by with_reducible assumption)
                 | simp only [Sound_mk])

theorem State.ldgInventory_sound (s : State) (m : Msg) (hg : s.Sound Q) : (State.ldgInventory s m).Sound Q := by
  unfold State.ldgInventory
  repeat' (first | with_reducible apply State.inventoryDue_sound
                 | with_reducible exact Sound.parts (by with_reducible assumption) | simp only [Sound_mk])

theorem State.ldgPick_sound (s : State) (m : Msg) (hg : s.Sound Q) : (State.ldgPick s m).Sound Q := by
  unfold State.ldgPick
  repeat' (first | with_reducible assumption | intro _ | with_reducible apply State.picked_sound
                 | with_reducible apply Sound.ite)

theorem restoreWrite_sound (s : State) (hg : s.Sound Q) : (restoreWrite s).Sound Q := by
  unfold restoreWrite
  repeat' (first | with_reducible assumption | intro _
                 | (fail_if_no_progress extract_lets +onlyGivenNames t; refine (fun (ht : State.Sound Q t) => ?_) ?_; clear_value t; on_goal 2 => (unfold t; clear t))
                 | with_reducible apply State.inventoryDue_sound | with_reducible apply State.inventoryStart_sound
                 | with_reducible apply State.clearJob_sound | with_reducible apply State.raiseEpoch_sound
                 | with_reducible apply State.exchangeAtGenesis_sound
                 | with_reducible apply State.genesisPages_sound | with_reducible apply State.reject_sound
                 | with_reducible apply State.wr_sound | with_reducible apply Sound.ite
                 | with_reducible exact Sound.parts (by with_reducible assumption) | split | simp only [Sound_mk])

theorem execRestore_sound (p : Path) (s : State) (hg : s.Sound Q) : OutSound Q (execRestore p s) := by
  unfold execRestore
  repeat' (first | with_reducible apply ok_sound | with_reducible assumption | intro _
                 | with_reducible apply restoreWrite_sound | with_reducible apply State.reject_sound
                 | with_reducible apply Sound.ite)

theorem placementDone_sound (s : State) (hg : s.Sound Q) : (placementDone s).Sound Q := by
  unfold placementDone
  repeat' (first | with_reducible assumption | intro _ | with_reducible apply State.inventoryDue_sound
                 | with_reducible apply State.inventoryStart_sound | with_reducible apply State.placeEntry_sound
                 | with_reducible apply State.event_sound | with_reducible apply State.setSlot_sound
                 | with_reducible apply State.wr_sound | with_reducible apply Sound.forEach
                 | with_reducible apply Sound.ite | with_reducible exact Sound.parts (by with_reducible assumption)
                 | with_reducible apply Sound.parts | split | simp only [Sound_mk])

theorem execRestorePlacementDone_sound (s : State) (hg : s.Sound Q) : OutSound Q (execRestorePlacementDone s) := by
  unfold execRestorePlacementDone
  repeat' (first | with_reducible apply ok_sound | with_reducible assumption
                 | with_reducible apply placementDone_sound)

theorem State.copyPages_sound (s : State) (src dst : Nat) (hg : s.Sound Q) : (State.copyPages s src dst).Sound Q := by
  unfold State.copyPages
  repeat' (first | with_reducible assumption | intro _ | with_reducible apply State.wr_sound
                 | with_reducible apply Sound.forEach)

theorem State.noSpare_sound (s : State) (sid : Nat) (hg : s.Sound Q) : (State.noSpare s sid).Sound Q := by
  unfold State.noSpare
  repeat' (first | with_reducible assumption | intro _ | with_reducible apply State.closeFatal_sound
                 | with_reducible apply State.event_sound | with_reducible apply State.setSlot_sound
                 | with_reducible apply Sound.ite)

theorem State.cancelSwapFor_sound (s : State) (hg : s.Sound Q) : (State.cancelSwapFor s).Sound Q := by
  unfold State.cancelSwapFor
  repeat' (first | with_reducible assumption | intro _ | with_reducible apply State.cancelSwap_sound
                 | with_reducible apply Sound.ite)

theorem State.takeSpare_sound (s : State) (spare : Nat) (hg : s.Sound Q) : (State.takeSpare s spare).Sound Q := by
  unfold State.takeSpare
  repeat' (first | with_reducible apply State.setPd_sound | with_reducible apply State.setSvc_sound
                 | with_reducible exact Sound.parts (by with_reducible assumption) | simp only [Sound_mk])

theorem State.turnAlt_sound (s : State) (sid : Nat) (hg : s.Sound Q) : (State.turnAlt s sid).Sound Q := by
  unfold State.turnAlt
  repeat' (first | with_reducible assumption | with_reducible apply State.wr_sound)

theorem State.recoverStack_sound (s : State) (sid spare : Nat) (hg : s.Sound Q) :
    (State.recoverStack s sid spare).Sound Q := by
  unfold State.recoverStack
  repeat' (first | with_reducible assumption | intro _ | with_reducible apply State.takeSpare_sound
                 | with_reducible apply State.cancelSwapFor_sound | with_reducible apply State.copyPages_sound
                 | with_reducible apply restoreWrite_sound | with_reducible apply State.setBay_sound
                 | with_reducible apply State.dropObjs_sound | with_reducible apply State.askReload_sound
                 | with_reducible apply State.setSlot_sound | with_reducible apply State.wr_sound
                 | with_reducible apply Sound.forEach | with_reducible apply Sound.ite)

theorem substitute_sound (sid : Nat) (s : State) (hg : s.Sound Q) : (substitute sid s).Sound Q := by
  unfold substitute
  repeat' (first | with_reducible assumption | intro _ | with_reducible apply State.recoverStack_sound
                 | with_reducible apply State.turnAlt_sound | with_reducible apply State.takeSpare_sound
                 | with_reducible apply State.cancelSwapFor_sound | with_reducible apply State.noSpare_sound
                 | with_reducible apply State.copyPages_sound | with_reducible apply State.dropObjs_sound
                 | with_reducible apply State.toReplaying_sound | with_reducible apply State.notice_sound
                 | with_reducible apply State.setSlot_sound | with_reducible apply State.wr_sound
                 | with_reducible apply Sound.ite | split | simp only [Sound_mk])

theorem execSpareSubstitution_sound (sid : Nat) (s : State) (hg : s.Sound Q) : OutSound Q
    (execSpareSubstitution sid s) := by
  unfold execSpareSubstitution
  repeat' (first | with_reducible apply onUnit_sound | with_reducible assumption
                 | with_reducible apply substitute_sound)

theorem migrationDone_sound (sid : Nat) (s : State) (hg : s.Sound Q) : (migrationDone sid s).Sound Q := by
  unfold migrationDone
  repeat' (first | with_reducible assumption | intro _ | with_reducible apply State.setSlot_sound
                 | with_reducible apply Sound.ite)

theorem execMigrationDone_sound (sid : Nat) (s : State) (hg : s.Sound Q) : OutSound Q (execMigrationDone sid s) := by
  unfold execMigrationDone
  repeat' (first | with_reducible apply onUnit_sound | with_reducible assumption
                 | with_reducible apply migrationDone_sound)

theorem layBytes_wf (m l : SMap Byte) (f : Nat → Nat) (hm : Memory.wf m = true) : Memory.wf (layBytes m l f) = true :=
  SMap.wf_foldl _ _ (fun _ _ h => SMap.wf_set _ _ h) hm

theorem State.copyStack_sound (s : State) (src dst lo hi : Nat) (hg : s.Sound Q) :
    (State.copyStack s src dst lo hi).Sound Q := by
  unfold State.copyStack
  dsimp only
  have ht := State.bgBytes_sound _ src (hi - lo) (State.setStack_sound s _ hg
    (layBytes_wf (s.mem.stack.filter (fun e => !(e.1 / stackBytes == dst && decide (lo ≤ s.mapOff e.1) && decide (s.mapOff e.1 < hi))))
      (s.mem.stack.filter (fun e => e.1 / stackBytes == src && decide (lo ≤ s.mapOff e.1) && decide (s.mapOff e.1 < hi)))
      (fun pa => s.served (dst * stackBytes + s.mapOff pa)) (SMap.wf_filter _ hg.2.1)))
  exact ⟨ht.1, ht.2.1, ht.2.2.1, ht.2.2.2.1, ht.2.2.2.2⟩

theorem State.xlatNear_sound (s : State) (sid : Nat) (hg : s.Sound Q) : (State.xlatNear s sid).Sound Q := by
  unfold State.xlatNear
  repeat' (first | with_reducible assumption | with_reducible apply State.copyStack_sound
                 | with_reducible apply State.setSlot_sound | with_reducible apply State.wr_sound
                 | with_reducible apply Sound.parts | simp only [Sound_mk])

/-! ## Memory -/

theorem State.setRow_sound (s : State) (k : Nat) (r : RowPhase) (hg : s.Sound Q) : (State.setRow s k r).Sound Q := by
  unfold State.setRow
  repeat' (first | with_reducible exact Sound.parts (by with_reducible assumption) | simp only [Sound_mk])

theorem State.msbBump_sound (s : State) (stack off : Nat) (hg : s.Sound Q) : (State.msbBump s stack off).Sound Q := by
  unfold State.msbBump
  repeat' (first | with_reducible assumption | with_reducible apply State.bump_sound)

theorem State.stackFault_sound (s : State) (stack code : Nat) (detail : Word) (hg : s.Sound Q) :
    (State.stackFault s stack code detail).Sound Q := by
  unfold State.stackFault
  repeat' (first | with_reducible assumption | with_reducible apply State.raise_sound)

theorem State.remapRow_sound (s : State) (stack page sel : Nat) (hg : s.Sound Q) :
    (State.remapRow s stack page sel).Sound Q := by
  unfold State.remapRow
  repeat' (first | with_reducible assumption
                 | (fail_if_no_progress extract_lets +onlyGivenNames t; refine (fun (ht : State.Sound Q t) => ?_) ?_; clear_value t; on_goal 2 => (unfold t; clear t))
                 | with_reducible apply State.stackFault_sound | with_reducible apply State.msbBump_sound
                 | with_reducible apply State.setRow_sound | with_reducible apply State.setField_sound)

theorem State.pageLost_sound (s : State) (stack lp : Nat) (hg : s.Sound Q) : (State.pageLost s stack lp).Sound Q := by
  unfold State.pageLost
  repeat' (first | with_reducible assumption | intro _ | with_reducible apply State.stackFault_sound
                 | with_reducible apply State.setStack_sound | with_reducible apply State.setSlot_sound
                 | with_reducible apply State.setField_sound | with_reducible apply Sound.onSome
                 | with_reducible apply Sound.parts | with_reducible apply Memory.wf_clear
                 | with_reducible exact Sound.stack (by with_reducible assumption) | simp only [Sound_mk])

theorem State.retireRow_sound (s : State) (stack page sel : Nat) (hg : s.Sound Q) :
    (State.retireRow s stack page sel).Sound Q := by
  unfold State.retireRow
  repeat' (first | with_reducible assumption | intro _ | with_reducible apply State.pageLost_sound
                 | with_reducible apply State.setRow_sound | with_reducible apply Sound.ite
                 | with_reducible apply Sound.parts | simp only [Sound_mk])

theorem State.sleepStack_sound (s : State) (stack : Nat) (hg : s.Sound Q) : (State.sleepStack s stack).Sound Q := by
  unfold State.sleepStack
  repeat' (first | with_reducible assumption | intro _ | with_reducible apply State.setField_sound
                 | with_reducible apply Sound.ite | with_reducible exact Sound.parts (by with_reducible assumption)
                 | simp only [Sound_mk])

theorem State.substPage_sound (s : State) (stack page pool : Nat) (hg : s.Sound Q) :
    (State.substPage s stack page pool).Sound Q := by
  unfold State.substPage
  repeat' (first | with_reducible assumption | with_reducible apply State.stackFault_sound
                 | with_reducible apply State.msbBump_sound | with_reducible apply State.bgBytes_sound
                 | with_reducible apply State.event_sound | with_reducible apply State.setStack_sound
                 | with_reducible apply State.setField_sound | with_reducible apply Sound.parts
                 | with_reducible apply moveBytes_wf | with_reducible apply Memory.wf_clear
                 | with_reducible exact Sound.stack (by with_reducible assumption) | split | simp only [Sound_mk])

theorem pageCopyDone_sound (stack page : Nat) (s : State) (hg : s.Sound Q) : (pageCopyDone stack page s).Sound Q := by
  unfold pageCopyDone
  repeat' (first | with_reducible assumption | intro _
                 | (fail_if_no_progress extract_lets +onlyGivenNames t; refine (fun (ht : State.Sound Q t) => ?_) ?_; clear_value t; on_goal 2 => (unfold t; clear t))
                 | with_reducible apply State.substPage_sound | with_reducible apply State.sleepStack_sound
                 | with_reducible apply State.pageLost_sound | with_reducible apply State.copyBlock_sound
                 | with_reducible apply Sound.ite | with_reducible exact Sound.parts (by with_reducible assumption)
                 | split | simp only [Sound_mk])

theorem execPageCopyDone_sound (stack page : Nat) (s : State) (hg : s.Sound Q) : OutSound Q
    (execPageCopyDone stack page s) := by
  unfold execPageCopyDone
  repeat' (first | with_reducible apply onUnit_sound | with_reducible assumption
                 | with_reducible apply pageCopyDone_sound)

theorem State.rowCorrected_sound (s : State) (stack page sel symbol : Nat) (hg : s.Sound Q) :
    (State.rowCorrected s stack page sel symbol).Sound Q := by
  unfold State.rowCorrected
  repeat' (first | with_reducible assumption | with_reducible apply State.setRow_sound | split | simp only [Sound_mk])

theorem State.rowFailed_sound (s : State) (stack page sel : Nat) (hg : s.Sound Q) :
    (State.rowFailed s stack page sel).Sound Q := by
  unfold State.rowFailed
  repeat' (first | with_reducible assumption | intro _ | with_reducible apply State.retireRow_sound
                 | with_reducible apply State.remapRow_sound | with_reducible apply Sound.ite | split)

theorem State.countCorrected_sound (s : State) (stack : Nat) (hg : s.Sound Q) :
    (State.countCorrected s stack).Sound Q := by
  unfold State.countCorrected
  repeat' (first | with_reducible assumption | with_reducible apply State.stackFault_sound
                 | with_reducible apply State.msbBump_sound)

theorem verifyRead_sound (stack page sel : Nat) (symbol : Option Nat) (s : State) (hg : s.Sound Q) :
    (verifyRead stack page sel symbol s).Sound Q := by
  unfold verifyRead
  repeat' (first | with_reducible assumption | intro _
                 | (fail_if_no_progress extract_lets +onlyGivenNames t; refine (fun (ht : State.Sound Q t) => ?_) ?_; clear_value t; on_goal 2 => (unfold t; clear t))
                 | with_reducible apply State.countCorrected_sound | with_reducible apply State.rowFailed_sound
                 | with_reducible apply State.rowCorrected_sound | with_reducible apply State.setRow_sound
                 | with_reducible apply Sound.ite | split)

theorem execVerifyRead_sound (stack page rowSel : Nat) (symbol : Option Nat) (s : State)
    (hg : s.Sound Q) : OutSound Q (execVerifyRead stack page rowSel symbol s) := by
  unfold execVerifyRead
  repeat' (first | with_reducible apply onUnit_sound | with_reducible assumption
                 | with_reducible apply verifyRead_sound)

theorem State.dropContexts_sound (s : State) (die : Nat) (hg : s.Sound Q) : (State.dropContexts s die).Sound Q := by
  unfold State.dropContexts
  repeat' (first | with_reducible exact Sound.parts (by with_reducible assumption) | simp only [Sound_mk])

theorem State.refetch_sound (s : State) (pa : Nat) (hg : s.Sound Q) : (State.refetch s pa).Sound Q := by
  unfold State.refetch
  repeat' (first | with_reducible assumption | intro _ | with_reducible apply State.startPull_sound
                 | with_reducible apply State.replayShare_sound | with_reducible apply State.sendMsg_sound
                 | with_reducible apply Sound.forEach | with_reducible apply Sound.ite
                 | with_reducible exact Sound.parts (by with_reducible assumption) | split | simp only [Sound_mk])

theorem State.badBay_sound (s : State) (stack off : Nat) (hg : s.Sound Q) : (State.badBay s stack off).Sound Q := by
  unfold State.badBay
  repeat' (first | with_reducible assumption | intro _ | with_reducible apply State.setBay_sound
                 | with_reducible apply Sound.onSome)

theorem State.clearPoison_sound (s : State) (pa : Nat) (hg : s.Sound Q) : (State.clearPoison s pa).Sound Q := by
  unfold State.clearPoison
  repeat' (first | with_reducible exact Sound.parts (by with_reducible assumption) | simp only [Sound_mk])

theorem State.poisonRecovery_sound (s : State) (pa : Nat) (hg : s.Sound Q) : (State.poisonRecovery s pa).Sound Q := by
  unfold State.poisonRecovery
  repeat' (first | with_reducible assumption | intro _ | with_reducible apply State.clearPoison_sound
                 | with_reducible apply State.badBay_sound | with_reducible apply State.refetch_sound
                 | with_reducible apply State.dropContexts_sound | with_reducible apply restoreWrite_sound
                 | with_reducible apply State.askReload_sound | with_reducible apply State.replayModule_sound
                 | with_reducible apply State.replaySlot_sound | with_reducible apply Sound.ite | split)

theorem State.poisonMet_sound (s : State) (pa : Nat) (hg : s.Sound Q) : (State.poisonMet s pa).Sound Q := by
  unfold State.poisonMet
  repeat' (first | with_reducible assumption | with_reducible apply State.poisonRecovery_sound
                 | with_reducible apply State.stackFault_sound)

theorem State.uncorrectable_sound (s : State) (pa : Nat) (hg : s.Sound Q) : (State.uncorrectable s pa).Sound Q := by
  unfold State.uncorrectable
  repeat' (first | with_reducible apply State.poisonRecovery_sound | with_reducible apply State.rowFailed_sound
                 | with_reducible apply State.stackFault_sound | with_reducible apply State.msbBump_sound
                 | with_reducible exact Sound.parts (by with_reducible assumption) | simp only [Sound_mk])

theorem burnishRead_sound (pa : Nat) (symbol : Option Nat) (bad : Bool) (s : State) (hg : s.Sound Q) :
    (burnishRead pa symbol bad s).Sound Q := by
  unfold burnishRead
  repeat' (first | with_reducible assumption | intro _
                 | (fail_if_no_progress extract_lets +onlyGivenNames t; refine (fun (ht : State.Sound Q t) => ?_) ?_; clear_value t; on_goal 2 => (unfold t; clear t))
                 | with_reducible apply State.uncorrectable_sound | with_reducible apply State.poisonRecovery_sound
                 | with_reducible apply State.countCorrected_sound | with_reducible apply State.rowCorrected_sound
                 | with_reducible apply State.stackFault_sound | with_reducible apply State.msbBump_sound
                 | with_reducible apply State.bgBytes_sound | with_reducible apply State.wr_sound
                 | with_reducible apply Sound.ite | split)

theorem execBurnishRead_sound (addr : Nat) (symbol : Option Nat) (uncorrectable : Bool) (s : State)
    (hg : s.Sound Q) : OutSound Q (execBurnishRead addr symbol uncorrectable s) := by
  unfold execBurnishRead
  repeat' (first | with_reducible apply onUnit_sound | with_reducible assumption
                 | with_reducible apply burnishRead_sound)

theorem execSelfRefreshEntry_sound (stack : Nat) (s : State) (hg : s.Sound Q) : OutSound Q
    (execSelfRefreshEntry stack s) := by
  unfold execSelfRefreshEntry
  repeat' (first | with_reducible apply onUnit_sound | with_reducible assumption
                 | with_reducible apply State.sleepStack_sound)

theorem execSelfRefreshWake_sound (stack : Nat) (s : State) (hg : s.Sound Q) : OutSound Q
    (execSelfRefreshWake stack s) := by
  unfold execSelfRefreshWake
  repeat' (first | with_reducible apply onUnit_sound | with_reducible assumption
                 | with_reducible apply State.wakeStack_sound)

theorem State.farFail_sound (s : State) (xp : Nat) (hg : s.Sound Q) : (State.farFail s xp).Sound Q := by
  unfold State.farFail
  repeat' (first | with_reducible assumption | intro _ | with_reducible apply State.raise_sound
                 | with_reducible apply State.event_sound | with_reducible apply State.bump_sound
                 | with_reducible apply State.setField_sound | with_reducible apply Sound.ite
                 | with_reducible apply Sound.parts | simp only [Sound_mk])

theorem cxlRequestTimeout_sound (xp : Nat) (s : State) (hg : s.Sound Q) : (cxlRequestTimeout xp s).Sound Q := by
  unfold cxlRequestTimeout
  repeat' (first | with_reducible assumption | with_reducible apply State.farFail_sound
                 | with_reducible apply State.bump_sound)

theorem execCxlRequestTimeout_sound (xp : Nat) (s : State) (hg : s.Sound Q) : OutSound Q
    (execCxlRequestTimeout xp s) := by
  unfold execCxlRequestTimeout
  repeat' (first | with_reducible apply onUnit_sound | with_reducible assumption
                 | with_reducible apply cxlRequestTimeout_sound)

theorem execCxlLinkDown_sound (xp : Nat) (s : State) (hg : s.Sound Q) : OutSound Q (execCxlLinkDown xp s) := by
  unfold execCxlLinkDown
  repeat' (first | with_reducible apply onUnit_sound | with_reducible assumption
                 | with_reducible apply State.farFail_sound | with_reducible apply State.setField_sound)

theorem cxlRetrain_sound (p : Path) (xp : Nat) (s : State) (hg : s.Sound Q) : (cxlRetrain p xp s).Sound Q := by
  unfold cxlRetrain
  repeat' (first | with_reducible assumption | intro _ | with_reducible apply State.reject_sound
                 | with_reducible apply State.bump_sound | with_reducible apply State.setField_sound
                 | with_reducible apply Sound.ite)

theorem execCxlRetrain_sound (p : Path) (xp : Nat) (s : State) (hg : s.Sound Q) : OutSound Q
    (execCxlRetrain p xp s) := by
  unfold execCxlRetrain
  repeat' (first | with_reducible apply onUnit_sound | with_reducible assumption
                 | with_reducible apply cxlRetrain_sound)

/-! ## Power -/

theorem State.takeSettings_sound (s : State) (die : Nat) (hg : s.Sound Q) : (State.takeSettings s die).Sound Q := by
  unfold State.takeSettings
  repeat' (first | with_reducible exact Sound.parts (by with_reducible assumption) | simp only [Sound_mk])

theorem State.avsWrite_sound (s : State) (rail mv : Nat) (hg : s.Sound Q) : (State.avsWrite s rail mv).Sound Q := by
  unfold State.avsWrite
  repeat' (first | with_reducible apply State.send_sound
                 | with_reducible exact Sound.parts (by with_reducible assumption) | simp only [Sound_mk])

theorem State.command_sound (s : State) (die mv : Nat) (hg : s.Sound Q) : (State.command s die mv).Sound Q := by
  unfold State.command
  repeat' (first | with_reducible assumption | intro _ | with_reducible apply State.avsWrite_sound
                 | with_reducible apply Sound.ite)

theorem State.railOff_sound (s : State) (die : Nat) (hg : s.Sound Q) : (State.railOff s die).Sound Q := by
  unfold State.railOff
  repeat' (first | with_reducible assumption | with_reducible apply State.avsWrite_sound)

theorem State.excludeBin_sound (s : State) (die bin : Nat) (hg : s.Sound Q) :
    (State.excludeBin s die bin).Sound Q := by
  unfold State.excludeBin
  repeat' (first | intro _ | with_reducible apply State.setSlot_sound | with_reducible apply Sound.ite
                 | with_reducible exact Sound.parts (by with_reducible assumption) | split | simp only [Sound_mk])

theorem State.showOut_sound (s : State) (hg : s.Sound Q) : (State.showOut s).Sound Q := by
  unfold State.showOut
  repeat' (first | with_reducible assumption | with_reducible apply State.setField_sound)

theorem State.dieLeaves_sound (s : State) (die : Nat) (hg : s.Sound Q) : (State.dieLeaves s die).Sound Q := by
  unfold State.dieLeaves
  repeat' (first | intro _ | with_reducible apply State.showOut_sound | with_reducible apply State.setSvc_sound
                 | with_reducible apply State.cancelSwapFor_sound | with_reducible apply State.outOfService_sound
                 | with_reducible apply Sound.ite | with_reducible exact Sound.parts (by with_reducible assumption)
                 | simp only [Sound_mk])

theorem State.fence_sound (s : State) (die : Nat) (hg : s.Sound Q) : (State.fence s die).Sound Q := by
  unfold State.fence
  repeat' (first | with_reducible assumption | intro _ | with_reducible apply State.dieLeaves_sound
                 | with_reducible apply State.portsDown_sound | with_reducible apply State.edgesDown_sound
                 | with_reducible apply State.switchRoutes_sound | with_reducible apply State.setPd_sound
                 | with_reducible apply State.setSvc_sound | with_reducible apply Sound.forEach
                 | with_reducible apply Sound.ite | with_reducible exact Sound.parts (by with_reducible assumption)
                 | simp only [Sound_mk])

theorem State.fenceDie_sound (s : State) (die : Nat) (hg : s.Sound Q) : (State.fenceDie s die).Sound Q := by
  unfold State.fenceDie
  repeat' (first | with_reducible assumption | with_reducible apply State.fence_sound
                 | with_reducible apply State.dieLeaves_sound | with_reducible apply State.railOff_sound
                 | with_reducible apply State.raise_sound)

theorem State.setPwrStat_sound (s : State) (v : Nat) (hg : s.Sound Q) : (State.setPwrStat s v).Sound Q := by
  unfold State.setPwrStat
  repeat' (first | with_reducible assumption | with_reducible apply State.setField_sound)

theorem State.fallAsleep_sound (s : State) (hg : s.Sound Q) : (State.fallAsleep s).Sound Q := by
  unfold State.fallAsleep
  repeat' (first | with_reducible assumption | intro _
                 | (fail_if_no_progress extract_lets +onlyGivenNames t; refine (fun (ht : State.Sound Q t) => ?_) ?_; clear_value t; on_goal 2 => (unfold t; clear t))
                 | with_reducible apply State.setPwrStat_sound | with_reducible apply State.command_sound
                 | with_reducible apply State.avsWrite_sound | with_reducible apply State.sleepStack_sound
                 | with_reducible apply State.setPd_sound | with_reducible apply Sound.forEach
                 | with_reducible apply Sound.forN)

theorem State.wakeUp_sound (s : State) (hg : s.Sound Q) : (State.wakeUp s).Sound Q := by
  unfold State.wakeUp
  repeat' (first | with_reducible assumption | intro _
                 | (fail_if_no_progress extract_lets +onlyGivenNames t; refine (fun (ht : State.Sound Q t) => ?_) ?_; clear_value t; on_goal 2 => (unfold t; clear t))
                 | with_reducible apply State.setPwrStat_sound | with_reducible apply State.command_sound
                 | with_reducible apply State.avsWrite_sound | with_reducible apply State.wakeStack_sound
                 | with_reducible apply State.pdService_sound | with_reducible apply Sound.forEach
                 | with_reducible apply Sound.forN)

theorem State.wakeModule_sound (s : State) (hg : s.Sound Q) : (State.wakeModule s).Sound Q := by
  unfold State.wakeModule
  repeat' (first | with_reducible assumption | intro _ | with_reducible apply State.wakeUp_sound
                 | with_reducible apply State.setPwrStat_sound | with_reducible apply Sound.ite)

theorem sleepReq_sound (s : State) (hg : s.Sound Q) : (sleepReq s).Sound Q := by
  unfold sleepReq
  repeat' (first | with_reducible assumption | intro _ | with_reducible apply State.setPwrStat_sound
                 | with_reducible apply Sound.ite)

theorem execSleep_sound (w : Path) (s : State) (hg : s.Sound Q) : OutSound Q (execSleep w s) := by
  unfold execSleep
  repeat' (first | with_reducible apply ok_sound | with_reducible assumption | with_reducible apply sleepReq_sound)

theorem execWake_sound (w : Path) (s : State) (hg : s.Sound Q) : OutSound Q (execWake w s) := by
  unfold execWake
  repeat' (first | with_reducible apply ok_sound | with_reducible assumption
                 | with_reducible apply State.wakeModule_sound)

theorem sleepEntry_sound (s : State) (hg : s.Sound Q) : (sleepEntry s).Sound Q := by
  unfold sleepEntry
  repeat' (first | with_reducible assumption | intro _ | with_reducible apply State.wakeUp_sound
                 | with_reducible apply State.fallAsleep_sound | with_reducible apply Sound.ite)

theorem execSleepEntry_sound (s : State) (hg : s.Sound Q) : OutSound Q (execSleepEntry s) := by
  unfold execSleepEntry
  repeat' (first | with_reducible apply ok_sound | with_reducible assumption | with_reducible apply sleepEntry_sound)

/-! ## Messages -/

theorem State.tinWrite_sound (s : State) (die : Nat) (m : Msg) (hg : s.Sound Q) :
    (State.tinWrite s die m).Sound Q := by
  unfold State.tinWrite
  repeat' (first | with_reducible assumption | intro _
                 | (fail_if_no_progress extract_lets +onlyGivenNames t; refine (fun (ht : State.Sound Q t) => ?_) ?_; clear_value t; on_goal 2 => (unfold t; clear t))
                 | with_reducible apply State.setBay_sound | with_reducible apply State.answer_sound
                 | with_reducible apply State.stN_sound | with_reducible apply Sound.forEach
                 | with_reducible apply Sound.ite)

theorem State.takeWrite_sound (s : State) (die : Nat) (m : Msg) (hg : s.Sound Q) :
    (State.takeWrite s die m).Sound Q := by
  unfold State.takeWrite
  repeat' (first | with_reducible assumption | intro _ | with_reducible apply State.tinWrite_sound
                 | with_reducible apply State.wakeModule_sound | with_reducible apply State.sync_sound
                 | with_reducible apply State.landed_sound | with_reducible apply State.land_sound
                 | with_reducible apply State.answer_sound | with_reducible apply Sound.ite)

theorem State.takeFetch_sound (s : State) (die : Nat) (m : Msg) (hg : s.Sound Q) :
    (State.takeFetch s die m).Sound Q := by
  unfold State.takeFetch
  repeat' (first | with_reducible assumption | intro _ | with_reducible apply State.poisonMet_sound
                 | with_reducible apply State.answer_sound | with_reducible apply State.access_sound
                 | with_reducible apply State.raise_sound | with_reducible apply State.sendMsg_sound
                 | with_reducible apply State.bump_sound | with_reducible apply Sound.ite | split)

theorem State.takeFetchData_sound (s : State) (die : Nat) (m : Msg) (hg : s.Sound Q) :
    (State.takeFetchData s die m).Sound Q := by
  unfold State.takeFetchData
  repeat' (first | with_reducible assumption | intro _ | with_reducible apply State.mirrorAnswer_sound
                 | with_reducible apply State.sync_sound | with_reducible apply State.countDross_sound
                 | with_reducible apply State.stN_sound | with_reducible apply Sound.ite | split)

theorem State.putAnswered_sound (s : State) (sid op : Nat) (st : Step) (hg : s.Sound Q) :
    (State.putAnswered s sid op st).Sound Q := by
  unfold State.putAnswered
  repeat' (first | with_reducible assumption | intro _ | with_reducible apply State.progress_sound
                 | with_reducible apply State.setRec_sound | with_reducible apply Sound.ite | split)

theorem State.takeComplete_sound (s : State) (die : Nat) (m : Msg) (hg : s.Sound Q) :
    (State.takeComplete s die m).Sound Q := by
  unfold State.takeComplete
  repeat' (first | with_reducible assumption | intro _ | with_reducible apply State.putAnswered_sound
                 | with_reducible apply State.endMirror_sound | with_reducible apply State.countDross_sound
                 | with_reducible apply State.untrack_sound | with_reducible apply Sound.ite
                 | with_reducible exact Sound.parts (by with_reducible assumption) | split | simp only [Sound_mk])

theorem State.takeArrive_sound (s : State) (die : Nat) (m : Msg) (hg : s.Sound Q) :
    (State.takeArrive s die m).Sound Q := by
  unfold State.takeArrive
  repeat' (first | with_reducible assumption | with_reducible apply State.sync_sound)

theorem State.takeRelease_sound (s : State) (die : Nat) (m : Msg) (hg : s.Sound Q) :
    (State.takeRelease s die m).Sound Q := by
  unfold State.takeRelease
  repeat' (first | with_reducible assumption | intro _ | with_reducible apply State.sync_sound
                 | with_reducible apply Sound.ite)

theorem State.takeLedger_sound (s : State) (m : Msg) (hg : s.Sound Q) : (State.takeLedger s m).Sound Q := by
  unfold State.takeLedger
  repeat' (first | with_reducible assumption | intro _ | with_reducible apply State.ldgPick_sound
                 | with_reducible apply State.ldgInventory_sound | with_reducible apply State.ldgDefer_sound
                 | with_reducible apply State.ldgDeferReq_sound | with_reducible apply State.ldgReopen_sound
                 | with_reducible apply State.ldgReplay_sound | with_reducible apply State.ldgSeal_sound
                 | with_reducible apply State.ldgUncheck_sound | with_reducible apply State.ldgChecked_sound
                 | with_reducible apply Sound.ite)

theorem State.vc3Deliver_sound (s : State) (die : Nat) (m : Msg) (hg : s.Sound Q) :
    (State.vc3Deliver s die m).Sound Q := by
  unfold State.vc3Deliver
  repeat' (first | with_reducible assumption | intro _ | with_reducible apply State.takeLedger_sound
                 | with_reducible apply State.takeRelease_sound | with_reducible apply State.takeArrive_sound
                 | with_reducible apply State.countDross_sound | with_reducible apply Sound.ite)

theorem State.setPair_sound (s : State) (src : Nat) (p : PairState) (h : s.Sound Q) :
    (State.setPair s src p).Sound Q := by
  unfold State.setPair
  rw [Sound_mk]
  exact Sound.parts h

theorem vc3Run_sound (n die : Nat) (m : Msg) (s : State) (h : s.Sound Q) : (vc3Run n die m s).Sound Q := by
  induction n generalizing die m s with
  | zero => exact h
  | succ n ih =>
    unfold vc3Run
    extract_lets p t p'
    have ht : t.Sound Q := State.vc3Deliver_sound _ _ _ (State.setPair_sound _ _ _ h)
    clear_value t
    split
    · exact ht
    · exact ih _ _ _ (State.setPair_sound _ _ _ ht)

theorem State.vc3_sound (s : State) (die : Nat) (m : Msg) (h : s.Sound Q) : (State.vc3 s die m).Sound Q := by
  unfold State.vc3
  split
  · exact h
  · extract_lets t d
    have ht : t.Sound Q := State.setPair_sound _ _ _ h
    clear_value t
    refine Sound.ite (fun _ => vc3Run_sound _ _ _ _ ht) (fun _ => ?_)
    repeat' (first | with_reducible assumption | with_reducible apply State.setPair_sound
                   | with_reducible apply Sound.ite | intro _)

theorem State.accept_sound (s : State) (die : Nat) (m : Msg) (hg : s.Sound Q) : (State.accept s die m).Sound Q := by
  unfold State.accept
  repeat' (first | with_reducible assumption | intro _ | with_reducible apply State.vc3_sound
                 | with_reducible apply State.takeComplete_sound | with_reducible apply State.takeFetchData_sound
                 | with_reducible apply State.takeFetch_sound | with_reducible apply State.takeWrite_sound
                 | with_reducible apply State.countDross_sound | with_reducible apply Sound.ite)

theorem State.forward_sound (s : State) (die : Nat) (m : Msg) (hg : s.Sound Q) : (State.forward s die m).Sound Q := by
  unfold State.forward
  repeat' (first | with_reducible assumption | intro _ | with_reducible apply State.raise_sound
                 | with_reducible apply State.sendMsg_sound | with_reducible apply Sound.ite)

theorem State.judgeResend_sound (s : State) (die : Nat) (m : Msg) (l : List (Nat × Nat × Nat)) (hg : s.Sound Q) :
    (State.judgeResend s die m l).Sound Q := by
  unfold State.judgeResend
  repeat' (first | with_reducible assumption | intro _ | with_reducible apply State.accept_sound
                 | with_reducible apply State.answer_sound | with_reducible apply Sound.ite)

theorem State.deliver_sound (s : State) (die : Nat) (m : Msg) (hg : s.Sound Q) : (State.deliver s die m).Sound Q := by
  unfold State.deliver
  repeat' (first | with_reducible assumption | intro _ | with_reducible apply State.judgeResend_sound
                 | with_reducible apply State.forward_sound | with_reducible apply State.accept_sound
                 | with_reducible apply State.answer_sound | with_reducible apply Sound.ite
                 | with_reducible exact Sound.parts (by with_reducible assumption) | split | simp only [Sound_mk])

theorem onMsg_sound (kind die : Nat) (m : Msg) (s : State) (hg : s.Sound Q) : OutSound Q (onMsg kind die m s) := by
  unfold onMsg
  repeat' (first | with_reducible apply onUnit_sound | with_reducible assumption | intro _
                 | with_reducible apply State.deliver_sound | with_reducible apply Sound.ite)

theorem execWrite_sound (die : Nat) (m : Msg) (s : State) (hg : s.Sound Q) : OutSound Q (execWrite die m s) := by
  unfold execWrite
  repeat' (first | with_reducible apply onMsg_sound | with_reducible assumption)

theorem execFetch_sound (die : Nat) (m : Msg) (s : State) (hg : s.Sound Q) : OutSound Q (execFetch die m s) := by
  unfold execFetch
  repeat' (first | with_reducible apply onMsg_sound | with_reducible assumption)

theorem execFetchData_sound (die : Nat) (m : Msg) (s : State) (hg : s.Sound Q) : OutSound Q
    (execFetchData die m s) := by
  unfold execFetchData
  repeat' (first | with_reducible apply onMsg_sound | with_reducible assumption)

theorem execComplete_sound (die : Nat) (m : Msg) (s : State) (hg : s.Sound Q) : OutSound Q
    (execComplete die m s) := by
  unfold execComplete
  repeat' (first | with_reducible apply onMsg_sound | with_reducible assumption)

theorem execArrive_sound (die : Nat) (m : Msg) (s : State) (hg : s.Sound Q) : OutSound Q (execArrive die m s) := by
  unfold execArrive
  repeat' (first | with_reducible apply onMsg_sound | with_reducible assumption)

theorem execRelease_sound (die : Nat) (m : Msg) (s : State) (hg : s.Sound Q) : OutSound Q (execRelease die m s) := by
  unfold execRelease
  repeat' (first | with_reducible apply onMsg_sound | with_reducible assumption)

theorem onLedger_sound (typ : Nat) (m : Msg) (s : State) (hg : s.Sound Q) : OutSound Q (onLedger typ m s) := by
  unfold onLedger
  repeat' (first | with_reducible apply ok_sound | with_reducible assumption | intro _
                 | with_reducible apply State.deliver_sound | with_reducible apply Sound.ite)

theorem execChecked_sound (m : Msg) (s : State) (hg : s.Sound Q) : OutSound Q (execChecked m s) := by
  unfold execChecked
  repeat' (first | with_reducible apply onLedger_sound | with_reducible assumption)

theorem execUncheck_sound (m : Msg) (s : State) (hg : s.Sound Q) : OutSound Q (execUncheck m s) := by
  unfold execUncheck
  repeat' (first | with_reducible apply onLedger_sound | with_reducible assumption)

theorem execSeal_sound (m : Msg) (s : State) (hg : s.Sound Q) : OutSound Q (execSeal m s) := by
  unfold execSeal
  repeat' (first | with_reducible apply onLedger_sound | with_reducible assumption)

theorem execReplay_sound (m : Msg) (s : State) (hg : s.Sound Q) : OutSound Q (execReplay m s) := by
  unfold execReplay
  repeat' (first | with_reducible apply onLedger_sound | with_reducible assumption)

theorem execReopen_sound (m : Msg) (s : State) (hg : s.Sound Q) : OutSound Q (execReopen m s) := by
  unfold execReopen
  repeat' (first | with_reducible apply onLedger_sound | with_reducible assumption)

theorem execDeferReq_sound (m : Msg) (s : State) (hg : s.Sound Q) : OutSound Q (execDeferReq m s) := by
  unfold execDeferReq
  repeat' (first | with_reducible apply onLedger_sound | with_reducible assumption)

theorem execDefer_sound (m : Msg) (s : State) (hg : s.Sound Q) : OutSound Q (execDefer m s) := by
  unfold execDefer
  repeat' (first | with_reducible apply onLedger_sound | with_reducible assumption)

theorem execInventory_sound (m : Msg) (s : State) (hg : s.Sound Q) : OutSound Q (execInventory m s) := by
  unfold execInventory
  repeat' (first | with_reducible apply onLedger_sound | with_reducible assumption)

theorem execRestorePick_sound (m : Msg) (s : State) (hg : s.Sound Q) : OutSound Q (execRestorePick m s) := by
  unfold execRestorePick
  repeat' (first | with_reducible apply onLedger_sound | with_reducible assumption)

theorem segmentResend_sound (xfer seg : Nat) (s : State) (hg : s.Sound Q) : (segmentResend xfer seg s).Sound Q := by
  unfold segmentResend
  repeat' (first | with_reducible assumption | with_reducible apply State.sendMsg_sound
                 | with_reducible exact Sound.parts (by with_reducible assumption) | split | simp only [Sound_mk])

theorem execSegmentRetryResend_sound (xfer seg : Nat) (s : State) (hg : s.Sound Q) : OutSound Q
    (execSegmentRetryResend xfer seg s) := by
  unfold execSegmentRetryResend
  repeat' (first | with_reducible apply ok_sound | with_reducible assumption
                 | with_reducible apply segmentResend_sound)

theorem routeWait_sound (die : Nat) (s : State) (hg : s.Sound Q) : (routeWait die s).Sound Q := by
  unfold routeWait
  repeat' (first | with_reducible assumption | intro _
                 | (fail_if_no_progress extract_lets +onlyGivenNames t; refine (fun (ht : State.Sound Q t) => ?_) ?_; clear_value t; on_goal 2 => (unfold t; clear t))
                 | with_reducible apply State.raise_sound | with_reducible apply State.flushWaiting_sound
                 | with_reducible apply Sound.ite)

theorem execRouteWaitTimeout_sound (die : Nat) (s : State) (hg : s.Sound Q) : OutSound Q
    (execRouteWaitTimeout die s) := by
  unfold execRouteWaitTimeout
  repeat' (first | with_reducible apply onUnit_sound | with_reducible assumption
                 | with_reducible apply routeWait_sound)

theorem vc3Gap_sound (src : Nat) (s : State) (hg : s.Sound Q) : (vc3Gap src s).Sound Q := by
  unfold vc3Gap
  repeat' (first | with_reducible assumption | with_reducible apply State.raise_sound | split)

theorem execVc3GapTimeout_sound (src : Nat) (s : State) (hg : s.Sound Q) : OutSound Q (execVc3GapTimeout src s) := by
  unfold execVc3GapTimeout
  repeat' (first | with_reducible apply ok_sound | with_reducible assumption | with_reducible apply vc3Gap_sound)

theorem sendDownList_sound (p : Nat) (s : State) (hg : s.Sound Q) : (sendDownList p s).Sound Q := by
  unfold sendDownList
  repeat' (first | with_reducible assumption | intro _ | with_reducible apply State.judgeResend_sound
                 | with_reducible apply Sound.forEach | with_reducible apply Sound.ite
                 | with_reducible exact Sound.parts (by with_reducible assumption) | simp only [Sound_mk])

theorem execDownList_sound (port : Nat) (s : State) (hg : s.Sound Q) : OutSound Q (execDownList port s) := by
  unfold execDownList
  repeat' (first | with_reducible apply onUnit_sound | with_reducible assumption
                 | with_reducible apply sendDownList_sound)

theorem resendHold_sound (die : Nat) (s : State) (hg : s.Sound Q) : (resendHold die s).Sound Q := by
  unfold resendHold
  repeat' (first | with_reducible assumption | with_reducible apply State.replayShare_sound
                 | with_reducible exact Sound.parts (by with_reducible assumption) | split | simp only [Sound_mk])

theorem execResendHoldTimeout_sound (die : Nat) (s : State) (hg : s.Sound Q) : OutSound Q
    (execResendHoldTimeout die s) := by
  unfold execResendHoldTimeout
  repeat' (first | with_reducible apply onUnit_sound | with_reducible assumption
                 | with_reducible apply resendHold_sound)

theorem routeWrite_sound (p : Path) (die : Nat) (v : Word) (s : State) (hg : s.Sound Q) :
    (routeWrite p die v s).Sound Q := by
  unfold routeWrite
  repeat' (first | with_reducible assumption | with_reducible apply State.reject_sound
                 | with_reducible apply State.flushWaiting_sound
                 | with_reducible exact Sound.parts (by with_reducible assumption) | split | simp only [Sound_mk])

theorem execDieRtDataWrite_sound (p : Path) (die : Nat) (v : Word) (s : State) (hg : s.Sound Q) : OutSound Q
    (execDieRtDataWrite p die v s) := by
  unfold execDieRtDataWrite
  repeat' (first | with_reducible apply onUnit_sound | with_reducible assumption
                 | with_reducible apply routeWrite_sound)

/-! ## Run -/

theorem State.issue_sound (s : State) (sid : Nat) (o : Op) (hg : s.Sound Q) : (State.issue s sid o).Sound Q := by
  unfold State.issue
  repeat' (first | with_reducible assumption | intro _
                 | (fail_if_no_progress extract_lets +onlyGivenNames t; refine (fun (ht : State.Sound Q t) => ?_) ?_; clear_value t; on_goal 2 => (unfold t; clear t))
                 | with_reducible apply State.sync_sound | with_reducible apply State.setOp_sound
                 | with_reducible apply Sound.ite)

theorem State.poisonHit_sound (s : State) (sid : Nat) (o : Op) (l : Loc) (hg : s.Sound Q) :
    (State.poisonHit s sid o l).Sound Q := by
  unfold State.poisonHit
  repeat' (first | with_reducible assumption | with_reducible apply State.poisonMet_sound
                 | with_reducible apply State.raise_sound | with_reducible apply State.replayShare_sound
                 | with_reducible apply State.bump_sound | split)

theorem State.readInputs_sound (s : State) (sid : Nat) (o : Op) (hg : s.Sound Q) :
    (State.readInputs s sid o).Sound Q := by
  unfold State.readInputs
  repeat' (first | with_reducible assumption | intro _ | with_reducible apply State.access_sound
                 | with_reducible apply Sound.forEach)

theorem State.retainInput_sound (s : State) (sid : Nat) (o : Op) (hg : s.Sound Q) :
    (State.retainInput s sid o).Sound Q := by
  unfold State.retainInput
  repeat' (first | with_reducible assumption | intro _ | with_reducible apply State.retain_sound
                 | with_reducible apply Sound.ite)

theorem State.begin'_sound (s : State) (sid : Nat) (o : Op) (hg : s.Sound Q) : (State.begin' s sid o).1.Sound Q := by
  unfold State.begin'
  repeat' (first | with_reducible assumption | intro _
                 | (fail_if_no_progress extract_lets +onlyGivenNames t; refine (fun (ht : State.Sound Q t) => ?_) ?_; clear_value t; on_goal 2 => (unfold t; clear t))
                 | with_reducible apply State.retainInput_sound | with_reducible apply State.readInputs_sound
                 | with_reducible apply State.poisonHit_sound | with_reducible apply State.issue_sound
                 | with_reducible apply State.track_sound | with_reducible apply State.setDeclared_sound
                 | with_reducible apply State.setOp_sound | with_reducible apply Sound.ite | split
                 | simp only [Sound_mk])

theorem State.putOut_sound (s : State) (sid : Nat) (o : Op) (i : Nat) (bs : List Byte) (hg : s.Sound Q) :
    (State.putOut s sid o i bs).Sound Q := by
  unfold State.putOut
  repeat' (first | with_reducible assumption | with_reducible apply State.putAt_sound)

theorem State.finish_sound (s : State) (sid : Nat) (o : Op) (flags : Nat) (hg : s.Sound Q) :
    (State.finish s sid o flags).Sound Q := by
  unfold State.finish
  repeat' (first | with_reducible assumption | intro _ | with_reducible apply State.untrack_sound
                 | with_reducible apply State.setOp_sound | with_reducible apply Sound.ite)

theorem State.putTensor_sound (s : State) (sid : Nat) (o : Op) (i : Nat) (raw : Bool)
    (val : Nat → Nat → Nat → Word) (hg : s.Sound Q) : (State.putTensor s sid o i raw val).1.Sound Q := by
  unfold State.putTensor
  repeat' (first | with_reducible assumption | with_reducible apply State.putOut_sound)

theorem State.putRaw_sound (s : State) (sid : Nat) (o : Op) (i : Nat) (val : Nat → Nat → Nat → Word)
    (hg : s.Sound Q) : (State.putRaw s sid o i val).Sound Q := by
  unfold State.putRaw
  repeat' (first | with_reducible assumption | with_reducible apply State.putOut_sound)

theorem State.raiseFlags_sound (s : State) (sid : Nat) (o : Op) (flags : Nat) (hg : s.Sound Q) :
    (State.raiseFlags s sid o flags).Sound Q := by
  unfold State.raiseFlags
  repeat' (first | with_reducible assumption | intro _ | with_reducible apply State.wr_sound
                 | with_reducible apply Sound.ite | split)

theorem State.flagWord_sound (s : State) (sid : Nat) (o : Op) (flags : Nat) (hg : s.Sound Q) :
    (State.flagWord s sid o flags).Sound Q := by
  unfold State.flagWord
  repeat' (first | with_reducible assumption | intro _ | with_reducible apply State.writeLoc_sound
                 | with_reducible apply Sound.ite)

theorem State.showStrands_sound (s : State) (sid u : Nat) (hg : s.Sound Q) : (State.showStrands s sid u).Sound Q := by
  unfold State.showStrands
  repeat' (first | with_reducible assumption | with_reducible apply State.setField_sound)

theorem State.askGrant_sound (s : State) (core : Nat) (hg : s.Sound Q) : (State.askGrant s core).Sound Q := by
  unfold State.askGrant
  repeat' (first | with_reducible exact Sound.parts (by with_reducible assumption) | simp only [Sound_mk])

theorem State.rampStart_sound (s : State) (core : Nat) (hg : s.Sound Q) : (State.rampStart s core).Sound Q := by
  unfold State.rampStart
  repeat' (first | with_reducible assumption | intro _
                 | (fail_if_no_progress extract_lets +onlyGivenNames t; refine (fun (ht : State.Sound Q t) => ?_) ?_; clear_value t; on_goal 2 => (unfold t; clear t))
                 | with_reducible apply State.askGrant_sound | with_reducible apply State.setCore_sound
                 | with_reducible apply State.bump_sound | with_reducible apply Sound.ite)

theorem State.rampGap_sound (s : State) (sid : Nat) (o : Op) (hg : s.Sound Q) : (State.rampGap s sid o).Sound Q := by
  unfold State.rampGap
  repeat' (first | with_reducible assumption | intro _ | with_reducible apply State.fillRows_sound
                 | with_reducible apply State.setCore_sound | with_reducible apply Sound.ite)

theorem opComplete_sound (sid op : Nat) (s : State) (hg : s.Sound Q) : (opComplete sid op s).Sound Q := by
  unfold opComplete
  repeat' (first | with_reducible assumption | intro _
                 | (fail_if_no_progress extract_lets +onlyGivenNames t; refine (fun (ht : State.Sound Q t) => ?_) ?_; clear_value t; on_goal 2 => (unfold t; clear t))
                 | with_reducible apply State.rampGap_sound | with_reducible apply State.showStrands_sound
                 | with_reducible apply State.flagWord_sound | with_reducible apply State.raiseFlags_sound
                 | with_reducible apply State.progress_sound | with_reducible apply State.sync_sound
                 | with_reducible apply State.setOp_sound | with_reducible apply Sound.ite
                 | with_reducible exact Sound.parts (by with_reducible assumption) | split | simp only [Sound_mk])

theorem execOpComplete_sound (sid op : Nat) (s : State) (hg : s.Sound Q) : OutSound Q (execOpComplete sid op s) := by
  unfold execOpComplete
  repeat' (first | with_reducible apply onUnit_sound | with_reducible assumption
                 | with_reducible apply opComplete_sound)

end Sys2Proof.Machine
end

