-- ==== Sys2Proof/Laws/SoundOps.lean ====
section
/-!
SUPPORT. Every operation keeps a state sound and leaves its queue alone: arrays, matrix ops, row ops, contexts, the vector unit, assays, engines, transfers and steps.
-/

set_option maxRecDepth 20000

namespace Sys2Proof.Machine

variable {q Q : List Instr}

/-! ## Arrays -/

theorem State.setAryState_sound (s : State) (core a v : Nat) (hg : s.Sound Q) :
    (State.setAryState s core a v).Sound Q := by
  unfold State.setAryState
  repeat' (first | with_reducible assumption | with_reducible apply State.setField_sound)

theorem State.setArray_sound (s : State) (core a : Nat) (r : ArrayRec) (hg : s.Sound Q) :
    (State.setArray s core a r).Sound Q := by
  unfold State.setArray
  repeat' (first | with_reducible apply State.setField_sound
                 | with_reducible exact Sound.parts (by with_reducible assumption) | simp only [Sound_mk])

theorem State.aryBump_sound (s : State) (core off : Nat) (hg : s.Sound Q) : (State.aryBump s core off).Sound Q := by
  unfold State.aryBump
  repeat' (first | with_reducible assumption | with_reducible apply State.bump_sound)

theorem State.setPhys_sound (s : State) (core l a : Nat) (hg : s.Sound Q) : (State.setPhys s core l a).Sound Q := by
  unfold State.setPhys
  repeat' (first | with_reducible assumption | with_reducible apply State.setField_sound)

theorem State.setStrikes_sound (s : State) (core a n st : Nat) (hg : s.Sound Q) :
    (State.setStrikes s core a n st).Sound Q := by
  unfold State.setStrikes
  repeat' (first | with_reducible assumption
                 | (fail_if_no_progress extract_lets +onlyGivenNames t; refine (fun (ht : State.Sound Q t) => ?_) ?_; clear_value t; on_goal 2 => (unfold t; clear t))
                 | with_reducible apply State.setField_sound)

theorem State.moveSlot_sound (s : State) (die : Nat) (hg : s.Sound Q) : (State.moveSlot s die).Sound Q := by
  unfold State.moveSlot
  repeat' (first | with_reducible assumption | with_reducible apply State.setSlot_sound | split)

theorem State.dualLost_sound (s : State) (core : Nat) (hg : s.Sound Q) : (State.dualLost s core).Sound Q := by
  unfold State.dualLost
  repeat' (first | with_reducible assumption | intro _ | with_reducible apply State.moveSlot_sound
                 | with_reducible apply Sound.ite)

theorem State.mapToStandby_sound (s : State) (core a : Nat) (hg : s.Sound Q) :
    (State.mapToStandby s core a).Sound Q := by
  unfold State.mapToStandby
  repeat' (first | with_reducible assumption | intro _ | with_reducible apply State.dualLost_sound
                 | with_reducible apply State.moveSlot_sound | with_reducible apply State.setPhys_sound
                 | with_reducible apply State.setArray_sound | with_reducible apply State.setAryState_sound
                 | with_reducible apply Sound.ite | split)

theorem State.mapBack_sound (s : State) (core a : Nat) (hg : s.Sound Q) : (State.mapBack s core a).Sound Q := by
  unfold State.mapBack
  repeat' (first | with_reducible assumption | intro _ | with_reducible apply State.setPhys_sound
                 | with_reducible apply State.setArray_sound | with_reducible apply State.setAryState_sound
                 | with_reducible apply Sound.ite | split)

theorem State.mapWritten_sound (s : State) (core : Nat) (old new : Word) (hg : s.Sound Q) :
    (State.mapWritten s core old new).Sound Q := by
  unfold State.mapWritten
  repeat' (first | with_reducible assumption | intro _ | with_reducible apply State.setArray_sound
                 | with_reducible apply State.setAryState_sound | with_reducible apply Sound.ite)

theorem State.histBump_sound (s : State) (core a band : Nat) (hg : s.Sound Q) :
    (State.histBump s core a band).Sound Q := by
  unfold State.histBump
  repeat' (first | with_reducible exact Sound.parts (by with_reducible assumption) | simp only [Sound_mk])

theorem State.histogram_sound (s : State) (core a : Nat) (c : Cond) (bin : Nat) (hg : s.Sound Q) :
    (State.histogram s core a c bin).Sound Q := by
  unfold State.histogram
  repeat' (first | with_reducible assumption | with_reducible apply State.histBump_sound)

theorem State.restrict_sound (s : State) (core a hi lo v : Nat) (hg : s.Sound Q) :
    (State.restrict s core a hi lo v).Sound Q := by
  unfold State.restrict
  repeat' (first | with_reducible assumption | with_reducible apply State.setField_sound)

theorem State.unrestrict_sound (s : State) (core a : Nat) (hg : s.Sound Q) : (State.unrestrict s core a).Sound Q := by
  unfold State.unrestrict
  repeat' (first | with_reducible assumption | with_reducible apply State.restrict_sound)

theorem State.confirmFault_sound (s : State) (core a : Nat) (c : Cond) (hg : s.Sound Q) :
    (State.confirmFault s core a c).Sound Q := by
  unfold State.confirmFault
  repeat' (first | with_reducible assumption | intro _
                 | (fail_if_no_progress extract_lets +onlyGivenNames t; refine (fun (ht : State.Sound Q t) => ?_) ?_; clear_value t; on_goal 2 => (unfold t; clear t))
                 | with_reducible apply State.unrestrict_sound | with_reducible apply State.restrict_sound
                 | with_reducible apply State.histogram_sound | with_reducible apply State.mapToStandby_sound
                 | with_reducible apply State.dualLost_sound | with_reducible apply State.moveSlot_sound
                 | with_reducible apply State.setArray_sound | with_reducible apply State.setAryState_sound
                 | with_reducible apply Sound.ite | with_reducible apply Sound.parts | split | simp only [Sound_mk])

theorem State.strike_sound (s : State) (core a : Nat) (hg : s.Sound Q) : (State.strike s core a).Sound Q := by
  unfold State.strike
  repeat' (first | with_reducible assumption | intro _ | with_reducible apply State.dualLost_sound
                 | with_reducible apply State.setStrikes_sound | with_reducible apply Sound.ite)

theorem State.suspectDie_sound (s : State) (die : Nat) (hg : s.Sound Q) : (State.suspectDie s die).Sound Q := by
  unfold State.suspectDie
  repeat' (first | intro _ | with_reducible apply State.moveSlot_sound | with_reducible apply Sound.ite
                 | with_reducible exact Sound.parts (by with_reducible assumption) | simp only [Sound_mk])

theorem State.holdRestriction_sound (s : State) (core a : Nat) (temp : Int) (act : Nat) (hg : s.Sound Q) :
    (State.holdRestriction s core a temp act).Sound Q := by
  unfold State.holdRestriction
  repeat' (first | with_reducible assumption | intro _ | with_reducible apply State.mapToStandby_sound
                 | with_reducible apply State.setArray_sound | with_reducible apply Sound.ite)

theorem State.putEntry_sound (s : State) (idx : Nat) (bs : List Byte) (hg : s.Sound Q) :
    (State.putEntry s idx bs).Sound Q := by
  unfold State.putEntry
  repeat' (first | with_reducible exact Sound.parts (by with_reducible assumption) | simp only [Sound_mk])

theorem State.capture_sound (s : State) (sid : Nat) (c : Capture) (hg : s.Sound Q) :
    (State.capture s sid c).1.Sound Q := by
  unfold State.capture
  repeat' (first | with_reducible assumption | with_reducible apply State.putEntry_sound | split
                 | simp only [Sound_mk])

/-! ## Matrix -/

theorem State.setAcc_sound (s : State) (k : Nat) (e : AccEntry) (hg : s.Sound Q) : (State.setAcc s k e).Sound Q := by
  unfold State.setAcc
  repeat' (first | with_reducible exact Sound.parts (by with_reducible assumption) | simp only [Sound_mk])

theorem State.initEntries_sound (s : State) (sid : Nat) (o : Op) (l : List (Nat × Nat × Nat)) (hg : s.Sound Q) :
    (State.initEntries s sid o l).Sound Q := by
  unfold State.initEntries
  repeat' (first | with_reducible assumption | intro _ | with_reducible apply State.setAcc_sound
                 | with_reducible apply Sound.forEach)

theorem State.stage_sound (s : State) (sid : Nat) (o : Op) (hg : s.Sound Q) : (State.stage s sid o).Sound Q := by
  unfold State.stage
  repeat' (first | with_reducible exact Sound.parts (by with_reducible assumption) | simp only [Sound_mk])

theorem State.startProduct_sound (s : State) (sid : Nat) (o : Op) (hg : s.Sound Q) :
    (State.startProduct s sid o).Sound Q := by
  unfold State.startProduct
  repeat' (first | with_reducible assumption | intro _ | with_reducible apply State.stage_sound
                 | with_reducible apply State.rampStart_sound | with_reducible apply State.begin'_sound
                 | with_reducible apply Sound.ite)

theorem State.promoteRow_sound (s : State) (sid : Nat) (o : Op) (row slice : Nat) (rs : List LaneResult)
    (hg : s.Sound Q) : (State.promoteRow s sid o row slice rs).1.Sound Q := by
  unfold State.promoteRow
  repeat' (first | with_reducible assumption | intro _ | with_reducible apply State.setAcc_sound
                 | with_reducible apply Sound.foldl1)

theorem State.setUnit_sound (s : State) (sid : Nat) (o : Op) (b g v : Nat) (hg : s.Sound Q) :
    (State.setUnit s sid o b g v).Sound Q := by
  unfold State.setUnit
  repeat' (first | with_reducible assumption | with_reducible apply State.setOp_sound)

theorem State.beginUnit_sound (s : State) (sid : Nat) (o : Op) (b g : Nat) (hg : s.Sound Q) :
    (State.beginUnit s sid o b g).Sound Q := by
  unfold State.beginUnit
  repeat' (first | with_reducible assumption | intro _ | with_reducible apply State.setUnit_sound
                 | with_reducible apply State.initEntries_sound | with_reducible apply Sound.ite)

theorem State.countChunk_sound (s : State) (core a : Nat) (cyc : Nat) (rep : Bool) (hg : s.Sound Q) :
    (State.countChunk s core a cyc rep).Sound Q := by
  unfold State.countChunk
  repeat' (first | with_reducible assumption | intro _
                 | (fail_if_no_progress extract_lets +onlyGivenNames t; refine (fun (ht : State.Sound Q t) => ?_) ?_; clear_value t; on_goal 2 => (unfold t; clear t))
                 | with_reducible apply State.aryBump_sound | with_reducible apply State.bump_sound
                 | with_reducible apply Sound.ite | with_reducible exact Sound.parts (by with_reducible assumption)
                 | simp only [Sound_mk])

theorem State.addFlags_sound (s : State) (sid : Nat) (o : Op) (f : Nat) (hg : s.Sound Q) :
    (State.addFlags s sid o f).Sound Q := by
  unfold State.addFlags
  repeat' (first | with_reducible assumption | with_reducible apply State.setOp_sound)

theorem State.entriesWritten_sound (s : State) (sid : Nat) (o : Op) (l : List (Nat × Nat × Nat))
    (hg : s.Sound Q) : (State.entriesWritten s sid o l).Sound Q := by
  unfold State.entriesWritten
  repeat' (first | with_reducible assumption | intro _ | with_reducible apply State.setAcc_sound
                 | with_reducible apply Sound.forEach)

theorem State.writeUnit_sound (s : State) (sid : Nat) (o : Op) (b g : Nat) (hg : s.Sound Q) :
    (State.writeUnit s sid o b g).Sound Q := by
  unfold State.writeUnit
  repeat' (first | with_reducible assumption | intro _ | with_reducible apply State.entriesWritten_sound
                 | with_reducible apply State.addFlags_sound | with_reducible apply State.setUnit_sound
                 | with_reducible apply State.putAt_sound | with_reducible apply Sound.forN
                 | with_reducible apply Sound.ite)

theorem State.takeChunk_sound (s : State) (sid : Nat) (o : Op) (row slice : Nat) (rs : List LaneResult)
    (fl : StrictFlags) (hg : s.Sound Q) : (State.takeChunk s sid o row slice rs fl).Sound Q := by
  unfold State.takeChunk
  repeat' (first | with_reducible assumption | intro _ | with_reducible apply State.writeUnit_sound
                 | with_reducible apply State.promoteRow_sound | with_reducible apply State.setOp_sound
                 | with_reducible apply Sound.ite)

theorem State.soundChunk_sound (s : State) (sid : Nat) (o : Op) (row slice : Nat) (hg : s.Sound Q) :
    (State.soundChunk s sid o row slice).Sound Q := by
  unfold State.soundChunk
  repeat' (first | with_reducible assumption | with_reducible apply State.takeChunk_sound
                 | with_reducible apply State.countChunk_sound)

theorem State.runUnit_sound (s : State) (sid : Nat) (o : Op) (b g : Nat) (hg : s.Sound Q) :
    (State.runUnit s sid o b g).Sound Q := by
  unfold State.runUnit
  repeat' (first | with_reducible assumption | intro _ | with_reducible apply State.soundChunk_sound
                 | with_reducible apply State.beginUnit_sound | with_reducible apply Sound.forEach
                 | with_reducible apply Sound.forN | with_reducible apply Sound.ite)

theorem State.matrixOut_sound (s : State) (sid : Nat) (o : Op) (out : Option Nat) (flags : Nat)
    (val : Nat → Nat → Nat → Word) (hg : s.Sound Q) : (State.matrixOut s sid o out flags val).Sound Q := by
  unfold State.matrixOut
  repeat' (first | with_reducible assumption | with_reducible apply State.entriesWritten_sound
                 | with_reducible apply State.putTensor_sound | with_reducible apply State.finish_sound | split)

theorem product_sound (sid op : Nat) (s : State) (hg : s.Sound Q) : (product sid op s).Sound Q := by
  unfold product
  repeat' (first | with_reducible assumption | intro _
                 | (fail_if_no_progress extract_lets +onlyGivenNames t; refine (fun (ht : State.Sound Q t) => ?_) ?_; clear_value t; on_goal 2 => (unfold t; clear t))
                 | with_reducible apply State.runUnit_sound | with_reducible apply State.startProduct_sound
                 | with_reducible apply State.finish_sound | with_reducible apply Sound.forEach
                 | with_reducible apply Sound.ite | split)

theorem execProduct_sound (sid op : Nat) (s : State) (hg : s.Sound Q) : OutSound Q (execProduct sid op s) := by
  unfold execProduct
  repeat' (first | with_reducible apply onUnit_sound | with_reducible assumption | with_reducible apply product_sound)

theorem State.bufferUpset_sound {s u : State} {sid : Nat} {o : Op} {core : Nat} {us : List LaneUpset} {c : Cond}
    (e : s.bufferUpset sid o core us c = some u) (h : s.Sound Q) : u.Sound Q := by
  unfold State.bufferUpset at e
  dsimp only at e
  split at e
  · cases e; exact State.raise_sound _ _ _ _ h
  · cases e

theorem chunk_sound (sid op row slice : Nat) (us : List LaneUpset) (c : Cond) (s : State) (hg : s.Sound Q) :
    (chunk sid op row slice us c s).Sound Q := by
  unfold chunk
  repeat' (first | with_reducible assumption
                 | with_reducible refine State.bufferUpset_sound (by with_reducible assumption) ?_ | intro _
                 | (fail_if_no_progress extract_lets +onlyGivenNames t; refine (fun (ht : State.Sound Q t) => ?_) ?_; clear_value t; on_goal 2 => (unfold t; clear t))
                 | with_reducible apply State.takeChunk_sound | with_reducible apply State.countChunk_sound
                 | with_reducible apply State.beginUnit_sound | with_reducible apply State.startProduct_sound
                 | with_reducible apply State.capture_sound | with_reducible apply State.suspectDie_sound
                 | with_reducible apply State.confirmFault_sound | with_reducible apply State.aryBump_sound
                 | with_reducible apply State.raise_sound | with_reducible apply State.raiseAs_sound
                 | with_reducible apply Sound.ite | with_reducible exact Sound.parts (by with_reducible assumption)
                 | split | simp only [Sound_mk])

theorem execChunk_sound (sid op row colTile : Nat) (upset : List LaneUpset) (c : Cond) (s : State)
    (hg : s.Sound Q) : OutSound Q (execChunk sid op row colTile upset c s) := by
  unfold execChunk
  repeat' (first | with_reducible apply onUnit_sound | with_reducible assumption | with_reducible apply chunk_sound)

theorem kFold_sound (sid op : Nat) (s : State) (hg : s.Sound Q) : (kFold sid op s).Sound Q := by
  unfold kFold
  repeat' (first | with_reducible assumption | intro _ | with_reducible apply State.matrixOut_sound
                 | with_reducible apply State.setAcc_sound | with_reducible apply State.rampStart_sound
                 | with_reducible apply State.begin'_sound | with_reducible apply Sound.forEach
                 | with_reducible apply Sound.ite | split)

theorem execKFold_sound (sid op : Nat) (s : State) (hg : s.Sound Q) : OutSound Q (execKFold sid op s) := by
  unfold execKFold
  repeat' (first | with_reducible apply onUnit_sound | with_reducible assumption | with_reducible apply kFold_sound)

theorem accWrite_sound (sid op : Nat) (s : State) (hg : s.Sound Q) : (accWrite sid op s).Sound Q := by
  unfold accWrite
  repeat' (first | with_reducible assumption | intro _ | with_reducible apply State.matrixOut_sound
                 | with_reducible apply State.rampStart_sound | with_reducible apply State.begin'_sound
                 | with_reducible apply Sound.ite | split)

theorem execAccWrite_sound (sid op : Nat) (s : State) (hg : s.Sound Q) : OutSound Q (execAccWrite sid op s) := by
  unfold execAccWrite
  repeat' (first | with_reducible apply onUnit_sound | with_reducible assumption
                 | with_reducible apply accWrite_sound)

/-! ## Reduce -/

theorem State.rowsOut_sound (s : State) (sid : Nat) (o : Op) (outs : List RowOut) (hg : s.Sound Q) :
    (State.rowsOut s sid o outs).Sound Q := by
  unfold State.rowsOut
  repeat' (first | with_reducible assumption | intro _ | with_reducible apply State.putRaw_sound
                 | with_reducible apply State.putTensor_sound | with_reducible apply State.finish_sound
                 | with_reducible apply Sound.foldl1 | split)

theorem rowOp_sound (sid op code : Nat) (f : State → Op → List RowOut) (s : State) (hg : s.Sound Q) :
    (rowOp sid op code f s).Sound Q := by
  unfold rowOp
  repeat' (first | with_reducible assumption | intro _ | with_reducible apply State.rowsOut_sound
                 | with_reducible apply State.begin'_sound | with_reducible apply Sound.ite | split)

theorem State.rowDisagrees_sound (s : State) (sid : Nat) (o : Op) (g : Nat) (hg : s.Sound Q) :
    (State.rowDisagrees s sid o g).Sound Q := by
  unfold State.rowDisagrees
  repeat' (first | with_reducible assumption | intro _
                 | (fail_if_no_progress extract_lets +onlyGivenNames t; refine (fun (ht : State.Sound Q t) => ?_) ?_; clear_value t; on_goal 2 => (unfold t; clear t))
                 | with_reducible apply State.begin'_sound | with_reducible apply State.raise_sound
                 | with_reducible apply State.setOp_sound | with_reducible apply Sound.ite)

theorem execSum_sound (sid op : Nat) (s : State) (hg : s.Sound Q) : OutSound Q (execSum sid op s) := by
  unfold execSum
  repeat' (first | with_reducible apply onUnit_sound | with_reducible assumption | with_reducible apply rowOp_sound)

theorem execSumsq_sound (sid op : Nat) (s : State) (hg : s.Sound Q) : OutSound Q (execSumsq sid op s) := by
  unfold execSumsq
  repeat' (first | with_reducible apply onUnit_sound | with_reducible assumption | with_reducible apply rowOp_sound)

theorem execDot_sound (sid op : Nat) (s : State) (hg : s.Sound Q) : OutSound Q (execDot sid op s) := by
  unfold execDot
  repeat' (first | with_reducible apply onUnit_sound | with_reducible assumption | with_reducible apply rowOp_sound)

theorem execMeanvar_sound (sid op : Nat) (s : State) (hg : s.Sound Q) : OutSound Q (execMeanvar sid op s) := by
  unfold execMeanvar
  repeat' (first | with_reducible apply onUnit_sound | with_reducible assumption | with_reducible apply rowOp_sound)

theorem execMvCombine_sound (sid op : Nat) (s : State) (hg : s.Sound Q) : OutSound Q (execMvCombine sid op s) := by
  unfold execMvCombine
  repeat' (first | with_reducible apply onUnit_sound | with_reducible assumption | with_reducible apply rowOp_sound)

theorem execSmaxBwd_sound (sid op : Nat) (s : State) (hg : s.Sound Q) : OutSound Q (execSmaxBwd sid op s) := by
  unfold execSmaxBwd
  repeat' (first | with_reducible apply onUnit_sound | with_reducible assumption | with_reducible apply rowOp_sound)

theorem execNormFwd_sound (sid op : Nat) (s : State) (hg : s.Sound Q) : OutSound Q (execNormFwd sid op s) := by
  unfold execNormFwd
  repeat' (first | with_reducible apply onUnit_sound | with_reducible assumption | with_reducible apply rowOp_sound)

theorem execNormBwd_sound (sid op : Nat) (s : State) (hg : s.Sound Q) : OutSound Q (execNormBwd sid op s) := by
  unfold execNormBwd
  repeat' (first | with_reducible apply onUnit_sound | with_reducible assumption | with_reducible apply rowOp_sound)

theorem execMaxIdx_sound (sid op : Nat) (s : State) (hg : s.Sound Q) : OutSound Q (execMaxIdx sid op s) := by
  unfold execMaxIdx
  repeat' (first | with_reducible apply onUnit_sound | with_reducible assumption | with_reducible apply rowOp_sound)

theorem execMinIdx_sound (sid op : Nat) (s : State) (hg : s.Sound Q) : OutSound Q (execMinIdx sid op s) := by
  unfold execMinIdx
  repeat' (first | with_reducible apply onUnit_sound | with_reducible assumption | with_reducible apply rowOp_sound)

/-! ## Context -/

theorem State.layContext_sound (s : State) (pa core : Nat) (c : SavedCtx) (hg : s.Sound Q) :
    (State.layContext s pa core c).Sound Q := by
  unfold State.layContext
  repeat' (first | with_reducible assumption | intro _
                 | (fail_if_no_progress extract_lets +onlyGivenNames t; refine (fun (ht : State.Sound Q t) => ?_) ?_; clear_value t; on_goal 2 => (unfold t; clear t))
                 | with_reducible apply State.stN_sound | with_reducible apply State.setStack_sound
                 | with_reducible apply Sound.forEach | with_reducible apply Memory.wf_clear
                 | with_reducible exact Sound.stack (by with_reducible assumption))

theorem State.setCtxState_sound (s : State) (core v : Nat) (hg : s.Sound Q) :
    (State.setCtxState s core v).Sound Q := by
  unfold State.setCtxState
  repeat' (first | with_reducible assumption | with_reducible apply State.setField_sound)

theorem State.rowInProgress_sound (s : State) (sid core : Nat) (hg : s.Sound Q) :
    (State.rowInProgress s sid core).Sound Q := by
  unfold State.rowInProgress
  repeat' (first | with_reducible assumption | intro _ | with_reducible apply State.begin'_sound
                 | with_reducible apply State.setOp_sound | with_reducible apply Sound.ite
                 | with_reducible apply Sound.parts | split | simp only [Sound_mk])

theorem State.saveNow_sound (s : State) (core : Nat) (hg : s.Sound Q) : (State.saveNow s core).Sound Q := by
  unfold State.saveNow
  repeat' (first | with_reducible assumption | intro _ | with_reducible apply State.rowInProgress_sound
                 | with_reducible apply State.setCtxState_sound | with_reducible apply State.layContext_sound
                 | with_reducible apply State.setCore_sound | with_reducible apply State.setField_sound
                 | with_reducible apply Sound.ite)

theorem contextSave_sound (core : Nat) (s : State) (hg : s.Sound Q) : (contextSave core s).Sound Q := by
  unfold contextSave
  repeat' (first | with_reducible assumption | intro _ | with_reducible apply State.saveNow_sound
                 | with_reducible apply State.setCtxState_sound | with_reducible apply State.setCore_sound
                 | with_reducible apply Sound.ite)

theorem State.saveIfDue_sound (s : State) (core : Nat) (hg : s.Sound Q) : (State.saveIfDue s core).Sound Q := by
  unfold State.saveIfDue
  repeat' (first | with_reducible assumption | intro _ | with_reducible apply State.saveNow_sound
                 | with_reducible apply Sound.ite)

theorem execContextSave_sound (core : Nat) (s : State) (hg : s.Sound Q) : OutSound Q (execContextSave core s) := by
  unfold execContextSave
  repeat' (first | with_reducible apply onUnit_sound | with_reducible assumption
                 | with_reducible apply contextSave_sound)

/-! ## Vector -/

theorem State.setStrand_sound (s : State) (k : Nat) (x : Strand) (hg : s.Sound Q) :
    (State.setStrand s k x).Sound Q := by
  unfold State.setStrand
  repeat' (first | with_reducible exact Sound.parts (by with_reducible assumption) | simp only [Sound_mk])

theorem strandInstr_sound (opc core n d a b c : Nat) (s : State) (hg : s.Sound Q) :
    (strandInstr opc core n d a b c s).Sound Q := by
  unfold strandInstr
  repeat' (first | with_reducible assumption | with_reducible apply State.setStrand_sound)

theorem execAdd_sound (core n d a b : Nat) (s : State) (hg : s.Sound Q) : OutSound Q (execAdd core n d a b s) := by
  unfold execAdd
  repeat' (first | with_reducible apply onUnit_sound | with_reducible assumption
                 | with_reducible apply strandInstr_sound)

theorem execSub_sound (core n d a b : Nat) (s : State) (hg : s.Sound Q) : OutSound Q (execSub core n d a b s) := by
  unfold execSub
  repeat' (first | with_reducible apply onUnit_sound | with_reducible assumption
                 | with_reducible apply strandInstr_sound)

theorem execMul_sound (core n d a b : Nat) (s : State) (hg : s.Sound Q) : OutSound Q (execMul core n d a b s) := by
  unfold execMul
  repeat' (first | with_reducible apply onUnit_sound | with_reducible assumption
                 | with_reducible apply strandInstr_sound)

theorem execFma_sound (core n d a b c : Nat) (s : State) (hg : s.Sound Q) : OutSound Q
    (execFma core n d a b c s) := by
  unfold execFma
  repeat' (first | with_reducible apply onUnit_sound | with_reducible assumption
                 | with_reducible apply strandInstr_sound)

theorem execDiv_sound (core n d a b : Nat) (s : State) (hg : s.Sound Q) : OutSound Q (execDiv core n d a b s) := by
  unfold execDiv
  repeat' (first | with_reducible apply onUnit_sound | with_reducible assumption
                 | with_reducible apply strandInstr_sound)

theorem execSqrt_sound (core n d a : Nat) (s : State) (hg : s.Sound Q) : OutSound Q (execSqrt core n d a s) := by
  unfold execSqrt
  repeat' (first | with_reducible apply onUnit_sound | with_reducible assumption
                 | with_reducible apply strandInstr_sound)

theorem execRsqrt_sound (core n d a : Nat) (s : State) (hg : s.Sound Q) : OutSound Q (execRsqrt core n d a s) := by
  unfold execRsqrt
  repeat' (first | with_reducible apply onUnit_sound | with_reducible assumption
                 | with_reducible apply strandInstr_sound)

theorem execNeg_sound (core n d a : Nat) (s : State) (hg : s.Sound Q) : OutSound Q (execNeg core n d a s) := by
  unfold execNeg
  repeat' (first | with_reducible apply onUnit_sound | with_reducible assumption
                 | with_reducible apply strandInstr_sound)

theorem execAbs_sound (core n d a : Nat) (s : State) (hg : s.Sound Q) : OutSound Q (execAbs core n d a s) := by
  unfold execAbs
  repeat' (first | with_reducible apply onUnit_sound | with_reducible assumption
                 | with_reducible apply strandInstr_sound)

theorem execMax_sound (core n d a b : Nat) (s : State) (hg : s.Sound Q) : OutSound Q (execMax core n d a b s) := by
  unfold execMax
  repeat' (first | with_reducible apply onUnit_sound | with_reducible assumption
                 | with_reducible apply strandInstr_sound)

theorem execMin_sound (core n d a b : Nat) (s : State) (hg : s.Sound Q) : OutSound Q (execMin core n d a b s) := by
  unfold execMin
  repeat' (first | with_reducible apply onUnit_sound | with_reducible assumption
                 | with_reducible apply strandInstr_sound)

theorem execCmplt_sound (core n d a b : Nat) (s : State) (hg : s.Sound Q) : OutSound Q
    (execCmplt core n d a b s) := by
  unfold execCmplt
  repeat' (first | with_reducible apply onUnit_sound | with_reducible assumption
                 | with_reducible apply strandInstr_sound)

theorem execCmple_sound (core n d a b : Nat) (s : State) (hg : s.Sound Q) : OutSound Q
    (execCmple core n d a b s) := by
  unfold execCmple
  repeat' (first | with_reducible apply onUnit_sound | with_reducible assumption
                 | with_reducible apply strandInstr_sound)

theorem execCmpeq_sound (core n d a b : Nat) (s : State) (hg : s.Sound Q) : OutSound Q
    (execCmpeq core n d a b s) := by
  unfold execCmpeq
  repeat' (first | with_reducible apply onUnit_sound | with_reducible assumption
                 | with_reducible apply strandInstr_sound)

theorem execSelect_sound (core n d a b c : Nat) (s : State) (hg : s.Sound Q) : OutSound Q
    (execSelect core n d a b c s) := by
  unfold execSelect
  repeat' (first | with_reducible apply onUnit_sound | with_reducible assumption
                 | with_reducible apply strandInstr_sound)

theorem execExp_sound (core n d a : Nat) (s : State) (hg : s.Sound Q) : OutSound Q (execExp core n d a s) := by
  unfold execExp
  repeat' (first | with_reducible apply onUnit_sound | with_reducible assumption
                 | with_reducible apply strandInstr_sound)

theorem execExpm1_sound (core n d a : Nat) (s : State) (hg : s.Sound Q) : OutSound Q (execExpm1 core n d a s) := by
  unfold execExpm1
  repeat' (first | with_reducible apply onUnit_sound | with_reducible assumption
                 | with_reducible apply strandInstr_sound)

theorem execLog_sound (core n d a : Nat) (s : State) (hg : s.Sound Q) : OutSound Q (execLog core n d a s) := by
  unfold execLog
  repeat' (first | with_reducible apply onUnit_sound | with_reducible assumption
                 | with_reducible apply strandInstr_sound)

theorem execLog1p_sound (core n d a : Nat) (s : State) (hg : s.Sound Q) : OutSound Q (execLog1p core n d a s) := by
  unfold execLog1p
  repeat' (first | with_reducible apply onUnit_sound | with_reducible assumption
                 | with_reducible apply strandInstr_sound)

theorem execTanh_sound (core n d a : Nat) (s : State) (hg : s.Sound Q) : OutSound Q (execTanh core n d a s) := by
  unfold execTanh
  repeat' (first | with_reducible apply onUnit_sound | with_reducible assumption
                 | with_reducible apply strandInstr_sound)

theorem execSigmoid_sound (core n d a : Nat) (s : State) (hg : s.Sound Q) : OutSound Q
    (execSigmoid core n d a s) := by
  unfold execSigmoid
  repeat' (first | with_reducible apply onUnit_sound | with_reducible assumption
                 | with_reducible apply strandInstr_sound)

theorem execErf_sound (core n d a : Nat) (s : State) (hg : s.Sound Q) : OutSound Q (execErf core n d a s) := by
  unfold execErf
  repeat' (first | with_reducible apply onUnit_sound | with_reducible assumption
                 | with_reducible apply strandInstr_sound)

theorem execGelu_sound (core n d a : Nat) (s : State) (hg : s.Sound Q) : OutSound Q (execGelu core n d a s) := by
  unfold execGelu
  repeat' (first | with_reducible apply onUnit_sound | with_reducible assumption
                 | with_reducible apply strandInstr_sound)

theorem execMov_sound (core n d a : Nat) (s : State) (hg : s.Sound Q) : OutSound Q (execMov core n d a s) := by
  unfold execMov
  repeat' (first | with_reducible apply onUnit_sound | with_reducible assumption
                 | with_reducible apply strandInstr_sound)

theorem strandRand_sound (core n d seq : Nat) (s : State) (hg : s.Sound Q) : (strandRand core n d seq s).Sound Q := by
  unfold strandRand
  repeat' (first | with_reducible assumption | with_reducible apply State.setStrand_sound)

theorem execRand_sound (core n d seq : Nat) (s : State) (hg : s.Sound Q) : OutSound Q (execRand core n d seq s) := by
  unfold execRand
  repeat' (first | with_reducible apply onUnit_sound | with_reducible assumption
                 | with_reducible apply strandRand_sound)

theorem State.takeRow_sound (s : State) (sid : Nat) (o : Op) (group i : Nat) (hg : s.Sound Q) :
    (State.takeRow s sid o group i).Sound Q := by
  unfold State.takeRow
  repeat' (first | with_reducible assumption | intro _ | with_reducible apply State.setStrand_sound
                 | with_reducible apply Sound.forEach)

theorem vectorStart_sound (sid op code : Nat) (s : State) (hg : s.Sound Q) : (vectorStart sid op code s).Sound Q := by
  unfold vectorStart
  repeat' (first | with_reducible assumption | intro _
                 | (fail_if_no_progress extract_lets +onlyGivenNames t; refine (fun (ht : State.Sound Q t) => ?_) ?_; clear_value t; on_goal 2 => (unfold t; clear t))
                 | with_reducible apply State.takeRow_sound | with_reducible apply State.showStrands_sound
                 | with_reducible apply State.begin'_sound | with_reducible apply State.issue_sound
                 | with_reducible apply State.setOp_sound | with_reducible apply State.bump_sound
                 | with_reducible apply Sound.forN | with_reducible apply Sound.ite | split)

theorem execMap_sound (sid op : Nat) (s : State) (hg : s.Sound Q) : OutSound Q (execMap sid op s) := by
  unfold execMap
  repeat' (first | with_reducible apply onUnit_sound | with_reducible assumption
                 | with_reducible apply vectorStart_sound)

theorem execRowMax_sound (sid op : Nat) (s : State) (hg : s.Sound Q) : OutSound Q (execRowMax sid op s) := by
  unfold execRowMax
  repeat' (first | with_reducible apply onUnit_sound | with_reducible assumption
                 | with_reducible apply vectorStart_sound)

theorem execRowMin_sound (sid op : Nat) (s : State) (hg : s.Sound Q) : OutSound Q (execRowMin sid op s) := by
  unfold execRowMin
  repeat' (first | with_reducible apply onUnit_sound | with_reducible assumption
                 | with_reducible apply vectorStart_sound)

theorem execKFoldVector_sound (sid op : Nat) (s : State) (hg : s.Sound Q) : OutSound Q
    (execKFoldVector sid op s) := by
  unfold execKFoldVector
  repeat' (first | with_reducible apply onUnit_sound | with_reducible assumption
                 | with_reducible apply vectorStart_sound)

theorem State.writeTile_sound (s : State) (sid : Nat) (o : Op) (i : Nat) (hg : s.Sound Q) :
    (State.writeTile s sid o i).Sound Q := by
  unfold State.writeTile
  repeat' (first | with_reducible assumption | with_reducible apply State.putAt_sound
                 | with_reducible apply State.setOp_sound)

theorem State.writeFolds_sound (s : State) (sid : Nat) (o : Op) (hg : s.Sound Q) :
    (State.writeFolds s sid o).Sound Q := by
  unfold State.writeFolds
  repeat' (first | with_reducible assumption | with_reducible apply State.putTensor_sound
                 | with_reducible apply State.setOp_sound)

theorem State.reexecTwice_sound (s : State) (sid op typ inst : Nat) (hg : s.Sound Q) :
    (State.reexecTwice s sid op typ inst).Sound Q := by
  unfold State.reexecTwice
  repeat' (first | with_reducible assumption | with_reducible apply State.raise_sound)

theorem tileRowComplete_sound (sid op group : Nat) (disagree : Bool) (s : State) (hg : s.Sound Q) :
    (tileRowComplete sid op group disagree s).Sound Q := by
  unfold tileRowComplete
  repeat' (first | with_reducible assumption | intro _ | with_reducible apply State.reexecTwice_sound
                 | with_reducible apply State.writeFolds_sound | with_reducible apply State.writeTile_sound
                 | with_reducible apply State.takeRow_sound | with_reducible apply State.saveIfDue_sound
                 | with_reducible apply State.rowDisagrees_sound | with_reducible apply State.finish_sound
                 | with_reducible apply State.setOp_sound | with_reducible apply Sound.ite | split)

theorem execTileRowComplete_sound (sid op group : Nat) (disagree : Bool) (s : State) (hg : s.Sound Q) : OutSound Q
    (execTileRowComplete sid op group disagree s) := by
  unfold execTileRowComplete
  repeat' (first | with_reducible apply onUnit_sound | with_reducible assumption
                 | with_reducible apply tileRowComplete_sound)

theorem State.resumeGroups_sound (s : State) (sid : Nat) (o : Op) (hg : s.Sound Q) :
    (State.resumeGroups s sid o).Sound Q := by
  unfold State.resumeGroups
  repeat' (first | with_reducible assumption | intro _ | with_reducible apply State.takeRow_sound
                 | with_reducible apply State.setOp_sound | with_reducible apply Sound.forN
                 | with_reducible apply Sound.ite | split)

/-! ## Assay -/

theorem State.dropDispute_sound (s : State) (d : Dispute) (hg : s.Sound Q) : (State.dropDispute s d).Sound Q := by
  unfold State.dropDispute
  repeat' (first | with_reducible exact Sound.parts (by with_reducible assumption) | simp only [Sound_mk])

theorem State.decided_sound (s : State) (d : Dispute) (n : Nat) (hg : s.Sound Q) : (State.decided s d n).Sound Q := by
  unfold State.decided
  repeat' (first | with_reducible assumption
                 | (fail_if_no_progress extract_lets +onlyGivenNames t; refine (fun (ht : State.Sound Q t) => ?_) ?_; clear_value t; on_goal 2 => (unfold t; clear t))
                 | with_reducible apply State.setField_sound)

theorem State.charge_sound (s : State) (d : Dispute) (o : Op) (core a base : Nat) (c : Cond)
    (sound : List LaneResult) (hg : s.Sound Q) : (State.charge s d o core a base c sound).1.Sound Q := by
  unfold State.charge
  repeat' (first | with_reducible assumption | with_reducible apply State.capture_sound)

theorem State.resolveDispute_sound (s : State) (d : Dispute) (o : Op) (c : Cond) (n code : Nat)
    (rs : List LaneResult) (fl : StrictFlags) (entry : List Byte) (idx : Nat) (hg : s.Sound Q) : (State.resolveDispute s d o c n code rs fl entry idx).Sound Q := by
  unfold State.resolveDispute
  repeat' (first | with_reducible assumption
                 | (fail_if_no_progress extract_lets +onlyGivenNames t; refine (fun (ht : State.Sound Q t) => ?_) ?_; clear_value t; on_goal 2 => (unfold t; clear t))
                 | with_reducible apply State.decided_sound | with_reducible apply State.dropDispute_sound
                 | with_reducible apply State.saveIfDue_sound | with_reducible apply State.takeChunk_sound
                 | with_reducible apply State.raise_sound)

theorem State.stepReplay_sound (s : State) (d : Dispute) (c : Cond) (hg : s.Sound Q) :
    (State.stepReplay s d c).Sound Q := by
  unfold State.stepReplay
  repeat' (first | with_reducible assumption
                 | (fail_if_no_progress extract_lets +onlyGivenNames t; refine (fun (ht : State.Sound Q t) => ?_) ?_; clear_value t; on_goal 2 => (unfold t; clear t))
                 | with_reducible apply State.decided_sound | with_reducible apply State.suspectDie_sound
                 | with_reducible apply State.aryBump_sound | with_reducible apply State.raise_sound)

theorem assay_sound (core : Nat) (us : List LaneUpset) (c : Cond) (s : State) (hg : s.Sound Q) :
    (assay core us c s).Sound Q := by
  unfold assay
  repeat' (first | with_reducible assumption | intro _
                 | (fail_if_no_progress extract_lets +onlyGivenNames t; refine (fun (ht : State.Sound Q t) => ?_) ?_; clear_value t; on_goal 2 => (unfold t; clear t))
                 | with_reducible apply State.stepReplay_sound | with_reducible apply State.resolveDispute_sound
                 | with_reducible apply State.charge_sound | with_reducible apply State.countChunk_sound
                 | with_reducible apply State.strike_sound | with_reducible apply State.confirmFault_sound
                 | with_reducible apply State.aryBump_sound | with_reducible apply Sound.ite
                 | with_reducible exact Sound.parts (by with_reducible assumption) | split | simp only [Sound_mk])

theorem execAssay_sound (core : Nat) (upset : List LaneUpset) (c : Cond) (s : State) (hg : s.Sound Q) : OutSound Q
    (execAssay core upset c s) := by
  unfold execAssay
  repeat' (first | with_reducible apply onUnit_sound | with_reducible assumption | with_reducible apply assay_sound)

theorem secondAssay_sound (core : Nat) (us : List LaneUpset) (c : Cond) (s : State) (hg : s.Sound Q) :
    (secondAssay core us c s).Sound Q := by
  unfold secondAssay
  repeat' (first | with_reducible assumption | intro _ | with_reducible apply State.stepReplay_sound
                 | with_reducible apply State.resolveDispute_sound | with_reducible apply State.charge_sound
                 | with_reducible apply State.countChunk_sound | with_reducible apply State.suspectDie_sound
                 | with_reducible apply State.strike_sound | with_reducible apply State.confirmFault_sound
                 | with_reducible apply State.aryBump_sound | with_reducible apply Sound.ite | split)

theorem execSecondAssay_sound (core : Nat) (upset : List LaneUpset) (c : Cond) (s : State)
    (hg : s.Sound Q) : OutSound Q (execSecondAssay core upset c s) := by
  unfold execSecondAssay
  repeat' (first | with_reducible apply onUnit_sound | with_reducible assumption
                 | with_reducible apply secondAssay_sound)

theorem State.releaseEvent_sound (s : State) (core a res : Nat) (hg : s.Sound Q) :
    (State.releaseEvent s core a res).Sound Q := by
  unfold State.releaseEvent
  repeat' (first | with_reducible assumption | with_reducible apply State.setArray_sound
                 | with_reducible apply State.event_sound | split)

theorem State.runPassed_sound (s : State) (core a index : Nat) (hg : s.Sound Q) :
    (State.runPassed s core a index).Sound Q := by
  unfold State.runPassed
  repeat' (first | with_reducible assumption | intro _ | with_reducible apply State.releaseEvent_sound
                 | with_reducible apply State.setStrikes_sound | with_reducible apply State.setArray_sound
                 | with_reducible apply State.setAryState_sound | with_reducible apply Sound.ite)

theorem touchstoneRun_sound (core a index : Nat) (us : List LaneUpset) (c : Cond) (s : State) (hg : s.Sound Q) :
    (touchstoneRun core a index us c s).Sound Q := by
  unfold touchstoneRun
  repeat' (first | with_reducible assumption | intro _
                 | (fail_if_no_progress extract_lets +onlyGivenNames t; refine (fun (ht : State.Sound Q t) => ?_) ?_; clear_value t; on_goal 2 => (unfold t; clear t))
                 | with_reducible apply State.runPassed_sound | with_reducible apply State.releaseEvent_sound
                 | with_reducible apply State.putEntry_sound | with_reducible apply State.confirmFault_sound
                 | with_reducible apply State.aryBump_sound | with_reducible apply State.raise_sound
                 | with_reducible apply Sound.ite | split)

theorem execTouchstoneRun_sound (core array index : Nat) (upset : List LaneUpset) (c : Cond) (s : State)
    (hg : s.Sound Q) : OutSound Q (execTouchstoneRun core array index upset c s) := by
  unfold execTouchstoneRun
  repeat' (first | with_reducible apply onUnit_sound | with_reducible assumption
                 | with_reducible apply touchstoneRun_sound)

theorem fltAryRel_sound (p : Path) (v : Word) (s : State) (hg : s.Sound Q) : (fltAryRel p v s).Sound Q := by
  unfold fltAryRel
  repeat' (first | with_reducible assumption | intro _ | with_reducible apply State.setArray_sound
                 | with_reducible apply State.reject_sound | with_reducible apply Sound.ite | split)

theorem execFltAryRel_sound (p : Path) (v : Word) (s : State) (hg : s.Sound Q) : OutSound Q
    (execFltAryRel p v s) := by
  unfold execFltAryRel
  repeat' (first | with_reducible apply ok_sound | with_reducible assumption | with_reducible apply fltAryRel_sound)

theorem execReleaseRunLapse_sound (core array : Nat) (s : State) (hg : s.Sound Q) : OutSound Q
    (execReleaseRunLapse core array s) := by
  unfold execReleaseRunLapse
  repeat' (first | with_reducible apply onUnit_sound | with_reducible assumption
                 | with_reducible apply State.releaseEvent_sound)

theorem faultWindowExpiry_sound (core a : Nat) (strike : Bool) (s : State) (hg : s.Sound Q) :
    (faultWindowExpiry core a strike s).Sound Q := by
  unfold faultWindowExpiry
  repeat' (first | with_reducible assumption | intro _ | with_reducible apply State.setStrikes_sound
                 | with_reducible apply State.setArray_sound | with_reducible apply State.setAryState_sound
                 | with_reducible apply Sound.ite | with_reducible exact Sound.parts (by with_reducible assumption)
                 | simp only [Sound_mk])

theorem execFaultWindowExpiry_sound (core array : Nat) (strike : Bool) (s : State) (hg : s.Sound Q) : OutSound Q
    (execFaultWindowExpiry core array strike s) := by
  unfold execFaultWindowExpiry
  repeat' (first | with_reducible apply onUnit_sound | with_reducible assumption
                 | with_reducible apply faultWindowExpiry_sound)

theorem contextRestore_sound (core : Nat) (s : State) (hg : s.Sound Q) : (contextRestore core s).Sound Q := by
  unfold contextRestore
  repeat' (first | with_reducible assumption | intro _
                 | (fail_if_no_progress extract_lets +onlyGivenNames t; refine (fun (ht : State.Sound Q t) => ?_) ?_; clear_value t; on_goal 2 => (unfold t; clear t))
                 | with_reducible apply State.resumeGroups_sound | with_reducible apply State.setCtxState_sound
                 | with_reducible apply State.stage_sound | with_reducible apply State.setCore_sound
                 | with_reducible apply State.setOp_sound | with_reducible apply State.wr_sound
                 | with_reducible apply Sound.forEach | with_reducible apply Sound.ite
                 | with_reducible exact Sound.parts (by with_reducible assumption) | split | simp only [Sound_mk])

theorem execContextRestore_sound (core : Nat) (s : State) (hg : s.Sound Q) : OutSound Q
    (execContextRestore core s) := by
  unfold execContextRestore
  repeat' (first | with_reducible apply onUnit_sound | with_reducible assumption
                 | with_reducible apply contextRestore_sound)

theorem idleTaper_sound (core : Nat) (s : State) (hg : s.Sound Q) : (idleTaper core s).Sound Q := by
  unfold idleTaper
  repeat' (first | with_reducible assumption | intro _ | with_reducible apply State.askGrant_sound
                 | with_reducible apply State.fillRows_sound | with_reducible apply State.setCore_sound
                 | with_reducible apply Sound.ite)

theorem execIdleTaper_sound (core : Nat) (s : State) (hg : s.Sound Q) : OutSound Q (execIdleTaper core s) := by
  unfold execIdleTaper
  repeat' (first | with_reducible apply onUnit_sound | with_reducible assumption
                 | with_reducible apply idleTaper_sound)

/-! ## Engines -/

theorem State.putItem_sound (s : State) (sid op : Nat) (i : WorkItem) (hg : s.Sound Q) :
    (State.putItem s sid op i).Sound Q := by
  unfold State.putItem
  repeat' (first | with_reducible assumption | with_reducible apply State.setOp_sound)

theorem State.takeItem_sound (s : State) (sid e : Nat) (x : Nat × WorkItem) (hg : s.Sound Q) :
    (State.takeItem s sid e x).Sound Q := by
  unfold State.takeItem
  repeat' (first | with_reducible assumption | with_reducible apply State.putItem_sound)

theorem State.ownTake_sound (s : State) (sid cls e : Nat) (hg : s.Sound Q) : (State.ownTake s sid cls e).Sound Q := by
  unfold State.ownTake
  repeat' (first | with_reducible assumption | intro _ | with_reducible apply State.takeItem_sound
                 | with_reducible apply Sound.ite | split)

theorem State.steal_sound (s : State) (sid cls e : Nat) (hg : s.Sound Q) : (State.steal s sid cls e).Sound Q := by
  unfold State.steal
  repeat' (first | with_reducible assumption | intro _ | with_reducible apply State.takeItem_sound
                 | with_reducible apply State.bump_sound | with_reducible apply Sound.ite | split
                 | simp only [Sound_mk])

theorem State.engineRound_sound (s : State) (sid cls : Nat) (hg : s.Sound Q) :
    (State.engineRound s sid cls).Sound Q := by
  unfold State.engineRound
  repeat' (first | with_reducible assumption | intro _ | with_reducible apply State.steal_sound
                 | with_reducible apply State.ownTake_sound | with_reducible apply Sound.forEach)

theorem State.deal_sound (s : State) (sid : Nat) (o : Op) (hg : s.Sound Q) : (State.deal s sid o).Sound Q := by
  unfold State.deal
  repeat' (first | with_reducible assumption | intro _ | with_reducible apply State.engineRound_sound
                 | with_reducible apply State.setOp_sound | with_reducible apply Sound.ite)

theorem engineStart_sound (sid op cls code : Nat) (s : State) (hg : s.Sound Q) :
    (engineStart sid op cls code s).Sound Q := by
  unfold engineStart
  repeat' (first | with_reducible assumption | intro _ | with_reducible apply State.deal_sound
                 | with_reducible apply State.begin'_sound | with_reducible apply Sound.ite | split)

theorem execCopy_sound (sid op : Nat) (s : State) (hg : s.Sound Q) : OutSound Q (execCopy sid op s) := by
  unfold execCopy
  repeat' (first | with_reducible apply onUnit_sound | with_reducible assumption
                 | with_reducible apply engineStart_sound)

theorem execZero_sound (sid op : Nat) (s : State) (hg : s.Sound Q) : OutSound Q (execZero sid op s) := by
  unfold execZero
  repeat' (first | with_reducible apply onUnit_sound | with_reducible assumption
                 | with_reducible apply engineStart_sound)

theorem execGather_sound (sid op : Nat) (s : State) (hg : s.Sound Q) : OutSound Q (execGather sid op s) := by
  unfold execGather
  repeat' (first | with_reducible apply onUnit_sound | with_reducible assumption
                 | with_reducible apply engineStart_sound)

theorem execScatter_sound (sid op : Nat) (s : State) (hg : s.Sound Q) : OutSound Q (execScatter sid op s) := by
  unfold execScatter
  repeat' (first | with_reducible apply onUnit_sound | with_reducible assumption
                 | with_reducible apply engineStart_sound)

theorem execScatterAdd_sound (sid op : Nat) (s : State) (hg : s.Sound Q) : OutSound Q (execScatterAdd sid op s) := by
  unfold execScatterAdd
  repeat' (first | with_reducible apply onUnit_sound | with_reducible assumption
                 | with_reducible apply engineStart_sound)

theorem execSwage_sound (sid op : Nat) (s : State) (hg : s.Sound Q) : OutSound Q (execSwage sid op s) := by
  unfold execSwage
  repeat' (first | with_reducible apply onUnit_sound | with_reducible assumption
                 | with_reducible apply engineStart_sound)

theorem execTranspose_sound (sid op : Nat) (s : State) (hg : s.Sound Q) : OutSound Q (execTranspose sid op s) := by
  unfold execTranspose
  repeat' (first | with_reducible apply onUnit_sound | with_reducible assumption
                 | with_reducible apply engineStart_sound)

theorem execShake_sound (sid op : Nat) (s : State) (hg : s.Sound Q) : OutSound Q (execShake sid op s) := by
  unfold execShake
  repeat' (first | with_reducible apply onUnit_sound | with_reducible assumption
                 | with_reducible apply engineStart_sound)

theorem execCrc_sound (sid op : Nat) (s : State) (hg : s.Sound Q) : OutSound Q (execCrc sid op s) := by
  unfold execCrc
  repeat' (first | with_reducible apply onUnit_sound | with_reducible assumption
                 | with_reducible apply engineStart_sound)

theorem execVerify_sound (sid op : Nat) (s : State) (hg : s.Sound Q) : OutSound Q (execVerify sid op s) := by
  unfold execVerify
  repeat' (first | with_reducible apply onUnit_sound | with_reducible assumption
                 | with_reducible apply engineStart_sound)

theorem execSort_sound (sid op : Nat) (s : State) (hg : s.Sound Q) : OutSound Q (execSort sid op s) := by
  unfold execSort
  repeat' (first | with_reducible apply onUnit_sound | with_reducible assumption
                 | with_reducible apply engineStart_sound)

theorem execMerge_sound (sid op : Nat) (s : State) (hg : s.Sound Q) : OutSound Q (execMerge sid op s) := by
  unfold execMerge
  repeat' (first | with_reducible apply onUnit_sound | with_reducible assumption
                 | with_reducible apply engineStart_sound)

theorem execReduce_sound (sid op : Nat) (s : State) (hg : s.Sound Q) : OutSound Q (execReduce sid op s) := by
  unfold execReduce
  repeat' (first | with_reducible apply onUnit_sound | with_reducible assumption
                 | with_reducible apply engineStart_sound)

theorem execBroadcast_sound (sid op : Nat) (s : State) (hg : s.Sound Q) : OutSound Q (execBroadcast sid op s) := by
  unfold execBroadcast
  repeat' (first | with_reducible apply onUnit_sound | with_reducible assumption
                 | with_reducible apply engineStart_sound)

theorem execNodeAdd_sound (sid op : Nat) (s : State) (hg : s.Sound Q) : OutSound Q (execNodeAdd sid op s) := by
  unfold execNodeAdd
  repeat' (first | with_reducible apply onUnit_sound | with_reducible assumption
                 | with_reducible apply engineStart_sound)

theorem State.xrepDone_sound (s : State) (sid : Nat) (o : Op) (hg : s.Sound Q) :
    (State.xrepDone s sid o).Sound Q := by
  unfold State.xrepDone
  repeat' (first | with_reducible assumption | intro _ | with_reducible apply State.capture_sound
                 | with_reducible apply State.suspectDie_sound | with_reducible apply State.raisePlan_sound
                 | with_reducible apply State.setRec_sound | with_reducible apply State.setSlot_sound
                 | with_reducible apply Sound.forEach | with_reducible apply Sound.ite | split
                 | simp only [Sound_mk])

theorem State.writeItem_sound (s : State) (sid : Nat) (o : Op) (i : Nat) (hg : s.Sound Q) :
    (State.writeItem s sid o i).1.Sound Q := by
  unfold State.writeItem
  repeat' (first | with_reducible assumption | intro _ | with_reducible apply State.putAt_sound
                 | with_reducible apply State.markLines_sound | with_reducible apply Sound.forEach
                 | with_reducible apply Sound.ite)

theorem engineItemComplete_sound (sid op item e : Nat) (disagree : Bool) (s : State) (hg : s.Sound Q) :
    (engineItemComplete sid op item e disagree s).Sound Q := by
  unfold engineItemComplete
  repeat' (first | with_reducible assumption | intro _
                 | (fail_if_no_progress extract_lets +onlyGivenNames t; refine (fun (ht : State.Sound Q t) => ?_) ?_; clear_value t; on_goal 2 => (unfold t; clear t))
                 | with_reducible apply State.writeItem_sound | with_reducible apply State.xrepDone_sound
                 | with_reducible apply State.engineRound_sound | with_reducible apply State.finish_sound
                 | with_reducible apply State.raise_sound | with_reducible apply State.setOp_sound
                 | with_reducible apply State.bump_sound | with_reducible apply Sound.ite
                 | with_reducible exact Sound.parts (by with_reducible assumption)
                 | with_reducible apply Sound.parts | split | simp only [Sound_mk])

theorem execEngineItemComplete_sound (sid op item engine : Nat) (disagree : Bool) (s : State)
    (hg : s.Sound Q) : OutSound Q (execEngineItemComplete sid op item engine disagree s) := by
  unfold execEngineItemComplete
  repeat' (first | with_reducible apply onUnit_sound | with_reducible assumption
                 | with_reducible apply engineItemComplete_sound)

theorem State.redeal_sound (s : State) (sid cls : Nat) (gone : List Nat) (hg : s.Sound Q) :
    (State.redeal s sid cls gone).Sound Q := by
  unfold State.redeal
  repeat' (first | with_reducible assumption | intro _ | with_reducible apply State.engineRound_sound
                 | with_reducible apply State.putItem_sound | with_reducible apply State.setOp_sound
                 | with_reducible apply State.bump_sound | with_reducible apply Sound.forEach)

theorem engSvcWrite_sound (p : Path) (die : Nat) (v : Word) (s : State) (hg : s.Sound Q) :
    (engSvcWrite p die v s).Sound Q := by
  unfold engSvcWrite
  repeat' (first | with_reducible assumption | intro _ | with_reducible apply State.redeal_sound
                 | with_reducible apply State.moveSlot_sound | with_reducible apply State.reject_sound
                 | with_reducible apply State.wr_sound | with_reducible apply Sound.forEach
                 | with_reducible apply Sound.ite | split | simp only [Sound_mk])

theorem execEngSvcWrite_sound (p : Path) (die : Nat) (v : Word) (s : State) (hg : s.Sound Q) : OutSound Q
    (execEngSvcWrite p die v s) := by
  unfold execEngSvcWrite
  repeat' (first | with_reducible apply onUnit_sound | with_reducible assumption | intro _
                 | with_reducible apply engSvcWrite_sound | with_reducible apply Sound.ite)

/-! ## Transfer -/

theorem put_sound (sid op : Nat) (s : State) (hg : s.Sound Q) : (put sid op s).Sound Q := by
  unfold put
  repeat' (first | with_reducible assumption | intro _ | with_reducible apply State.finish_sound
                 | with_reducible apply State.begin'_sound | with_reducible apply State.progress_sound
                 | with_reducible apply State.keepCarry_sound | with_reducible apply State.sendPut_sound
                 | with_reducible apply State.setRec_sound | with_reducible apply Sound.ite | split
                 | simp only [Sound_mk])

theorem execPut_sound (sid op : Nat) (s : State) (hg : s.Sound Q) : OutSound Q (execPut sid op s) := by
  unfold execPut
  repeat' (first | with_reducible apply onUnit_sound | with_reducible assumption | with_reducible apply put_sound)

theorem get_sound (sid op : Nat) (s : State) (hg : s.Sound Q) : (get sid op s).Sound Q := by
  unfold get
  repeat' (first | with_reducible assumption | intro _ | with_reducible apply State.finish_sound
                 | with_reducible apply State.begin'_sound | with_reducible apply State.request_sound
                 | with_reducible apply Sound.forEach | with_reducible apply Sound.ite
                 | with_reducible apply Sound.parts | split | simp only [Sound_mk])

theorem execGet_sound (sid op : Nat) (s : State) (hg : s.Sound Q) : OutSound Q (execGet sid op s) := by
  unfold execGet
  repeat' (first | with_reducible apply onUnit_sound | with_reducible assumption | with_reducible apply get_sound)

theorem State.resliced_sound (s : State) (used : List Nat) (hg : s.Sound Q) : (State.resliced s used).Sound Q := by
  unfold State.resliced
  repeat' (first | with_reducible assumption | intro _ | with_reducible apply Sound.forEach
                 | with_reducible exact Sound.parts (by with_reducible assumption) | simp only [Sound_mk])

theorem reslice_sound (sid op : Nat) (s : State) (hg : s.Sound Q) : (reslice sid op s).Sound Q := by
  unfold reslice
  repeat' (first | with_reducible assumption | intro _ | with_reducible apply State.resliced_sound
                 | with_reducible apply State.finish_sound | with_reducible apply State.begin'_sound
                 | with_reducible apply State.badBay_sound | with_reducible apply State.tileSeal_sound
                 | with_reducible apply State.writeLoc_sound | with_reducible apply State.raiseAs_sound
                 | with_reducible apply Sound.forEach | with_reducible apply Sound.forN
                 | with_reducible apply Sound.ite | split | simp only [Sound_mk])

theorem execReslice_sound (sid op : Nat) (s : State) (hg : s.Sound Q) : OutSound Q (execReslice sid op s) := by
  unfold execReslice
  repeat' (first | with_reducible apply onUnit_sound | with_reducible assumption | with_reducible apply reslice_sound)

theorem farStart_sound (sid op code : Nat) (s : State) (hg : s.Sound Q) : (farStart sid op code s).Sound Q := by
  unfold farStart
  repeat' (first | with_reducible assumption | intro _
                 | (fail_if_no_progress extract_lets +onlyGivenNames t; refine (fun (ht : State.Sound Q t) => ?_) ?_; clear_value t; on_goal 2 => (unfold t; clear t))
                 | with_reducible apply engineStart_sound | with_reducible apply State.farFail_sound
                 | with_reducible apply Sound.ite | with_reducible exact Sound.parts (by with_reducible assumption)
                 | split | simp only [Sound_mk])

theorem execFarRead_sound (sid op : Nat) (s : State) (hg : s.Sound Q) : OutSound Q (execFarRead sid op s) := by
  unfold execFarRead
  repeat' (first | with_reducible apply onUnit_sound | with_reducible assumption
                 | with_reducible apply farStart_sound)

theorem execFarWrite_sound (sid op : Nat) (s : State) (hg : s.Sound Q) : OutSound Q (execFarWrite sid op s) := by
  unfold execFarWrite
  repeat' (first | with_reducible apply onUnit_sound | with_reducible assumption
                 | with_reducible apply farStart_sound)

/-! ## Steps -/

theorem State.declareDie_sound (s : State) (die : Nat) (on : Bool) (hg : s.Sound Q) :
    (State.declareDie s die on).Sound Q := by
  unfold State.declareDie
  repeat' (first | with_reducible assumption | intro _ | with_reducible apply State.setDeclared_sound
                 | with_reducible apply Sound.forN | with_reducible apply Sound.ite)

theorem State.withGen_sound (s : State) (sid gen : Nat) (hg : s.Sound Q) : (State.withGen s sid gen).Sound Q := by
  unfold State.withGen
  repeat' (first | with_reducible assumption | with_reducible apply State.setSlot_sound)

theorem State.fetchFrozen_sound (s : State) (sid : Nat) (t : Tensor) (hg : s.Sound Q) :
    (State.fetchFrozen s sid t).Sound Q := by
  unfold State.fetchFrozen
  repeat' (first | with_reducible assumption | intro _ | with_reducible apply State.tileSeal_sound
                 | with_reducible apply State.writeLoc_sound | with_reducible apply Sound.forN
                 | with_reducible exact Sound.parts (by with_reducible assumption) | simp only [Sound_mk])

theorem State.checkFrozen_sound (s : State) (sid : Nat) (n : Step) (t : Tensor) (hg : s.Sound Q) :
    (State.checkFrozen s sid n t).1.Sound Q := by
  unfold State.checkFrozen
  repeat' (first | with_reducible assumption
                 | (fail_if_no_progress extract_lets +onlyGivenNames t; refine (fun (ht : State.Sound Q t) => ?_) ?_; clear_value t; on_goal 2 => (unfold t; clear t))
                 | with_reducible apply State.fetchFrozen_sound | with_reducible apply State.raise_sound
                 | with_reducible apply State.event_sound | split)

theorem State.checkAllFrozen_sound (s : State) (sid : Nat) (n : Step) (hg : s.Sound Q) :
    (State.checkAllFrozen s sid n).1.Sound Q := by
  unfold State.checkAllFrozen
  repeat' (first | with_reducible assumption | intro _ | with_reducible apply State.checkFrozen_sound
                 | with_reducible apply State.setSlot_sound | with_reducible apply Sound.foldl1 | split)

theorem State.arraysAtBoundary_sound (s : State) (die bin : Nat) (hg : s.Sound Q) :
    (State.arraysAtBoundary s die bin).Sound Q := by
  unfold State.arraysAtBoundary
  repeat' (first | with_reducible assumption | intro _ | with_reducible apply State.mapBack_sound
                 | with_reducible apply State.mapToStandby_sound | with_reducible apply State.setArray_sound
                 | with_reducible apply State.excludeBin_sound | with_reducible apply Sound.forN
                 | with_reducible apply Sound.ite)

theorem State.takeSwap_sound (s : State) (sid : Nat) (n : Step) (hg : s.Sound Q) :
    (State.takeSwap s sid n).Sound Q := by
  unfold State.takeSwap
  repeat' (first | with_reducible assumption | intro _
                 | (fail_if_no_progress extract_lets +onlyGivenNames t; refine (fun (ht : State.Sound Q t) => ?_) ?_; clear_value t; on_goal 2 => (unfold t; clear t))
                 | with_reducible apply State.retireGen_sound | with_reducible apply State.exchangeSets_sound
                 | with_reducible apply State.takeXlat_sound | with_reducible apply Sound.ite
                 | with_reducible exact Sound.parts (by with_reducible assumption) | split | simp only [Sound_mk])

theorem State.recordOpen_sound (s : State) (sid gen : Nat) (n : Step) (hg : s.Sound Q) :
    (State.recordOpen s sid gen n).Sound Q := by
  unfold State.recordOpen
  repeat' (first | with_reducible assumption
                 | (fail_if_no_progress extract_lets +onlyGivenNames t; refine (fun (ht : State.Sound Q t) => ?_) ?_; clear_value t; on_goal 2 => (unfold t; clear t))
                 | with_reducible apply State.newRec_sound | with_reducible apply State.setRec_sound
                 | with_reducible exact Sound.parts (by with_reducible assumption) | split | simp only [Sound_mk])

theorem State.issueDefers_sound (s : State) (n : Step) (hg : s.Sound Q) : (State.issueDefers s n).Sound Q := by
  unfold State.issueDefers
  repeat' (first | with_reducible assumption | intro _ | with_reducible apply State.ledgerMsg_sound
                 | with_reducible apply Sound.forEach | with_reducible apply Sound.ite)

theorem State.openDeferrals_sound (s : State) (sid : Nat) (n : Step) (hg : s.Sound Q) :
    (State.openDeferrals s sid n).Sound Q := by
  unfold State.openDeferrals
  repeat' (first | with_reducible assumption | intro _ | with_reducible apply State.deferOp_sound
                 | with_reducible apply State.deferObj_sound | with_reducible apply Sound.forEach
                 | with_reducible apply Sound.ite | split)

theorem State.reopenStep_sound (s : State) (sid : Nat) (hg : s.Sound Q) : (State.reopenStep s sid).Sound Q := by
  unfold State.reopenStep
  repeat' (first | with_reducible apply State.creditSource_sound | with_reducible apply State.armObjs_sound
                 | with_reducible apply State.treeSend_sound
                 | with_reducible exact Sound.parts (by with_reducible assumption) | simp only [Sound_mk])

theorem State.enterStep_sound (s : State) (sid gen : Nat) (n : Step) (hg : s.Sound Q) :
    (State.enterStep s sid gen n).Sound Q := by
  unfold State.enterStep
  repeat' (first | with_reducible assumption | intro _ | with_reducible apply State.reopenStep_sound
                 | with_reducible apply State.openDeferrals_sound | with_reducible apply State.issueDefers_sound
                 | with_reducible apply State.recordOpen_sound | with_reducible apply State.declareDie_sound
                 | with_reducible apply State.armObjs_sound | with_reducible apply State.setSlot_sound
                 | with_reducible apply State.bump_sound | with_reducible apply Sound.ite)

theorem State.boundary_sound (s : State) (sid : Nat) (n : Step) (hg : s.Sound Q) :
    (State.boundary s sid n).Sound Q := by
  unfold State.boundary
  repeat' (first | with_reducible assumption | intro _ | with_reducible apply State.takeSwap_sound
                 | with_reducible apply State.takeSettings_sound | with_reducible apply State.xlatNear_sound
                 | with_reducible apply State.slotPages_sound | with_reducible apply State.pagesRefused_sound
                 | with_reducible apply rewiden_sound | with_reducible apply Sound.ite)

theorem State.atBin_sound (s : State) (sid gen : Nat) (hg : s.Sound Q) : (State.atBin s sid gen).Sound Q := by
  unfold State.atBin
  repeat' (first | with_reducible assumption | intro _ | with_reducible apply State.arraysAtBoundary_sound
                 | with_reducible apply Sound.ite)

theorem State.refit_sound (s : State) (sid gen : Nat) (hg : s.Sound Q) : (State.refit s sid gen).Sound Q := by
  unfold State.refit
  repeat' (first | with_reducible assumption | intro _ | with_reducible apply State.atBin_sound
                 | with_reducible apply State.moveSlot_sound | with_reducible apply Sound.ite)

theorem stepOpen_sound (sid : Nat) (s : State) (hg : s.Sound Q) : (stepOpen sid s).Sound Q := by
  unfold stepOpen
  repeat' (first | with_reducible assumption | intro _
                 | (fail_if_no_progress extract_lets +onlyGivenNames t; refine (fun (ht : State.Sound Q t) => ?_) ?_; clear_value t; on_goal 2 => (unfold t; clear t))
                 | with_reducible apply State.refit_sound | with_reducible apply State.atBin_sound
                 | with_reducible apply State.boundary_sound | with_reducible apply State.enterStep_sound
                 | with_reducible apply State.checkAllFrozen_sound | with_reducible apply State.withGen_sound
                 | with_reducible apply State.declareDie_sound | with_reducible apply State.askReload_sound
                 | with_reducible apply Sound.forEach | with_reducible apply Sound.ite)

theorem execStepOpen_sound (sid : Nat) (s : State) (hg : s.Sound Q) : OutSound Q (execStepOpen sid s) := by
  unfold execStepOpen
  repeat' (first | with_reducible apply onUnit_sound | with_reducible assumption
                 | with_reducible apply stepOpen_sound)

theorem State.setBin_sound (s : State) (die bin : Nat) (hg : s.Sound Q) : (State.setBin s die bin).Sound Q := by
  unfold State.setBin
  repeat' (first | with_reducible exact Sound.parts (by with_reducible assumption) | simp only [Sound_mk])

theorem binChange_sound (die : Nat) (s : State) (hg : s.Sound Q) : (binChange die s).Sound Q := by
  unfold binChange
  repeat' (first | with_reducible assumption | intro _ | with_reducible apply State.setBin_sound
                 | with_reducible apply State.excludeBin_sound | with_reducible apply State.command_sound
                 | with_reducible apply Sound.ite | split)

theorem execBinChange_sound (die : Nat) (s : State) (hg : s.Sound Q) : OutSound Q (execBinChange die s) := by
  unfold execBinChange
  repeat' (first | with_reducible apply onUnit_sound | with_reducible assumption
                 | with_reducible apply binChange_sound)

theorem syncOp_sound (sid op : Nat) (s : State) (hg : s.Sound Q) : (syncOp sid op s).Sound Q := by
  unfold syncOp
  repeat' (first | with_reducible assumption | intro _ | with_reducible apply State.finish_sound
                 | with_reducible apply State.begin'_sound | with_reducible apply Sound.ite | split)

theorem waitDeclared_sound (sid op : Nat) (s : State) (hg : s.Sound Q) : (waitDeclared sid op s).Sound Q := by
  unfold waitDeclared
  repeat' (first | with_reducible assumption | intro _ | with_reducible apply State.finish_sound
                 | with_reducible apply State.begin'_sound | with_reducible apply State.setDeclared_sound
                 | with_reducible apply Sound.ite | split)

theorem execSync_sound (sid op : Nat) (s : State) (hg : s.Sound Q) : OutSound Q (execSync sid op s) := by
  unfold execSync
  repeat' (first | with_reducible apply onUnit_sound | with_reducible assumption | with_reducible apply syncOp_sound)

theorem execWaitDeclared_sound (sid op : Nat) (s : State) (hg : s.Sound Q) : OutSound Q
    (execWaitDeclared sid op s) := by
  unfold execWaitDeclared
  repeat' (first | with_reducible apply onUnit_sound | with_reducible assumption
                 | with_reducible apply waitDeclared_sound)

theorem undeclaredLimit_sound (core : Nat) (s : State) (hg : s.Sound Q) : (undeclaredLimit core s).Sound Q := by
  unfold undeclaredLimit
  repeat' (first | with_reducible assumption | intro _ | with_reducible apply State.setDeclared_sound
                 | with_reducible apply Sound.ite | split)

theorem execUndeclaredWaitLimit_sound (core : Nat) (s : State) (hg : s.Sound Q) : OutSound Q
    (execUndeclaredWaitLimit core s) := by
  unfold execUndeclaredWaitLimit
  repeat' (first | with_reducible apply onUnit_sound | with_reducible assumption
                 | with_reducible apply undeclaredLimit_sound)

theorem State.addSuspect_sound (s : State) (sid op : Nat) (hg : s.Sound Q) : (State.addSuspect s sid op).Sound Q := by
  unfold State.addSuspect
  repeat' (first | with_reducible assumption | intro _ | with_reducible apply Sound.ite
                 | with_reducible exact Sound.parts (by with_reducible assumption) | simp only [Sound_mk])

theorem budgetOverrun_sound (sid op : Nat) (s : State) (hg : s.Sound Q) : (budgetOverrun sid op s).Sound Q := by
  unfold budgetOverrun
  repeat' (first | with_reducible assumption | intro _ | with_reducible apply State.addSuspect_sound
                 | with_reducible apply State.raise_sound | with_reducible apply State.setOp_sound
                 | with_reducible apply Sound.ite | split)

theorem execBudgetOverrun_sound (sid op : Nat) (s : State) (hg : s.Sound Q) : OutSound Q
    (execBudgetOverrun sid op s) := by
  unfold execBudgetOverrun
  repeat' (first | with_reducible apply onUnit_sound | with_reducible assumption
                 | with_reducible apply budgetOverrun_sound)

theorem waitExpiry_sound (sid op : Nat) (s : State) (hg : s.Sound Q) : (waitExpiry sid op s).Sound Q := by
  unfold waitExpiry
  repeat' (first | with_reducible assumption | intro _ | with_reducible apply State.addSuspect_sound
                 | with_reducible apply Sound.ite | split)

theorem execWaitMsExpiry_sound (sid op : Nat) (s : State) (hg : s.Sound Q) : OutSound Q
    (execWaitMsExpiry sid op s) := by
  unfold execWaitMsExpiry
  repeat' (first | with_reducible apply onUnit_sound | with_reducible assumption
                 | with_reducible apply waitExpiry_sound)

theorem State.closePartition_sound (s : State) (part : Nat) (hg : s.Sound Q) :
    (State.closePartition s part).Sound Q := by
  unfold State.closePartition
  repeat' (first | with_reducible exact Sound.parts (by with_reducible assumption) | simp only [Sound_mk])

theorem State.passBoundary_sound (s : State) (sid op : Nat) (hg : s.Sound Q) :
    (State.passBoundary s sid op).Sound Q := by
  unfold State.passBoundary
  repeat' (first | with_reducible assumption | intro _ | with_reducible apply State.closePartition_sound
                 | with_reducible apply State.progress_sound | with_reducible apply State.idleObjs_sound
                 | with_reducible apply State.setRec_sound | with_reducible apply State.setOp_sound
                 | with_reducible apply State.setSlot_sound | with_reducible apply Sound.ite
                 | with_reducible apply Sound.parts | split | simp only [Sound_mk])

theorem stepEndAudit_sound (sid op : Nat) (s : State) (hg : s.Sound Q) : (stepEndAudit sid op s).Sound Q := by
  unfold stepEndAudit
  repeat' (first | with_reducible assumption | intro _ | with_reducible apply State.passBoundary_sound
                 | with_reducible apply State.begin'_sound | with_reducible apply State.issue_sound
                 | with_reducible apply State.syncFault_sound | with_reducible apply State.raisePlan_sound
                 | with_reducible apply Sound.ite | split)

theorem execStepEndAudit_sound (sid op : Nat) (s : State) (hg : s.Sound Q) : OutSound Q
    (execStepEndAudit sid op s) := by
  unfold execStepEndAudit
  repeat' (first | with_reducible apply onUnit_sound | with_reducible assumption
                 | with_reducible apply stepEndAudit_sound)

theorem State.replayProducer_sound (s : State) (sid : Nat) (t : Tensor) (hg : s.Sound Q) :
    (State.replayProducer s sid t).Sound Q := by
  unfold State.replayProducer
  repeat' (first | with_reducible assumption | intro _ | with_reducible apply State.replaySlot_sound
                 | with_reducible apply Sound.ite)

theorem State.hallmarkFail_sound (s : State) (sid : Nat) (o : Op) (t : Tensor) (tile : Nat) (hg : s.Sound Q) :
    (State.hallmarkFail s sid o t tile).Sound Q := by
  unfold State.hallmarkFail
  repeat' (first | with_reducible assumption | intro _
                 | (fail_if_no_progress extract_lets +onlyGivenNames t; refine (fun (ht : State.Sound Q t) => ?_) ?_; clear_value t; on_goal 2 => (unfold t; clear t))
                 | with_reducible apply State.replayProducer_sound | with_reducible apply State.checkFrozen_sound
                 | with_reducible apply restoreWrite_sound | with_reducible apply State.raiseAs_sound
                 | with_reducible apply State.stopSlot_sound | with_reducible apply State.replayModule_sound
                 | with_reducible apply State.collect_sound | with_reducible apply State.setSlot_sound
                 | with_reducible apply Sound.ite)

theorem hallmarkReread_sound (sid op i tile : Nat) (second : List Byte) (s : State) (hg : s.Sound Q) :
    (hallmarkReread sid op i tile second s).Sound Q := by
  unfold hallmarkReread
  repeat' (first | with_reducible assumption | intro _ | with_reducible apply State.hallmarkFail_sound
                 | with_reducible apply State.refetch_sound | with_reducible apply State.writeLoc_sound
                 | with_reducible apply State.rung7_sound | with_reducible apply State.raise_sound
                 | with_reducible apply State.raiseAs_sound | with_reducible apply Sound.ite | split)

theorem execHallmarkReread_sound (sid op operand tile : Nat) (second : List Byte) (s : State)
    (hg : s.Sound Q) : OutSound Q (execHallmarkReread sid op operand tile second s) := by
  unfold execHallmarkReread
  repeat' (first | with_reducible apply onUnit_sound | with_reducible assumption
                 | with_reducible apply hallmarkReread_sound)

end Sys2Proof.Machine
end

