-- ==== Sys2Proof/Laws/SoundStart.lean ====
section
/-!
SUPPORT. Every operation keeps a state sound and leaves its queue alone: boot, resets, thermal, start-up and faults.
-/

set_option maxRecDepth 20000

namespace Sys2Proof.Machine

variable {q Q : List Instr}

/-! ## Boot -/

theorem State.setMd_sound (s : State) (i : Nat) (m : MgmtDie) (hg : s.Sound Q) : (State.setMd s i m).Sound Q := by
  unfold State.setMd
  repeat' (first | with_reducible exact Sound.parts (by with_reducible assumption) | simp only [Sound_mk])

theorem State.eraseSlot_sound (s : State) (die slot : Nat) (hg : s.Sound Q) :
    (State.eraseSlot s die slot).Sound Q := by
  unfold State.eraseSlot
  repeat' (first | with_reducible assumption | with_reducible apply State.setMd_sound)

theorem State.bootMgmt_sound (s : State) (r : StartReport) (hg : s.Sound Q) : (State.bootMgmt s r).1.Sound Q := by
  unfold State.bootMgmt
  repeat' (first | with_reducible assumption | intro _ | with_reducible apply State.eraseSlot_sound
                 | with_reducible apply State.setMd_sound | with_reducible apply Sound.ite
                 | with_reducible apply Sound.parts | simp only [Sound_mk])

theorem State.programFuses_sound (s blown : State) (hg : s.Sound Q) (hg1 : blown.Sound Q) :
    (State.programFuses s blown).Sound Q := by
  unfold State.programFuses
  repeat' (first | intro _ | with_reducible apply State.raiseAs_sound | with_reducible apply Sound.ite
                 | with_reducible exact Sound.parts (by with_reducible assumption) | simp only [Sound_mk])

theorem State.blowArb_sound (s : State) (hg : s.Sound Q) : (State.blowArb s).Sound Q := by
  unfold State.blowArb
  repeat' (first | with_reducible assumption | intro _ | with_reducible apply State.programFuses_sound
                 | with_reducible apply Sound.ite | with_reducible exact Sound.parts (by with_reducible assumption)
                 | split | simp only [Sound_mk])

theorem State.showPair_sound (s : State) (p : FaultPair) (hg : s.Sound Q) : (State.showPair s p).Sound Q := by
  unfold State.showPair
  repeat' (first | with_reducible apply State.send_sound
                 | with_reducible exact Sound.parts (by with_reducible assumption) | simp only [Sound_mk])

theorem State.withdrawLight_sound (s : State) (keep : List Nat) (hg : s.Sound Q) :
    (State.withdrawLight s keep).Sound Q := by
  unfold State.withdrawLight
  repeat' (first | with_reducible assumption | intro _ | with_reducible apply State.lightLost_sound
                 | with_reducible apply State.send_sound | with_reducible apply Sound.forEach
                 | with_reducible exact Sound.parts (by with_reducible assumption) | simp only [Sound_mk])

theorem keepRegs_wfFrom (cold : Bool) {lo : Option Nat} {m : SMap Word} (h : SMap.wfFrom resetReg lo m = true) :
    SMap.wfFrom resetReg lo (keepRegs cold m) = true := by
  induction m generalizing lo with
  | nil => exact h
  | cons e m ih =>
    obtain ⟨k, v⟩ := e
    have h' := SMap.wfFrom_cons.1 h
    have ih' := ih h'.2.2
    have hc : keepRegs cold ((k, v) :: m)
        = if keepReg cold k v ≠ resetReg k then (k, keepReg cold k v) :: keepRegs cold m else keepRegs cold m := by
      unfold keepRegs
      rw [List.map_cons, List.filter_cons]
      simp only [decide_eq_true_eq]
    rw [hc]
    split
    · next hv => exact SMap.wfFrom_cons.2 ⟨h'.1, hv, ih'⟩
    · exact SMap.wfFrom_mono h'.1 ih'

theorem State.wipe_sound (s : State) (cold : Bool) (h : s.Sound Q) : (State.wipe s cold).Sound Q := by
  unfold State.wipe
  rw [Sound_mk]
  refine ⟨keepRegs_wfFrom cold h.1, ?_, h.2.2.1, ?_, h.2.2.2.2⟩
  on_goal 2 => first | rfl | exact h.2.2.2.1
  dsimp only
  split
  · rfl
  · exact h.2.1

theorem State.loseSection_sound (s : State) (i : Nat) (hg : s.Sound Q) : (State.loseSection s i).Sound Q := by
  unfold State.loseSection
  repeat' (first | with_reducible assumption | intro _
                 | (fail_if_no_progress extract_lets +onlyGivenNames t; refine (fun (ht : State.Sound Q t) => ?_) ?_; clear_value t; on_goal 2 => (unfold t; clear t))
                 | with_reducible apply State.dropRegs_sound | with_reducible apply Sound.ite
                 | with_reducible exact Sound.parts (by with_reducible assumption) | simp only [Sound_mk])

theorem State.loseSections_sound (s : State) (absent : Nat) (hg : s.Sound Q) :
    (State.loseSections s absent).Sound Q := by
  unfold State.loseSections
  repeat' (first | with_reducible assumption | intro _ | with_reducible apply State.loseSection_sound
                 | with_reducible apply Sound.forN | with_reducible apply Sound.ite)

theorem State.refuseSlot_sound (s : State) (sid : Nat) (hg : s.Sound Q) : (State.refuseSlot s sid).Sound Q := by
  unfold State.refuseSlot
  repeat' (first | with_reducible assumption | intro _ | with_reducible apply State.rung7_sound
                 | with_reducible apply State.event_sound | with_reducible apply State.setSlot_sound
                 | with_reducible apply Sound.ite)

theorem State.loseFar_sound (s : State) (xp : Nat) (hg : s.Sound Q) : (State.loseFar s xp).Sound Q := by
  unfold State.loseFar
  repeat' (first | with_reducible apply State.event_sound | with_reducible apply State.setField_sound
                 | with_reducible exact Sound.parts (by with_reducible assumption) | simp only [Sound_mk])

theorem State.revertUpdate_sound (s : State) (hg : s.Sound Q) : (State.revertUpdate s).Sound Q := by
  unfold State.revertUpdate
  repeat' (first | with_reducible assumption | with_reducible apply State.eraseSlot_sound
                 | with_reducible apply State.event_sound | with_reducible apply Sound.parts | simp only [Sound_mk])

theorem State.peripheralOut_sound (s : State) (die : Nat) (hg : s.Sound Q) : (State.peripheralOut s die).Sound Q := by
  unfold State.peripheralOut
  repeat' (first | with_reducible assumption | intro _
                 | (fail_if_no_progress extract_lets +onlyGivenNames t; refine (fun (ht : State.Sound Q t) => ?_) ?_; clear_value t; on_goal 2 => (unfold t; clear t))
                 | with_reducible apply State.revertUpdate_sound | with_reducible apply State.setMd_sound
                 | with_reducible apply State.setSvc_sound | with_reducible apply State.outOfService_sound
                 | with_reducible apply State.setField_sound | with_reducible apply Sound.ite
                 | with_reducible exact Sound.parts (by with_reducible assumption) | simp only [Sound_mk])

theorem State.leaveService_sound (s : State) (d : Domain) (hg : s.Sound Q) : (State.leaveService s d).Sound Q := by
  unfold State.leaveService
  repeat' (first | with_reducible assumption | intro _
                 | (fail_if_no_progress extract_lets +onlyGivenNames t; refine (fun (ht : State.Sound Q t) => ?_) ?_; clear_value t; on_goal 2 => (unfold t; clear t))
                 | with_reducible apply State.peripheralOut_sound | with_reducible apply State.loseFar_sound
                 | with_reducible apply State.refuseSlot_sound | with_reducible apply State.mapToStandby_sound
                 | with_reducible apply State.moveSlot_sound | with_reducible apply State.setAryState_sound
                 | with_reducible apply State.fence_sound | with_reducible apply State.dieLeaves_sound
                 | with_reducible apply State.outOfService_sound | with_reducible apply State.setField_sound
                 | with_reducible apply Sound.ite | split)

theorem State.assignSlots_sound (s : State) (hg : s.Sound Q) : (State.assignSlots s).Sound Q := by
  unfold State.assignSlots
  repeat' (first | with_reducible assumption | intro _ | with_reducible apply State.trainStack_sound
                 | with_reducible apply State.pdService_sound | with_reducible apply State.setPd_sound
                 | with_reducible apply State.setSvc_sound | with_reducible apply State.setField_sound
                 | with_reducible apply State.wr_sound | with_reducible apply Sound.forN
                 | with_reducible apply Sound.ite | with_reducible exact Sound.parts (by with_reducible assumption)
                 | simp only [Sound_mk])

theorem State.applyCables_sound (s : State) (enable : Bool) (hg : s.Sound Q) :
    (State.applyCables s enable).Sound Q := by
  unfold State.applyCables
  repeat' (first | with_reducible assumption | intro _ | with_reducible apply brzEnable_sound
                 | with_reducible apply State.wr_sound | with_reducible apply Sound.forN
                 | with_reducible apply Sound.ite)

theorem State.setStage_sound (s : State) (n : Nat) (hg : s.Sound Q) : (State.setStage s n).Sound Q := by
  unfold State.setStage
  repeat' (first | with_reducible assumption | with_reducible apply State.setField_sound)

theorem State.bootParts_sound (s : State) (r : StartReport) (hg : s.Sound Q) : (State.bootParts s r).Sound Q := by
  unfold State.bootParts
  repeat' (first | with_reducible assumption | intro _
                 | (fail_if_no_progress extract_lets +onlyGivenNames t; refine (fun (ht : State.Sound Q t) => ?_) ?_; clear_value t; on_goal 2 => (unfold t; clear t))
                 | with_reducible apply State.loseFar_sound | with_reducible apply State.fence_sound
                 | with_reducible apply State.dieLeaves_sound | with_reducible apply State.outOfService_sound
                 | with_reducible apply State.setPd_sound | with_reducible apply State.setSvc_sound
                 | with_reducible apply Sound.forEach | with_reducible apply Sound.ite
                 | with_reducible exact Sound.parts (by with_reducible assumption) | simp only [Sound_mk])

theorem State.bootLedger_sound (s : State) (r : StartReport) (hg : s.Sound Q) : (State.bootLedger s r).Sound Q := by
  unfold State.bootLedger
  repeat' (first | with_reducible assumption | intro _ | with_reducible apply State.setPd_sound
                 | with_reducible apply State.setSvc_sound | with_reducible apply State.wr_sound
                 | with_reducible apply Sound.forEach | with_reducible apply Sound.ite
                 | with_reducible exact Sound.parts (by with_reducible assumption) | split | simp only [Sound_mk])

theorem State.mgmtPair_sound (s : State) (hg : s.Sound Q) : (State.mgmtPair s).Sound Q := by
  unfold State.mgmtPair
  repeat' (first | with_reducible assumption | intro _ | with_reducible apply State.setPd_sound
                 | with_reducible apply State.setSvc_sound | with_reducible apply Sound.forEach
                 | with_reducible apply Sound.ite)

theorem State.bootFabric_sound (s : State) (r : StartReport) (hg : s.Sound Q) : (State.bootFabric s r).Sound Q := by
  unfold State.bootFabric
  repeat' (first | with_reducible assumption | intro _ | with_reducible apply State.switchRoutes_sound
                 | with_reducible apply State.setField_sound | with_reducible apply State.wr_sound
                 | with_reducible apply Sound.forN | with_reducible apply Sound.ite)

theorem State.bootDies_sound (s : State) (r : StartReport) (hg : s.Sound Q) : (State.bootDies s r).Sound Q := by
  unfold State.bootDies
  repeat' (first | with_reducible assumption | with_reducible apply State.bootFabric_sound
                 | with_reducible apply State.mgmtPair_sound | with_reducible apply State.bootLedger_sound
                 | with_reducible apply State.bootParts_sound)

theorem State.testFailed_sound (s : State) (core a : Nat) (hg : s.Sound Q) : (State.testFailed s core a).Sound Q := by
  unfold State.testFailed
  repeat' (first | with_reducible apply State.capture_sound | with_reducible apply State.confirmFault_sound
                 | with_reducible apply State.raise_sound
                 | with_reducible exact Sound.parts (by with_reducible assumption) | simp only [Sound_mk])

theorem State.memoryFailed_sound (s : State) (die m : Nat) (hg : s.Sound Q) :
    (State.memoryFailed s die m).Sound Q := by
  unfold State.memoryFailed
  repeat' (first | with_reducible assumption | intro _ | with_reducible apply State.raise_sound
                 | with_reducible apply Sound.ite)

theorem State.selfTest_sound (s : State) (r : StartReport) (force : Bool) (hg : s.Sound Q) :
    (State.selfTest s r force).Sound Q := by
  unfold State.selfTest
  repeat' (first | with_reducible assumption | intro _ | with_reducible apply State.memoryFailed_sound
                 | with_reducible apply State.testFailed_sound | with_reducible apply State.strike_sound
                 | with_reducible apply State.setField_sound | with_reducible apply Sound.forEach
                 | with_reducible apply Sound.ite | with_reducible exact Sound.parts (by with_reducible assumption)
                 | simp only [Sound_mk])

theorem State.remapArrays_sound (s : State) (hg : s.Sound Q) : (State.remapArrays s).Sound Q := by
  unfold State.remapArrays
  repeat' (first | with_reducible assumption | intro _
                 | (fail_if_no_progress extract_lets +onlyGivenNames t; refine (fun (ht : State.Sound Q t) => ?_) ?_; clear_value t; on_goal 2 => (unfold t; clear t))
                 | with_reducible apply State.mapToStandby_sound | with_reducible apply State.setAryState_sound
                 | with_reducible apply Sound.forN | with_reducible apply Sound.ite)

theorem State.enumerateFar_sound (s : State) (r : StartReport) (hg : s.Sound Q) :
    (State.enumerateFar s r).Sound Q := by
  unfold State.enumerateFar
  repeat' (first | with_reducible assumption | intro _ | with_reducible apply State.send_sound
                 | with_reducible apply State.wr_sound | with_reducible apply Sound.forN
                 | with_reducible apply Sound.ite | with_reducible apply Sound.parts | split | simp only [Sound_mk])

theorem State.beginScrub_sound (s : State) (hg : s.Sound Q) : (State.beginScrub s).Sound Q := by
  unfold State.beginScrub
  repeat' (first | with_reducible exact Sound.parts (by with_reducible assumption) | simp only [Sound_mk])

theorem State.openPorts_sound (s : State) (hg : s.Sound Q) : (State.openPorts s).Sound Q := by
  unfold State.openPorts
  repeat' (first | with_reducible assumption | with_reducible apply State.setStage_sound
                 | with_reducible apply State.applyCables_sound | with_reducible apply State.setCpStatus_sound)

theorem State.trainCp_sound (s : State) (hg : s.Sound Q) : (State.trainCp s).Sound Q := by
  unfold State.trainCp
  repeat' (first | with_reducible assumption | intro _
                 | (fail_if_no_progress extract_lets +onlyGivenNames t; refine (fun (ht : State.Sound Q t) => ?_) ?_; clear_value t; on_goal 2 => (unfold t; clear t))
                 | with_reducible apply State.goUp_sound | with_reducible apply State.requestLight_sound
                 | with_reducible apply State.setLaneMask_sound | with_reducible apply State.setPort_sound
                 | with_reducible apply Sound.forEach)

theorem State.checkCert_sound (s : State) (hg : s.Sound Q) : (State.checkCert s).Sound Q := by
  unfold State.checkCert
  repeat' (first | with_reducible assumption | intro _ | with_reducible apply State.raiseAs_sound
                 | with_reducible apply Sound.ite)

theorem State.boot_sound (s : State) (r : StartReport) (forceFull : Bool) (hg : s.Sound Q) :
    (State.boot s r forceFull).Sound Q := by
  unfold State.boot
  repeat' (first | with_reducible assumption | intro _
                 | (fail_if_no_progress extract_lets +onlyGivenNames t; refine (fun (ht : State.Sound Q t) => ?_) ?_; clear_value t; on_goal 2 => (unfold t; clear t))
                 | with_reducible apply State.checkCert_sound | with_reducible apply State.trainCp_sound
                 | with_reducible apply State.openPorts_sound | with_reducible apply State.beginScrub_sound
                 | with_reducible apply State.enumerateFar_sound | with_reducible apply State.remapArrays_sound
                 | with_reducible apply State.selfTest_sound | with_reducible apply State.bootDies_sound
                 | with_reducible apply State.setStage_sound | with_reducible apply State.applyCables_sound
                 | with_reducible apply State.assignSlots_sound | with_reducible apply State.showPair_sound
                 | with_reducible apply State.blowArb_sound | with_reducible apply State.bootMgmt_sound
                 | with_reducible apply State.showOut_sound | with_reducible apply State.ldgFault_sound
                 | with_reducible apply State.event_sound | with_reducible apply State.setField_sound
                 | with_reducible apply Sound.ite | split)

/-! ## Resets -/

theorem State.raiseTag_sound (s : State) (d : Domain) (hg : s.Sound Q) : (State.raiseTag s d).Sound Q := by
  unfold State.raiseTag
  repeat' (first | with_reducible assumption | intro _ | with_reducible apply State.setField_sound
                 | with_reducible apply Sound.forEach
                 | with_reducible exact Sound.parts (by with_reducible assumption) | split | simp only [Sound_mk])

theorem State.snapshot_sound (s : State) (d : Domain) (hg : s.Sound Q) : (State.snapshot s d).Sound Q := by
  unfold State.snapshot
  repeat' (first | with_reducible exact Sound.parts (by with_reducible assumption) | simp only [Sound_mk])

theorem State.widenSnap_sound (s : State) (d : Domain) (inner : List Domain) (hg : s.Sound Q) :
    (State.widenSnap s d inner).Sound Q := by
  unfold State.widenSnap
  repeat' (first | with_reducible exact Sound.parts (by with_reducible assumption) | simp only [Sound_mk])

theorem State.countReset_sound (s : State) (d : Domain) (hg : s.Sound Q) : (State.countReset s d).Sound Q := by
  unfold State.countReset
  repeat' (first | with_reducible exact Sound.parts (by with_reducible assumption) | simp only [Sound_mk])

theorem State.clearCore_sound (s : State) (core : Nat) (hg : s.Sound Q) : (State.clearCore s core).Sound Q := by
  unfold State.clearCore
  repeat' (first | with_reducible assumption | intro _ | with_reducible apply State.setDeclared_sound
                 | with_reducible apply State.setObj_sound | with_reducible apply Sound.forEach
                 | with_reducible apply Sound.ite | with_reducible exact Sound.parts (by with_reducible assumption)
                 | with_reducible apply Sound.parts | simp only [Sound_mk])

theorem State.clearDie_sound (s : State) (die : Nat) (h : s.Sound Q) : (State.clearDie s die).Sound Q := by
  have ht := State.dropObjs_sound _ die (Sound.forEach (coresOf die) (fun c t => t.clearCore c) (fun c t hc => State.clearCore_sound t c hc) h)
  unfold State.clearDie
  extract_lets t
  change t.Sound Q at ht
  clear_value t
  exact ⟨ht.1, ht.2.1, ht.2.2.1, Memory.wf_clear _ _ _ ht.2.2.2.1, ht.2.2.2.2⟩

theorem State.clearLinkDie_sound (s : State) (die : Nat) (hg : s.Sound Q) : (State.clearLinkDie s die).Sound Q := by
  unfold State.clearLinkDie
  repeat' (first | with_reducible exact Sound.parts (by with_reducible assumption) | simp only [Sound_mk])

theorem State.resetReplay_sound (s : State) (die : Nat) (tagNew takeover : Bool) (hg : s.Sound Q) :
    (State.resetReplay s die tagNew takeover).Sound Q := by
  unfold State.resetReplay
  repeat' (first | with_reducible assumption | intro _ | with_reducible apply State.replayModule_sound
                 | with_reducible apply State.replaySlot_sound | with_reducible apply State.noticeTag_sound
                 | with_reducible apply State.notice_sound | with_reducible apply State.setSlot_sound
                 | with_reducible apply Sound.ite | split)

theorem State.beginModule_sound (s : State) (hg : s.Sound Q) : (State.beginModule s).Sound Q := by
  unfold State.beginModule
  repeat' (first | with_reducible assumption | intro _
                 | (fail_if_no_progress extract_lets +onlyGivenNames t; refine (fun (ht : State.Sound Q t) => ?_) ?_; clear_value t; on_goal 2 => (unfold t; clear t))
                 | with_reducible apply State.setStage_sound | with_reducible apply State.wipe_sound
                 | with_reducible apply State.withdrawLight_sound | with_reducible apply State.showPair_sound
                 | with_reducible apply State.send_sound | with_reducible apply Sound.forN
                 | with_reducible exact Sound.parts (by with_reducible assumption) | simp only [Sound_mk])

theorem State.setCorePd_sound (s : State) (core v : Nat) (hg : s.Sound Q) : (State.setCorePd s core v).Sound Q := by
  unfold State.setCorePd
  repeat' (first | with_reducible assumption | intro _ | with_reducible apply State.setField_sound
                 | with_reducible apply Sound.forEach)

theorem State.resetBody_sound (s : State) (d : Domain) (tagNew takeover : Bool) (hg : s.Sound Q) :
    (State.resetBody s d tagNew takeover).Sound Q := by
  unfold State.resetBody
  repeat' (first | with_reducible assumption | intro _
                 | (fail_if_no_progress extract_lets +onlyGivenNames t; refine (fun (ht : State.Sound Q t) => ?_) ?_; clear_value t; on_goal 2 => (unfold t; clear t))
                 | with_reducible apply State.setCorePd_sound | with_reducible apply State.beginModule_sound
                 | with_reducible apply State.resetReplay_sound | with_reducible apply State.clearLinkDie_sound
                 | with_reducible apply State.clearDie_sound | with_reducible apply State.clearCore_sound
                 | with_reducible apply State.setMd_sound | with_reducible apply State.dropObjs_sound
                 | with_reducible apply State.portDown_sound | with_reducible apply State.portsDown_sound
                 | with_reducible apply State.send_sound | with_reducible apply State.setPd_sound
                 | with_reducible apply State.setSvc_sound | with_reducible apply State.setField_sound
                 | with_reducible apply Sound.forN | with_reducible apply Sound.ite
                 | with_reducible exact Sound.parts (by with_reducible assumption) | split | simp only [Sound_mk])

theorem State.beginReset_sound (s : State) (d : Domain) (hg : s.Sound Q) : (State.beginReset s d).Sound Q := by
  unfold State.beginReset
  repeat' (first | with_reducible assumption | intro _ | with_reducible apply State.resetBody_sound
                 | with_reducible apply State.countReset_sound | with_reducible apply State.widenSnap_sound
                 | with_reducible apply State.snapshot_sound | with_reducible apply State.raiseTag_sound
                 | with_reducible apply Sound.forEach | with_reducible apply Sound.ite
                 | with_reducible apply Sound.parts | split | simp only [Sound_mk])

theorem execArrayReset_sound (core a : Nat) (s : State) (hg : s.Sound Q) : OutSound Q (execArrayReset core a s) := by
  unfold execArrayReset
  repeat' (first | with_reducible apply onUnit_sound | with_reducible assumption
                 | with_reducible apply State.beginReset_sound)

theorem execCoreReset_sound (core : Nat) (s : State) (hg : s.Sound Q) : OutSound Q (execCoreReset core s) := by
  unfold execCoreReset
  repeat' (first | with_reducible apply onUnit_sound | with_reducible assumption
                 | with_reducible apply State.beginReset_sound)

theorem execStackPhyReset_sound (die : Nat) (s : State) (hg : s.Sound Q) : OutSound Q (execStackPhyReset die s) := by
  unfold execStackPhyReset
  repeat' (first | with_reducible apply onUnit_sound | with_reducible assumption
                 | with_reducible apply State.beginReset_sound)

theorem execDieReset_sound (die : Nat) (s : State) (hg : s.Sound Q) : OutSound Q (execDieReset die s) := by
  unfold execDieReset
  repeat' (first | with_reducible apply onUnit_sound | with_reducible assumption
                 | with_reducible apply State.beginReset_sound)

theorem execBrazePortReset_sound (port : Nat) (s : State) (hg : s.Sound Q) : OutSound Q
    (execBrazePortReset port s) := by
  unfold execBrazePortReset
  repeat' (first | with_reducible apply onUnit_sound | with_reducible assumption
                 | with_reducible apply State.beginReset_sound)

theorem execLinkDieReset_sound (die : Nat) (s : State) (hg : s.Sound Q) : OutSound Q (execLinkDieReset die s) := by
  unfold execLinkDieReset
  repeat' (first | with_reducible apply onUnit_sound | with_reducible assumption
                 | with_reducible apply State.beginReset_sound)

theorem execHubReset_sound (die : Nat) (s : State) (hg : s.Sound Q) : OutSound Q (execHubReset die s) := by
  unfold execHubReset
  repeat' (first | with_reducible apply onUnit_sound | with_reducible assumption
                 | with_reducible apply State.beginReset_sound)

theorem execModuleReset_sound (s : State) (hg : s.Sound Q) : OutSound Q (execModuleReset s) := by
  unfold execModuleReset
  repeat' (first | with_reducible apply ok_sound | with_reducible assumption
                 | with_reducible apply State.beginReset_sound)

theorem State.restartPage_sound (s : State) (die blk : Nat) (ro : List Nat) (hg : s.Sound Q) :
    (State.restartPage s die blk ro).Sound Q := by
  unfold State.restartPage
  repeat' (first | with_reducible assumption | intro _ | with_reducible apply State.dropRegs_sound
                 | with_reducible apply State.setReg_sound | with_reducible apply Sound.forEach)

theorem State.restartCore_sound (s : State) (core : Nat) (hg : s.Sound Q) : (State.restartCore s core).Sound Q := by
  unfold State.restartCore
  repeat' (first | with_reducible assumption | with_reducible apply State.restartPage_sound)

theorem State.unstop_sound (s : State) (die : Nat) (hg : s.Sound Q) : (State.unstop s die).Sound Q := by
  unfold State.unstop
  repeat' (first | with_reducible assumption | with_reducible apply State.setSlot_sound | split)

theorem State.restartPort_sound (s : State) (p : Nat) (hg : s.Sound Q) : (State.restartPort s p).Sound Q := by
  unfold State.restartPort
  repeat' (first | with_reducible assumption | intro _ | with_reducible apply brzEnable_sound
                 | with_reducible apply Sound.ite)

theorem State.completeBody_sound (s : State) (d : Domain) (hg : s.Sound Q) : (State.completeBody s d).Sound Q := by
  unfold State.completeBody
  repeat' (first | with_reducible assumption | intro _
                 | (fail_if_no_progress extract_lets +onlyGivenNames t; refine (fun (ht : State.Sound Q t) => ?_) ?_; clear_value t; on_goal 2 => (unfold t; clear t))
                 | with_reducible apply State.restartPort_sound | with_reducible apply State.unstop_sound
                 | with_reducible apply State.restartCore_sound | with_reducible apply State.restartPage_sound
                 | with_reducible apply State.setCorePd_sound | with_reducible apply State.boot_sound
                 | with_reducible apply State.setMd_sound | with_reducible apply State.wakeStack_sound
                 | with_reducible apply State.goUp_sound | with_reducible apply State.trainPorts_sound
                 | with_reducible apply State.send_sound | with_reducible apply State.pdService_sound
                 | with_reducible apply State.setPd_sound | with_reducible apply State.setSvc_sound
                 | with_reducible apply State.setField_sound | with_reducible apply State.wr_sound
                 | with_reducible apply Sound.forEach | with_reducible apply Sound.forN
                 | with_reducible apply Sound.ite | with_reducible exact Sound.parts (by with_reducible assumption)
                 | with_reducible apply Sound.parts | split | simp only [Sound_mk])

theorem completeReset_sound (d : Domain) (s : State) (hg : s.Sound Q) : (completeReset d s).Sound Q := by
  unfold completeReset
  repeat' (first | with_reducible assumption | intro _ | with_reducible apply State.completeBody_sound
                 | with_reducible apply Sound.ite | with_reducible exact Sound.parts (by with_reducible assumption)
                 | simp only [Sound_mk])

theorem execResetComplete_sound (d : DomainRef) (s : State) (hg : s.Sound Q) : OutSound Q
    (execResetComplete d s) := by
  unfold execResetComplete
  repeat' (first | with_reducible apply onUnit_sound | with_reducible assumption
                 | with_reducible apply completeReset_sound)

theorem State.pairOut_sound (s : State) (die : Nat) (hg : s.Sound Q) : (State.pairOut s die).Sound Q := by
  unfold State.pairOut
  repeat' (first | intro _ | with_reducible apply State.peripheralOut_sound | with_reducible apply State.raise_sound
                 | with_reducible apply Sound.ite | with_reducible exact Sound.parts (by with_reducible assumption)
                 | simp only [Sound_mk])

theorem resetWatchdog_sound (d : Domain) (s : State) (hg : s.Sound Q) : (resetWatchdog d s).Sound Q := by
  unfold resetWatchdog
  repeat' (first | with_reducible assumption | intro _ | with_reducible apply State.pairOut_sound
                 | with_reducible apply State.beginReset_sound | with_reducible apply State.leaveService_sound
                 | with_reducible apply State.showPair_sound | with_reducible apply State.fenceDie_sound
                 | with_reducible apply State.raise_sound | with_reducible apply State.raiseAs_sound
                 | with_reducible apply State.outOfService_sound | with_reducible apply Sound.ite
                 | with_reducible apply Sound.parts | split | simp only [Sound_mk])

theorem execResetWatchdog_sound (d : DomainRef) (s : State) (hg : s.Sound Q) : OutSound Q
    (execResetWatchdog d s) := by
  unfold execResetWatchdog
  repeat' (first | with_reducible apply onUnit_sound | with_reducible assumption
                 | with_reducible apply resetWatchdog_sound)

theorem rstLimitReached_sound (d : Domain) (s : State) (hg : s.Sound Q) : (rstLimitReached d s).Sound Q := by
  unfold rstLimitReached
  repeat' (first | with_reducible assumption | intro _ | with_reducible apply State.leaveService_sound
                 | with_reducible apply State.raise_sound | with_reducible apply Sound.ite)

theorem execRstLimitReached_sound (d : DomainRef) (s : State) (hg : s.Sound Q) : OutSound Q
    (execRstLimitReached d s) := by
  unfold execRstLimitReached
  repeat' (first | with_reducible apply onUnit_sound | with_reducible assumption
                 | with_reducible apply rstLimitReached_sound)

theorem modLimitReached_sound (s : State) (hg : s.Sound Q) : (modLimitReached s).Sound Q := by
  unfold modLimitReached
  repeat' (first | with_reducible assumption | intro _ | with_reducible apply State.setStage_sound
                 | with_reducible apply State.showPair_sound | with_reducible apply State.setCpStatus_sound
                 | with_reducible apply brzDisable_sound | with_reducible apply State.raise_sound
                 | with_reducible apply Sound.forN | with_reducible apply Sound.ite
                 | with_reducible exact Sound.parts (by with_reducible assumption) | simp only [Sound_mk])

theorem execModLimitReached_sound (s : State) (hg : s.Sound Q) : OutSound Q (execModLimitReached s) := by
  unfold execModLimitReached
  repeat' (first | with_reducible apply ok_sound | with_reducible assumption
                 | with_reducible apply modLimitReached_sound)

/-! ## Thermal -/

theorem grantWindow_sound (q : Nat) (s : State) (hg : s.Sound Q) : (grantWindow q s).Sound Q := by
  unfold grantWindow
  repeat' (first | intro _ | with_reducible apply State.bump_sound | with_reducible apply Sound.ite
                 | with_reducible exact Sound.parts (by with_reducible assumption) | simp only [Sound_mk])

theorem execGrantWindow_sound (quadrant : Nat) (s : State) (hg : s.Sound Q) : OutSound Q
    (execGrantWindow quadrant s) := by
  unfold execGrantWindow
  repeat' (first | with_reducible apply onUnit_sound | with_reducible assumption
                 | with_reducible apply grantWindow_sound)

theorem State.unpower_sound (s : State) (hg : s.Sound Q) : (State.unpower s).Sound Q := by
  unfold State.unpower
  repeat' (first | with_reducible assumption | intro _
                 | (fail_if_no_progress extract_lets +onlyGivenNames t; refine (fun (ht : State.Sound Q t) => ?_) ?_; clear_value t; on_goal 2 => (unfold t; clear t))
                 | with_reducible apply State.wipe_sound | with_reducible apply State.withdrawLight_sound
                 | with_reducible apply State.showPair_sound | with_reducible apply State.send_sound
                 | with_reducible apply Sound.forN | with_reducible exact Sound.parts (by with_reducible assumption)
                 | simp only [Sound_mk])

theorem State.thermalHigh_sound (s : State) (die key : Nat) (temp : Int) (hg : s.Sound Q) :
    (State.thermalHigh s die key temp).Sound Q := by
  unfold State.thermalHigh
  repeat' (first | with_reducible assumption | intro _ | with_reducible apply State.event_sound
                 | with_reducible apply Sound.ite | with_reducible exact Sound.parts (by with_reducible assumption)
                 | split | simp only [Sound_mk])

theorem State.thermTrip_sound (s : State) (die : Nat) (stack : Bool) (temp : Int) (hg : s.Sound Q) :
    (State.thermTrip s die stack temp).Sound Q := by
  unfold State.thermTrip
  repeat' (first | with_reducible assumption | intro _ | with_reducible apply State.beginReset_sound
                 | with_reducible apply State.setPd_sound | with_reducible apply State.raise_sound
                 | with_reducible apply State.setField_sound | with_reducible apply Sound.ite
                 | with_reducible exact Sound.parts (by with_reducible assumption)
                 | with_reducible apply Sound.parts | split | simp only [Sound_mk])

theorem State.thermPin_sound (s : State) (temps : List Int) (hg : s.Sound Q) : (State.thermPin s temps).Sound Q := by
  unfold State.thermPin
  repeat' (first | with_reducible assumption | intro _ | with_reducible apply State.send_sound
                 | with_reducible apply Sound.ite | with_reducible exact Sound.parts (by with_reducible assumption)
                 | simp only [Sound_mk])

theorem State.coolDown_sound (s : State) (key : Nat) (temp : Int) (hg : s.Sound Q) :
    (State.coolDown s key temp).Sound Q := by
  unfold State.coolDown
  repeat' (first | with_reducible assumption | intro _ | with_reducible apply Sound.ite
                 | with_reducible exact Sound.parts (by with_reducible assumption) | simp only [Sound_mk])

theorem thermalSample_sound (die : Nat) (sensors : List Int) (stack : Int) (s : State) (hg : s.Sound Q) :
    (thermalSample die sensors stack s).Sound Q := by
  unfold thermalSample
  repeat' (first | with_reducible assumption | intro _ | with_reducible apply State.coolDown_sound
                 | with_reducible apply State.thermPin_sound | with_reducible apply State.thermTrip_sound
                 | with_reducible apply State.thermalHigh_sound | with_reducible apply State.holdRestriction_sound
                 | with_reducible apply State.setField_sound | with_reducible apply State.wr_sound
                 | with_reducible apply Sound.forN | with_reducible apply Sound.ite
                 | with_reducible exact Sound.parts (by with_reducible assumption) | split | simp only [Sound_mk])

theorem execThermalSample_sound (die : Nat) (sensors : List Int) (stack : Int) (s : State)
    (hg : s.Sound Q) : OutSound Q (execThermalSample die sensors stack s) := by
  unfold execThermalSample
  repeat' (first | with_reducible apply onUnit_sound | with_reducible assumption
                 | with_reducible apply thermalSample_sound)

theorem State.raiseEscalated_sound (s : State) (die code cls : Nat) (x : Site) (hg : s.Sound Q) :
    (State.raiseEscalated s die code cls x).Sound Q := by
  unfold State.raiseEscalated
  repeat' (first | with_reducible assumption | intro _ | with_reducible apply State.moduleFatal_sound
                 | with_reducible apply State.partitionFatal_sound | with_reducible apply State.collect_sound
                 | with_reducible apply Sound.ite)

theorem State.railLost_sound (s : State) (rail : Nat) (hg : s.Sound Q) : (State.railLost s rail).Sound Q := by
  unfold State.railLost
  repeat' (first | with_reducible assumption | intro _ | with_reducible apply State.raiseEscalated_sound
                 | with_reducible apply State.unpower_sound | with_reducible apply State.fenceDie_sound
                 | with_reducible apply Sound.ite)

theorem State.railSample_sound (s : State) (x : RailSample) (hg : s.Sound Q) : (State.railSample s x).Sound Q := by
  unfold State.railSample
  repeat' (first | with_reducible assumption | intro _
                 | (fail_if_no_progress extract_lets +onlyGivenNames t; refine (fun (ht : State.Sound Q t) => ?_) ?_; clear_value t; on_goal 2 => (unfold t; clear t))
                 | with_reducible apply State.railLost_sound | with_reducible apply State.wr_sound
                 | with_reducible apply Sound.ite)

theorem railPoll_sound (rails : List RailSample) (s : State) (hg : s.Sound Q) : (railPoll rails s).Sound Q := by
  unfold railPoll
  repeat' (first | with_reducible assumption | intro _ | with_reducible apply State.railSample_sound
                 | with_reducible apply Sound.forEach | with_reducible apply Sound.ite)

theorem execRailTelemetryPoll_sound (rails : List RailSample) (s : State) (hg : s.Sound Q) : OutSound Q
    (execRailTelemetryPoll rails s) := by
  unfold execRailTelemetryPoll
  repeat' (first | with_reducible apply onUnit_sound | with_reducible assumption
                 | with_reducible apply railPoll_sound)

theorem execAlertN_sound (rail : Nat) (s : State) (hg : s.Sound Q) : OutSound Q (execAlertN rail s) := by
  unfold execAlertN
  repeat' (first | with_reducible apply onUnit_sound | with_reducible assumption
                 | with_reducible apply State.railLost_sound)

theorem avsAckTimeout_sound (die : Nat) (s : State) (hg : s.Sound Q) : (avsAckTimeout die s).Sound Q := by
  unfold avsAckTimeout
  repeat' (first | with_reducible assumption | intro _ | with_reducible apply State.excludeBin_sound
                 | with_reducible apply State.raise_sound | with_reducible apply State.send_sound
                 | with_reducible apply Sound.ite | with_reducible exact Sound.parts (by with_reducible assumption)
                 | split | simp only [Sound_mk])

theorem execAvsAckTimeout_sound (die : Nat) (s : State) (hg : s.Sound Q) : OutSound Q (execAvsAckTimeout die s) := by
  unfold execAvsAckTimeout
  repeat' (first | with_reducible apply onUnit_sound | with_reducible assumption
                 | with_reducible apply avsAckTimeout_sound)

theorem pmbusTimeout_sound (s : State) (hg : s.Sound Q) : (pmbusTimeout s).Sound Q := by
  unfold pmbusTimeout
  repeat' (first | with_reducible assumption | intro _ | with_reducible apply State.raise_sound
                 | with_reducible apply Sound.ite)

theorem execPmbusClockLowTimeout_sound (s : State) (hg : s.Sound Q) : OutSound Q (execPmbusClockLowTimeout s) := by
  unfold execPmbusClockLowTimeout
  repeat' (first | with_reducible apply ok_sound | with_reducible assumption
                 | with_reducible apply pmbusTimeout_sound)

theorem refclkLoss_sound (pair : Nat) (s : State) (hg : s.Sound Q) : (refclkLoss pair s).Sound Q := by
  unfold refclkLoss
  repeat' (first | with_reducible assumption | intro _ | with_reducible apply State.raise_sound
                 | with_reducible apply State.raiseAs_sound | with_reducible apply Sound.forEach
                 | with_reducible apply Sound.ite | with_reducible exact Sound.parts (by with_reducible assumption)
                 | simp only [Sound_mk])

theorem execRefclkLoss_sound (pair : Nat) (s : State) (hg : s.Sound Q) : OutSound Q (execRefclkLoss pair s) := by
  unfold execRefclkLoss
  repeat' (first | with_reducible apply onUnit_sound | with_reducible assumption
                 | with_reducible apply refclkLoss_sound)

/-! ## Startup -/

theorem State.railsUp_sound (s : State) (hg : s.Sound Q) : (State.railsUp s).Sound Q := by
  unfold State.railsUp
  repeat' (first | with_reducible assumption | intro _ | with_reducible apply State.command_sound
                 | with_reducible apply State.send_sound | with_reducible apply Sound.forEach
                 | with_reducible apply Sound.forN | with_reducible exact Sound.parts (by with_reducible assumption)
                 | simp only [Sound_mk])

theorem State.railsDown_sound (s : State) (hg : s.Sound Q) : (State.railsDown s).Sound Q := by
  unfold State.railsDown
  repeat' (first | with_reducible assumption | intro _ | with_reducible apply State.send_sound
                 | with_reducible apply Sound.forEach)

theorem porRelease_sound (r : StartReport) (s : State) (hg : s.Sound Q) : (porRelease r s).Sound Q := by
  unfold porRelease
  repeat' (first | with_reducible assumption | intro _
                 | (fail_if_no_progress extract_lets +onlyGivenNames t; refine (fun (ht : State.Sound Q t) => ?_) ?_; clear_value t; on_goal 2 => (unfold t; clear t))
                 | with_reducible apply State.railsUp_sound | with_reducible apply State.boot_sound
                 | with_reducible apply State.loseSections_sound | with_reducible apply Sound.ite
                 | with_reducible exact Sound.parts (by with_reducible assumption) | simp only [Sound_mk])

theorem execPorNRelease_sound (r : StartReport) (s : State) (hg : s.Sound Q) : OutSound Q (execPorNRelease r s) := by
  unfold execPorNRelease
  repeat' (first | with_reducible apply ok_sound | with_reducible assumption | with_reducible apply porRelease_sound)

theorem State.powerDown_sound (s : State) (hg : s.Sound Q) : (State.powerDown s).Sound Q := by
  unfold State.powerDown
  repeat' (first | with_reducible assumption | with_reducible apply State.railsDown_sound
                 | with_reducible apply State.unpower_sound | with_reducible apply State.withdrawLight_sound)

theorem powerGoodTimeout_sound (rail : Nat) (s : State) (hg : s.Sound Q) : (powerGoodTimeout rail s).Sound Q := by
  unfold powerGoodTimeout
  repeat' (first | with_reducible assumption | intro _
                 | (fail_if_no_progress extract_lets +onlyGivenNames t; refine (fun (ht : State.Sound Q t) => ?_) ?_; clear_value t; on_goal 2 => (unfold t; clear t))
                 | with_reducible apply State.powerDown_sound | with_reducible apply State.showPair_sound
                 | with_reducible apply State.collect_sound | with_reducible apply State.send_sound
                 | with_reducible apply Sound.ite | with_reducible exact Sound.parts (by with_reducible assumption)
                 | simp only [Sound_mk])

theorem execPowerGoodTimeout_sound (rail : Nat) (s : State) (hg : s.Sound Q) : OutSound Q
    (execPowerGoodTimeout rail s) := by
  unfold execPowerGoodTimeout
  repeat' (first | with_reducible apply onUnit_sound | with_reducible assumption
                 | with_reducible apply powerGoodTimeout_sound)

theorem porAssert_sound (s : State) (hg : s.Sound Q) : (porAssert s).Sound Q := by
  unfold porAssert
  repeat' (first | with_reducible assumption | intro _ | with_reducible apply State.powerDown_sound
                 | with_reducible apply State.unpower_sound | with_reducible apply Sound.ite)

theorem execPorNAssert_sound (s : State) (hg : s.Sound Q) : OutSound Q (execPorNAssert s) := by
  unfold execPorNAssert
  repeat' (first | with_reducible apply ok_sound | with_reducible assumption | with_reducible apply porAssert_sound)

theorem railsOkDeassert_sound (s : State) (hg : s.Sound Q) : (railsOkDeassert s).Sound Q := by
  unfold railsOkDeassert
  repeat' (first | with_reducible assumption | intro _ | with_reducible apply State.unpower_sound
                 | with_reducible apply Sound.ite)

theorem execRailsOkDeassert_sound (s : State) (hg : s.Sound Q) : OutSound Q (execRailsOkDeassert s) := by
  unfold execRailsOkDeassert
  repeat' (first | with_reducible apply ok_sound | with_reducible assumption
                 | with_reducible apply railsOkDeassert_sound)

theorem State.driveLands_sound (s : State) (die : Nat) (ac : Bool) (hg : s.Sound Q) :
    (State.driveLands s die ac).Sound Q := by
  unfold State.driveLands
  repeat' (first | with_reducible assumption | intro _ | with_reducible apply State.send_sound
                 | with_reducible apply Sound.forEach)

theorem State.tapRun_sound (s : State) (die x dr : Nat) (hg : s.Sound Q) : (State.tapRun s die x dr).Sound Q := by
  unfold State.tapRun
  repeat' (first | with_reducible assumption | intro _
                 | (fail_if_no_progress extract_lets +onlyGivenNames t; refine (fun (ht : State.Sound Q t) => ?_) ?_; clear_value t; on_goal 2 => (unfold t; clear t))
                 | with_reducible apply State.driveLands_sound | with_reducible apply State.send_sound
                 | with_reducible apply State.setField_sound | with_reducible apply Sound.ite
                 | with_reducible exact Sound.parts (by with_reducible assumption) | simp only [Sound_mk])

theorem tapInstruction_sound (die ir dr : Nat) (s : State) (hg : s.Sound Q) :
    (tapInstruction die ir dr s).Sound Q := by
  unfold tapInstruction
  repeat' (first | intro _ | with_reducible apply State.tapRun_sound | with_reducible apply State.send_sound
                 | with_reducible apply State.setField_sound | with_reducible apply Sound.ite
                 | with_reducible exact Sound.parts (by with_reducible assumption) | simp only [Sound_mk])

theorem execTapInstruction_sound (die ir dr : Nat) (s : State) (hg : s.Sound Q) : OutSound Q
    (execTapInstruction die ir dr s) := by
  unfold execTapInstruction
  repeat' (first | with_reducible apply onUnit_sound | with_reducible assumption
                 | with_reducible apply tapInstruction_sound)

theorem State.loopOn_sound (s : State) (if_ inst : Nat) (hg : s.Sound Q) : (State.loopOn s if_ inst).Sound Q := by
  unfold State.loopOn
  repeat' (first | with_reducible assumption | intro _ | with_reducible apply State.setEdge_sound
                 | with_reducible apply State.setPhase_sound | with_reducible apply State.setField_sound
                 | with_reducible apply Sound.ite)

theorem State.loopOff_sound (s : State) (if_ inst : Nat) (hg : s.Sound Q) : (State.loopOff s if_ inst).Sound Q := by
  unfold State.loopOff
  repeat' (first | with_reducible assumption | intro _ | with_reducible apply State.setEdge_sound
                 | with_reducible apply State.setPhase_sound | with_reducible apply State.setField_sound
                 | with_reducible apply Sound.ite)

theorem stuLoopStart_sound (p : Path) (v : Word) (s : State) (hg : s.Sound Q) : (stuLoopStart p v s).Sound Q := by
  unfold stuLoopStart
  repeat' (first | with_reducible assumption | intro _ | with_reducible apply State.loopOn_sound
                 | with_reducible apply State.reject_sound | with_reducible apply State.wr_sound
                 | with_reducible apply Sound.ite | with_reducible exact Sound.parts (by with_reducible assumption)
                 | split | simp only [Sound_mk])

theorem execStuLoopStart_sound (p : Path) (v : Word) (s : State) (hg : s.Sound Q) : OutSound Q
    (execStuLoopStart p v s) := by
  unfold execStuLoopStart
  repeat' (first | with_reducible apply ok_sound | with_reducible assumption
                 | with_reducible apply stuLoopStart_sound)

theorem loopbackEnd_sound (s : State) (hg : s.Sound Q) : (loopbackEnd s).Sound Q := by
  unfold loopbackEnd
  repeat' (first | with_reducible assumption | with_reducible apply State.loopOff_sound
                 | with_reducible apply State.setField_sound | with_reducible apply State.wr_sound
                 | with_reducible exact Sound.parts (by with_reducible assumption) | split | simp only [Sound_mk])

theorem execLoopbackEnd_sound (s : State) (hg : s.Sound Q) : OutSound Q (execLoopbackEnd s) := by
  unfold execLoopbackEnd
  repeat' (first | with_reducible apply ok_sound | with_reducible assumption | with_reducible apply loopbackEnd_sound)

/-! ## Faults -/

theorem State.setLog_sound (s : State) (r : FaultRec) (hg : s.Sound Q) : (State.setLog s r).Sound Q := by
  unfold State.setLog
  repeat' (first | with_reducible exact Sound.parts (by with_reducible assumption) | simp only [Sound_mk])

theorem State.fatalSequence_sound (s : State) (hg : s.Sound Q) : (State.fatalSequence s).Sound Q := by
  unfold State.fatalSequence
  repeat' (first | with_reducible assumption | intro _
                 | (fail_if_no_progress extract_lets +onlyGivenNames t; refine (fun (ht : State.Sound Q t) => ?_) ?_; clear_value t; on_goal 2 => (unfold t; clear t))
                 | with_reducible apply State.beginReset_sound | with_reducible apply State.moduleFatal_sound
                 | with_reducible apply State.notice_sound | with_reducible apply Sound.ite)

theorem State.logRecord_sound (s : State) (r : FaultRec) (hg : s.Sound Q) : (State.logRecord s r).Sound Q := by
  unfold State.logRecord
  repeat' (first | intro _ | with_reducible apply State.fatalSequence_sound | with_reducible apply State.event_sound
                 | with_reducible apply Sound.ite | with_reducible exact Sound.parts (by with_reducible assumption)
                 | simp only [Sound_mk])

theorem faultRecord_sound (die : Nat) (limited : Bool) (s : State) (hg : s.Sound Q) :
    (faultRecord die limited s).Sound Q := by
  unfold faultRecord
  repeat' (first | with_reducible assumption | intro _ | with_reducible apply State.logRecord_sound
                 | with_reducible apply State.fatalSequence_sound | with_reducible apply State.setLog_sound
                 | with_reducible apply Sound.ite | with_reducible exact Sound.parts (by with_reducible assumption)
                 | split | simp only [Sound_mk])

theorem execFaultRecord_sound (die : Nat) (limited : Bool) (s : State) (hg : s.Sound Q) : OutSound Q
    (execFaultRecord die limited s) := by
  unfold execFaultRecord
  repeat' (first | with_reducible apply onUnit_sound | with_reducible assumption
                 | with_reducible apply faultRecord_sound)

theorem windowExpiry_sound (seq : Nat) (s : State) (hg : s.Sound Q) : (windowExpiry seq s).Sound Q := by
  unfold windowExpiry
  repeat' (first | with_reducible assumption | intro _ | with_reducible apply State.fatalSequence_sound
                 | with_reducible apply State.setLog_sound | with_reducible apply State.beginReset_sound
                 | with_reducible apply State.partitionFatal_sound | with_reducible apply Sound.ite | split)

theorem execHandlingWindowExpiry_sound (seq : Nat) (s : State) (hg : s.Sound Q) : OutSound Q
    (execHandlingWindowExpiry seq s) := by
  unfold execHandlingWindowExpiry
  repeat' (first | with_reducible apply ok_sound | with_reducible assumption
                 | with_reducible apply windowExpiry_sound)

theorem fltClaim_sound (p : Path) (seq : Nat) (s : State) (hg : s.Sound Q) : (fltClaim p seq s).Sound Q := by
  unfold fltClaim
  repeat' (first | with_reducible assumption | intro _ | with_reducible apply State.reject_sound
                 | with_reducible apply Sound.ite | with_reducible exact Sound.parts (by with_reducible assumption)
                 | simp only [Sound_mk])

theorem execFltClaim_sound (p : Path) (seq : Nat) (s : State) (hg : s.Sound Q) : OutSound Q
    (execFltClaim p seq s) := by
  unfold execFltClaim
  repeat' (first | with_reducible apply ok_sound | with_reducible assumption | with_reducible apply fltClaim_sound)

theorem fltDone_sound (p : Path) (seq : Nat) (s : State) (hg : s.Sound Q) : (fltDone p seq s).Sound Q := by
  unfold fltDone
  repeat' (first | with_reducible assumption | intro _ | with_reducible apply State.reject_sound
                 | with_reducible apply Sound.ite | with_reducible exact Sound.parts (by with_reducible assumption)
                 | simp only [Sound_mk])

theorem execFltDone_sound (p : Path) (seq : Nat) (s : State) (hg : s.Sound Q) : OutSound Q (execFltDone p seq s) := by
  unfold execFltDone
  repeat' (first | with_reducible apply ok_sound | with_reducible assumption | with_reducible apply fltDone_sound)

theorem fltRelease_sound (p : Path) (s : State) (hg : s.Sound Q) : (fltRelease p s).Sound Q := by
  unfold fltRelease
  repeat' (first | with_reducible assumption | intro _ | with_reducible apply State.openPorts_sound
                 | with_reducible apply State.beginScrub_sound | with_reducible apply State.setStage_sound
                 | with_reducible apply State.showPair_sound | with_reducible apply State.reject_sound
                 | with_reducible apply Sound.ite | with_reducible exact Sound.parts (by with_reducible assumption)
                 | simp only [Sound_mk])

theorem execFltCtlRelease_sound (p : Path) (s : State) (hg : s.Sound Q) : OutSound Q (execFltCtlRelease p s) := by
  unfold execFltCtlRelease
  repeat' (first | with_reducible apply ok_sound | with_reducible assumption | with_reducible apply fltRelease_sound)

theorem State.confirmCycle_sound (s : State) (die : Nat) (cyc : List UnitId) (site : Site) (hg : s.Sound Q) :
    (State.confirmCycle s die cyc site).Sound Q := by
  unfold State.confirmCycle
  repeat' (first | with_reducible assumption | intro _
                 | (fail_if_no_progress extract_lets +onlyGivenNames t; refine (fun (ht : State.Sound Q t) => ?_) ?_; clear_value t; on_goal 2 => (unfold t; clear t))
                 | with_reducible apply State.beginReset_sound | with_reducible apply State.raiseAs_sound
                 | with_reducible apply Sound.forEach | with_reducible apply Sound.ite)

theorem State.findHang_sound (s : State) (edges : List Edge) (sid op : Nat) (inside : UnitId → Bool)
    (hg : s.Sound Q) : (State.findHang s edges sid op inside).Sound Q := by
  unfold State.findHang
  repeat' (first | with_reducible assumption | intro _
                 | (fail_if_no_progress extract_lets +onlyGivenNames t; refine (fun (ht : State.Sound Q t) => ?_) ?_; clear_value t; on_goal 2 => (unfold t; clear t))
                 | with_reducible apply State.confirmCycle_sound | with_reducible apply State.raise_sound
                 | with_reducible apply State.raiseAs_sound | with_reducible apply Sound.ite
                 | with_reducible exact Sound.parts (by with_reducible assumption) | split | simp only [Sound_mk])

theorem State.detect_sound (s : State) (edges : List Edge) (mine : Nat → Bool) (inside : UnitId → Bool)
    (hg : s.Sound Q) : (State.detect s edges mine inside).Sound Q := by
  unfold State.detect
  repeat' (first | with_reducible assumption | intro _ | with_reducible apply State.findHang_sound
                 | with_reducible apply Sound.forEach | with_reducible apply Sound.ite)

theorem State.keepGraph_sound (s : State) (die : Nat) (edges : List Edge) (hg : s.Sound Q) :
    (State.keepGraph s die edges).Sound Q := by
  unfold State.keepGraph
  repeat' (first | with_reducible exact Sound.parts (by with_reducible assumption) | simp only [Sound_mk])

theorem execDieDetectorTick_sound (die : Nat) (edges : List Edge) (s : State) (hg : s.Sound Q) : OutSound Q
    (execDieDetectorTick die edges s) := by
  unfold execDieDetectorTick
  repeat' (first | with_reducible apply onUnit_sound | with_reducible assumption
                 | with_reducible apply State.keepGraph_sound | with_reducible apply State.detect_sound)

theorem execModuleDetectorTick_sound (edges : List Edge) (s : State) (hg : s.Sound Q) : OutSound Q
    (execModuleDetectorTick edges s) := by
  unfold execModuleDetectorTick
  repeat' (first | with_reducible apply ok_sound | with_reducible assumption
                 | with_reducible apply State.detect_sound | with_reducible apply State.inventoryTick_sound)

theorem heartbeatTimeout_sound (s : State) (hg : s.Sound Q) : (heartbeatTimeout s).Sound Q := by
  unfold heartbeatTimeout
  repeat' (first | with_reducible assumption | intro _ | with_reducible apply State.raise_sound
                 | with_reducible apply Sound.ite)

theorem execHeartbeatTimeout_sound (s : State) (hg : s.Sound Q) : OutSound Q (execHeartbeatTimeout s) := by
  unfold execHeartbeatTimeout
  repeat' (first | with_reducible apply ok_sound | with_reducible assumption
                 | with_reducible apply heartbeatTimeout_sound)

theorem mgmtHandover_sound (s : State) (hg : s.Sound Q) : (mgmtHandover s).Sound Q := by
  unfold mgmtHandover
  repeat' (first | with_reducible assumption | intro _ | with_reducible apply State.revertUpdate_sound
                 | with_reducible apply State.setMd_sound | with_reducible apply State.setSvc_sound
                 | with_reducible apply State.raise_sound | with_reducible apply Sound.ite
                 | with_reducible apply Sound.parts | simp only [Sound_mk])

theorem execMgmtHandover_sound (s : State) (hg : s.Sound Q) : OutSound Q (execMgmtHandover s) := by
  unfold execMgmtHandover
  repeat' (first | with_reducible apply ok_sound | with_reducible assumption
                 | with_reducible apply mgmtHandover_sound)

theorem replayMaxExceeded_sound (sid : Nat) (s : State) (hg : s.Sound Q) : (replayMaxExceeded sid s).Sound Q := by
  unfold replayMaxExceeded
  repeat' (first | with_reducible assumption | intro _ | with_reducible apply State.beginReset_sound
                 | with_reducible apply Sound.ite)

theorem execReplayMaxExceeded_sound (sid : Nat) (s : State) (hg : s.Sound Q) : OutSound Q
    (execReplayMaxExceeded sid s) := by
  unfold execReplayMaxExceeded
  repeat' (first | with_reducible apply onUnit_sound | with_reducible assumption
                 | with_reducible apply replayMaxExceeded_sound)

theorem fabricEdgeDown_sound (die edge : Nat) (s : State) (hg : s.Sound Q) : (fabricEdgeDown die edge s).Sound Q := by
  unfold fabricEdgeDown
  repeat' (first | with_reducible assumption | intro _ | with_reducible apply State.setEdge_sound
                 | with_reducible apply State.raise_sound | with_reducible apply Sound.ite)

theorem execFabricEdgeDown_sound (die edge : Nat) (s : State) (hg : s.Sound Q) : OutSound Q
    (execFabricEdgeDown die edge s) := by
  unfold execFabricEdgeDown
  repeat' (first | with_reducible apply onUnit_sound | with_reducible assumption
                 | with_reducible apply fabricEdgeDown_sound)

theorem execI3cTransactionTimeout_sound (s : State) (hg : s.Sound Q) : OutSound Q (execI3cTransactionTimeout s) := by
  unfold execI3cTransactionTimeout
  repeat' (first | with_reducible apply ok_sound | with_reducible assumption)

end Sys2Proof.Machine
end

