-- ==== Sys2Proof/Laws/SoundPorts.lean ====
section
/-!
SUPPORT. Every operation keeps a state sound and leaves its queue alone: security, the control port and registers.
-/

set_option maxRecDepth 20000

namespace Sys2Proof.Machine

variable {q Q : List Instr}

/-! ## Security -/

theorem State.mgmtFrame_sound (s : State) (p : Path) (f : Frame) (typ : Nat) (hg : s.Sound Q) :
    (State.mgmtFrame s p f typ).1.Sound Q := by
  unfold State.mgmtFrame
  repeat' (first | with_reducible assumption | with_reducible apply State.countBad_sound
                 | with_reducible apply State.recv_sound | with_reducible apply State.bump_sound | split)

theorem State.fwResp_sound (s : State) (f : Frame) (code : Nat) (status : Nat) (hg : s.Sound Q) :
    (State.fwResp s f code status).Sound Q := by
  unfold State.fwResp
  repeat' (first | with_reducible assumption | with_reducible apply State.sendFrame_sound)

theorem certReq_sound (p : Path) (f : Frame) (s : State) (hg : s.Sound Q) : (certReq p f s).Sound Q := by
  unfold certReq
  repeat' (first | with_reducible assumption | intro _ | with_reducible apply State.mgmtFrame_sound
                 | with_reducible apply State.sendFrame_sound | with_reducible apply Sound.ite
                 | with_reducible refine Sound.ofFst (by with_reducible assumption) ?_ | split)

theorem execCertReq_sound (p : Path) (f : Frame) (s : State) (hg : s.Sound Q) : OutSound Q (execCertReq p f s) := by
  unfold execCertReq
  repeat' (first | with_reducible apply ok_sound | with_reducible assumption | with_reducible apply certReq_sound)

theorem attestReq_sound (p : Path) (f : Frame) (s : State) (hg : s.Sound Q) : (attestReq p f s).Sound Q := by
  unfold attestReq
  repeat' (first | with_reducible assumption | intro _ | with_reducible apply State.mgmtFrame_sound
                 | with_reducible apply State.mgmtBad_sound | with_reducible apply State.sendFrame_sound
                 | with_reducible apply Sound.ite
                 | with_reducible refine Sound.ofFst (by with_reducible assumption) ?_ | split)

theorem execAttestReq_sound (p : Path) (f : Frame) (s : State) (hg : s.Sound Q) : OutSound Q
    (execAttestReq p f s) := by
  unfold execAttestReq
  repeat' (first | with_reducible apply ok_sound | with_reducible assumption | with_reducible apply attestReq_sound)

theorem State.setUpd_sound (s : State) (u : UpdPhase) (hg : s.Sound Q) : (State.setUpd s u).Sound Q := by
  unfold State.setUpd
  repeat' (first | with_reducible exact Sound.parts (by with_reducible assumption) | simp only [Sound_mk])

theorem fwData_sound (p : Path) (f : Frame) (s : State) (hg : s.Sound Q) : (fwData p f s).Sound Q := by
  unfold fwData
  repeat' (first | with_reducible assumption | intro _ | with_reducible apply State.fwResp_sound
                 | with_reducible apply State.mgmtFrame_sound | with_reducible apply State.setMd_sound
                 | with_reducible apply Sound.ite
                 | with_reducible refine Sound.ofFst (by with_reducible assumption) ?_ | split)

theorem execFwData_sound (p : Path) (f : Frame) (s : State) (hg : s.Sound Q) : OutSound Q (execFwData p f s) := by
  unfold execFwData
  repeat' (first | with_reducible apply ok_sound | with_reducible assumption | with_reducible apply fwData_sound)

theorem State.fwCtl_sound (s : State) (p : Path) (f : Frame) (op : Nat) (hg : s.Sound Q) :
    (State.fwCtl s p f op).1.Sound Q := by
  unfold State.fwCtl
  repeat' (first | with_reducible assumption | with_reducible apply State.mgmtFrame_sound | split)

theorem fwBegin_sound (p : Path) (f : Frame) (s : State) (hg : s.Sound Q) : (fwBegin p f s).Sound Q := by
  unfold fwBegin
  repeat' (first | with_reducible assumption | intro _ | with_reducible apply State.fwCtl_sound
                 | with_reducible apply State.fwResp_sound | with_reducible apply State.eraseSlot_sound
                 | with_reducible apply Sound.ite | with_reducible apply Sound.parts
                 | with_reducible refine Sound.ofFst (by with_reducible assumption) ?_ | split
                 | simp only [Sound_mk])

theorem execFwBegin_sound (p : Path) (f : Frame) (s : State) (hg : s.Sound Q) : OutSound Q (execFwBegin p f s) := by
  unfold execFwBegin
  repeat' (first | with_reducible apply ok_sound | with_reducible assumption | with_reducible apply fwBegin_sound)

theorem fwStage_sound (p : Path) (f : Frame) (s : State) (hg : s.Sound Q) : (fwStage p f s).Sound Q := by
  unfold fwStage
  repeat' (first | with_reducible assumption | intro _ | with_reducible apply State.fwCtl_sound
                 | with_reducible apply State.setUpd_sound | with_reducible apply State.fwResp_sound
                 | with_reducible apply State.eraseSlot_sound | with_reducible apply State.event_sound
                 | with_reducible apply Sound.ite
                 | with_reducible refine Sound.ofFst (by with_reducible assumption) ?_ | split)

theorem execFwStage_sound (p : Path) (f : Frame) (s : State) (hg : s.Sound Q) : OutSound Q (execFwStage p f s) := by
  unfold execFwStage
  repeat' (first | with_reducible apply ok_sound | with_reducible assumption | with_reducible apply fwStage_sound)

theorem State.changeRoles_sound (s : State) (slot : Nat) (hg : s.Sound Q) : (State.changeRoles s slot).Sound Q := by
  unfold State.changeRoles
  repeat' (first | with_reducible assumption | with_reducible apply State.setMd_sound
                 | with_reducible apply State.setSvc_sound | with_reducible apply State.raise_sound
                 | with_reducible apply Sound.parts | simp only [Sound_mk])

theorem fwActivate_sound (p : Path) (f : Frame) (s : State) (hg : s.Sound Q) : (fwActivate p f s).Sound Q := by
  unfold fwActivate
  repeat' (first | with_reducible assumption | intro _ | with_reducible apply State.changeRoles_sound
                 | with_reducible apply State.fwCtl_sound | with_reducible apply State.setUpd_sound
                 | with_reducible apply State.fwResp_sound | with_reducible apply State.beginReset_sound
                 | with_reducible apply State.countReset_sound | with_reducible apply State.setMd_sound
                 | with_reducible apply Sound.ite
                 | with_reducible refine Sound.ofFst (by with_reducible assumption) ?_ | split)

theorem execFwActivate_sound (p : Path) (f : Frame) (s : State) (hg : s.Sound Q) : OutSound Q
    (execFwActivate p f s) := by
  unfold execFwActivate
  repeat' (first | with_reducible apply ok_sound | with_reducible assumption | with_reducible apply fwActivate_sound)

theorem State.copyImage_sound (s : State) (a sa b sb : Nat) (hg : s.Sound Q) :
    (State.copyImage s a sa b sb).Sound Q := by
  unfold State.copyImage
  repeat' (first | with_reducible assumption
                 | (fail_if_no_progress extract_lets +onlyGivenNames t; refine (fun (ht : State.Sound Q t) => ?_) ?_; clear_value t; on_goal 2 => (unfold t; clear t))
                 | with_reducible apply State.eraseSlot_sound | with_reducible apply State.setMd_sound)

theorem fwCommit_sound (p : Path) (f : Frame) (s : State) (hg : s.Sound Q) : (fwCommit p f s).Sound Q := by
  unfold fwCommit
  repeat' (first | with_reducible assumption | intro _ | with_reducible apply State.copyImage_sound
                 | with_reducible apply State.fwCtl_sound | with_reducible apply State.setUpd_sound
                 | with_reducible apply State.fwResp_sound | with_reducible apply State.countReset_sound
                 | with_reducible apply State.blowArb_sound | with_reducible apply State.setMd_sound
                 | with_reducible apply State.event_sound | with_reducible apply Sound.ite
                 | with_reducible refine Sound.ofFst (by with_reducible assumption) ?_ | split)

theorem execFwCommit_sound (p : Path) (f : Frame) (s : State) (hg : s.Sound Q) : OutSound Q (execFwCommit p f s) := by
  unfold execFwCommit
  repeat' (first | with_reducible apply ok_sound | with_reducible assumption | with_reducible apply fwCommit_sound)

theorem fwAbort_sound (p : Path) (f : Frame) (s : State) (hg : s.Sound Q) : (fwAbort p f s).Sound Q := by
  unfold fwAbort
  repeat' (first | with_reducible assumption | intro _
                 | (fail_if_no_progress extract_lets +onlyGivenNames t; refine (fun (ht : State.Sound Q t) => ?_) ?_; clear_value t; on_goal 2 => (unfold t; clear t))
                 | with_reducible apply State.changeRoles_sound | with_reducible apply State.fwCtl_sound
                 | with_reducible apply State.fwResp_sound | with_reducible apply State.beginReset_sound
                 | with_reducible apply State.revertUpdate_sound | with_reducible apply Sound.ite
                 | with_reducible refine Sound.ofFst (by with_reducible assumption) ?_ | split)

theorem execFwAbort_sound (p : Path) (f : Frame) (s : State) (hg : s.Sound Q) : OutSound Q (execFwAbort p f s) := by
  unfold execFwAbort
  repeat' (first | with_reducible apply ok_sound | with_reducible assumption | with_reducible apply fwAbort_sound)

theorem revoke_sound (p : Path) (f : Frame) (s : State) (hg : s.Sound Q) : (revoke p f s).Sound Q := by
  unfold revoke
  repeat' (first | with_reducible assumption | intro _ | with_reducible apply State.fwCtl_sound
                 | with_reducible apply State.fwResp_sound | with_reducible apply State.programFuses_sound
                 | with_reducible apply Sound.ite | with_reducible apply Sound.parts
                 | with_reducible refine Sound.ofFst (by with_reducible assumption) ?_ | split
                 | simp only [Sound_mk])

theorem execRevoke_sound (p : Path) (f : Frame) (s : State) (hg : s.Sound Q) : OutSound Q (execRevoke p f s) := by
  unfold execRevoke
  repeat' (first | with_reducible apply ok_sound | with_reducible assumption | with_reducible apply revoke_sound)

theorem State.restage_sound (s : State) (hg : s.Sound Q) : (State.restage s).Sound Q := by
  unfold State.restage
  repeat' (first | with_reducible assumption | intro _ | with_reducible apply State.setStage_sound
                 | with_reducible apply State.showPair_sound | with_reducible apply State.setCpStatus_sound
                 | with_reducible apply Sound.ite)

theorem State.installed_sound (s : State) (i : Installation) (hg : s.Sound Q) : (State.installed s i).Sound Q := by
  unfold State.installed
  repeat' (first | with_reducible assumption | intro _ | with_reducible apply State.restage_sound
                 | with_reducible apply State.applyCables_sound | with_reducible apply State.assignSlots_sound
                 | with_reducible apply brzDisable_sound | with_reducible apply State.setField_sound
                 | with_reducible apply Sound.forN | with_reducible exact Sound.parts (by with_reducible assumption)
                 | simp only [Sound_mk])

theorem install_sound (p : Path) (f : Frame) (s : State) (hg : s.Sound Q) : (install p f s).Sound Q := by
  unfold install
  repeat' (first | with_reducible assumption | intro _ | with_reducible apply State.installed_sound
                 | with_reducible apply State.mgmtFrame_sound | with_reducible apply State.respond_sound
                 | with_reducible apply Sound.ite
                 | with_reducible refine Sound.ofFst (by with_reducible assumption) ?_ | split)

theorem execInstall_sound (p : Path) (f : Frame) (s : State) (hg : s.Sound Q) : OutSound Q (execInstall p f s) := by
  unfold execInstall
  repeat' (first | with_reducible apply ok_sound | with_reducible assumption | with_reducible apply install_sound)

theorem apply_sound (p : Path) (s : State) (hg : s.Sound Q) : (apply p s).Sound Q := by
  unfold apply
  repeat' (first | with_reducible assumption | with_reducible apply State.beginReset_sound
                 | with_reducible apply State.reject_sound
                 | with_reducible exact Sound.parts (by with_reducible assumption) | split | simp only [Sound_mk])

theorem execApply_sound (p : Path) (s : State) (hg : s.Sound Q) : OutSound Q (execApply p s) := by
  unfold execApply
  repeat' (first | with_reducible apply ok_sound | with_reducible assumption | with_reducible apply apply_sound)

theorem debugLock_sound (p : Path) (s : State) (hg : s.Sound Q) : (debugLock p s).Sound Q := by
  unfold debugLock
  repeat' (first | with_reducible assumption | intro _ | with_reducible apply State.reject_sound
                 | with_reducible apply Sound.ite | with_reducible exact Sound.parts (by with_reducible assumption)
                 | simp only [Sound_mk])

theorem execDebugLock_sound (p : Path) (s : State) (hg : s.Sound Q) : OutSound Q (execDebugLock p s) := by
  unfold execDebugLock
  repeat' (first | with_reducible apply ok_sound | with_reducible assumption | with_reducible apply debugLock_sound)

theorem State.zeroStack_sound (s : State) (st : Nat) (hg : s.Sound Q) : (State.zeroStack s st).Sound Q := by
  unfold State.zeroStack
  repeat' (first | with_reducible assumption
                 | (fail_if_no_progress extract_lets +onlyGivenNames t; refine (fun (ht : State.Sound Q t) => ?_) ?_; clear_value t; on_goal 2 => (unfold t; clear t))
                 | with_reducible apply State.setStack_sound
                 | with_reducible exact Sound.parts (by with_reducible assumption)
                 | with_reducible apply Memory.wf_clear
                 | with_reducible exact Sound.stack (by with_reducible assumption) | simp only [Sound_mk])

theorem scrubDone_sound (s : State) (hg : s.Sound Q) : (scrubDone s).Sound Q := by
  unfold scrubDone
  repeat' (first | with_reducible assumption | intro _
                 | (fail_if_no_progress extract_lets +onlyGivenNames t; refine (fun (ht : State.Sound Q t) => ?_) ?_; clear_value t; on_goal 2 => (unfold t; clear t))
                 | with_reducible apply State.zeroStack_sound | with_reducible apply State.openPorts_sound
                 | with_reducible apply State.setStage_sound | with_reducible apply Sound.forEach
                 | with_reducible apply Sound.ite
                 | with_reducible exact Sound.partsNil (by with_reducible assumption) | simp only [Sound_mk])

theorem execScrubDone_sound (s : State) (hg : s.Sound Q) : OutSound Q (execScrubDone s) := by
  unfold execScrubDone
  repeat' (first | with_reducible apply ok_sound | with_reducible assumption | with_reducible apply scrubDone_sound)

theorem stackScrubTimeout_sound (stack : Nat) (s : State) (hg : s.Sound Q) : (stackScrubTimeout stack s).Sound Q := by
  unfold stackScrubTimeout
  repeat' (first | with_reducible assumption | intro _ | with_reducible apply State.leaveService_sound
                 | with_reducible apply State.raise_sound | with_reducible apply Sound.ite
                 | with_reducible exact Sound.parts (by with_reducible assumption) | simp only [Sound_mk])

theorem execStackScrubTimeout_sound (stack : Nat) (s : State) (hg : s.Sound Q) : OutSound Q
    (execStackScrubTimeout stack s) := by
  unfold execStackScrubTimeout
  repeat' (first | with_reducible apply onUnit_sound | with_reducible assumption
                 | with_reducible apply stackScrubTimeout_sound)

/-! ## Host -/

theorem State.inputFault_sound (s : State) (p : Pull) (code : Nat) (hg : s.Sound Q) :
    (State.inputFault s p code).Sound Q := by
  unfold State.inputFault
  repeat' (first | with_reducible assumption
                 | (fail_if_no_progress extract_lets +onlyGivenNames t; refine (fun (ht : State.Sound Q t) => ?_) ?_; clear_value t; on_goal 2 => (unfold t; clear t))
                 | with_reducible apply State.setPull_sound | with_reducible apply State.raise_sound
                 | with_reducible apply State.event_sound)

theorem State.initFail_sound (s : State) (p : Pull) (refusal : Nat) (hg : s.Sound Q) :
    (State.initFail s p refusal).Sound Q := by
  unfold State.initFail
  repeat' (first | with_reducible assumption
                 | (fail_if_no_progress extract_lets +onlyGivenNames t; refine (fun (ht : State.Sound Q t) => ?_) ?_; clear_value t; on_goal 2 => (unfold t; clear t))
                 | with_reducible apply State.dropPull_sound | with_reducible apply State.raise_sound
                 | with_reducible exact Sound.parts (by with_reducible assumption) | simp only [Sound_mk])

theorem State.placeFrozen_sound (s : State) (sid : Nat) (b e : List Byte) (sh : Bool) (hg : s.Sound Q) :
    (State.placeFrozen s sid b e sh).Sound Q := by
  unfold State.placeFrozen
  repeat' (first | with_reducible assumption | intro _ | with_reducible apply State.tileSeal_sound
                 | with_reducible apply State.writeLoc_sound | with_reducible apply Sound.forN | split)

theorem State.placeInit_sound (s : State) (gs : List (List Byte × List Byte)) (sh : Bool) (hg : s.Sound Q) :
    (State.placeInit s gs sh).Sound Q := by
  unfold State.placeInit
  repeat' (first | with_reducible assumption | intro _ | with_reducible apply State.placeFrozen_sound
                 | with_reducible apply State.placeEntry_sound | with_reducible apply Sound.forEach
                 | with_reducible apply Sound.ite | split)

theorem State.initEntry_sound (s : State) (p : Pull) (plain : List Byte) (hg : s.Sound Q) :
    (State.initEntry s p plain).Sound Q := by
  unfold State.initEntry
  repeat' (first | with_reducible assumption | with_reducible apply State.placeInit_sound
                 | with_reducible apply State.initFail_sound | with_reducible apply State.startPull_sound
                 | with_reducible apply State.dropPull_sound
                 | with_reducible exact Sound.parts (by with_reducible assumption)
                 | with_reducible apply Sound.parts | split | simp only [Sound_mk])

theorem loadInit_sound (p : Path) (win : Nat) (s : State) (hg : s.Sound Q) : (loadInit p win s).Sound Q := by
  unfold loadInit
  repeat' (first | with_reducible assumption | intro _ | with_reducible apply State.initFail_sound
                 | with_reducible apply State.startPull_sound | with_reducible apply State.reject_sound
                 | with_reducible apply Sound.ite | with_reducible exact Sound.parts (by with_reducible assumption)
                 | simp only [Sound_mk])

theorem execLoadInit_sound (p : Path) (win : Nat) (s : State) (hg : s.Sound Q) : OutSound Q
    (execLoadInit p win s) := by
  unfold execLoadInit
  repeat' (first | with_reducible apply ok_sound | with_reducible assumption | with_reducible apply loadInit_sound)

theorem State.pullDone_sound (s : State) (p : Pull) (plain : List Byte) (hg : s.Sound Q) :
    (State.pullDone s p plain).Sound Q := by
  unfold State.pullDone
  repeat' (first | with_reducible assumption | intro _ | with_reducible apply State.initEntry_sound
                 | with_reducible apply State.finish_sound | with_reducible apply State.putOut_sound
                 | with_reducible apply State.retain_sound | with_reducible apply State.dropPull_sound
                 | with_reducible apply State.stN_sound | with_reducible apply State.wr_sound
                 | with_reducible apply Sound.ite | split | simp only [Sound_mk])

theorem State.readData_sound (s : State) (p : Pull) (hg : s.Sound Q) : (State.readData s p).Sound Q := by
  unfold State.readData
  repeat' (first | with_reducible assumption | with_reducible apply State.readEntry_sound
                 | with_reducible apply State.setPull_sound)

theorem State.judgeData_sound (s : State) (p : Pull) (hg : s.Sound Q) : (State.judgeData s p).Sound Q := by
  unfold State.judgeData
  repeat' (first | with_reducible assumption | intro _ | with_reducible apply State.readData_sound
                 | with_reducible apply State.readEntry_sound | with_reducible apply State.setPull_sound
                 | with_reducible apply Sound.ite)

theorem State.beginData_sound (s : State) (p : Pull) (hg : s.Sound Q) : (State.beginData s p).Sound Q := by
  unfold State.beginData
  repeat' (first | with_reducible assumption | intro _ | with_reducible apply State.judgeData_sound
                 | with_reducible apply State.readData_sound | with_reducible apply Sound.ite)

theorem State.judgeCheck_sound (s : State) (p : Pull) (h : List Byte) (hg : s.Sound Q) :
    (State.judgeCheck s p h).Sound Q := by
  unfold State.judgeCheck
  repeat' (first | with_reducible assumption | intro _ | with_reducible apply State.beginData_sound
                 | with_reducible apply State.pullDone_sound | with_reducible apply State.initFail_sound
                 | with_reducible apply State.inputFault_sound | with_reducible apply Sound.ite | split)

theorem State.notPresent_sound (s : State) (p : Pull) (hg : s.Sound Q) : (State.notPresent s p).Sound Q := by
  unfold State.notPresent
  repeat' (first | with_reducible assumption | intro _ | with_reducible apply State.initFail_sound
                 | with_reducible apply State.inputFault_sound | with_reducible apply State.setPull_sound
                 | with_reducible apply Sound.ite)

theorem State.judgeHeader_sound (s : State) (p : Pull) (h : List Byte) (hg : s.Sound Q) :
    (State.judgeHeader s p h).Sound Q := by
  unfold State.judgeHeader
  repeat' (first | with_reducible assumption | intro _ | with_reducible apply State.notPresent_sound
                 | with_reducible apply State.beginData_sound | with_reducible apply State.initFail_sound
                 | with_reducible apply State.inputFault_sound | with_reducible apply Sound.ite)

theorem pull_sound (sid op : Nat) (s : State) (hg : s.Sound Q) : (pull sid op s).Sound Q := by
  unfold pull
  repeat' (first | with_reducible assumption | intro _ | with_reducible apply State.finish_sound
                 | with_reducible apply State.putOut_sound | with_reducible apply State.begin'_sound
                 | with_reducible apply State.startPull_sound | with_reducible apply Sound.ite | split)

theorem execPull_sound (sid op : Nat) (s : State) (hg : s.Sound Q) : OutSound Q (execPull sid op s) := by
  unfold execPull
  repeat' (first | with_reducible apply onUnit_sound | with_reducible assumption | with_reducible apply pull_sound)

theorem State.writeEntry_sound (s : State) (p : Pull) (hg : s.Sound Q) : (State.writeEntry s p).Sound Q := by
  unfold State.writeEntry
  repeat' (first | with_reducible assumption | with_reducible apply State.setPull_sound
                 | with_reducible apply State.issueDma_sound)

theorem push_sound (sid op : Nat) (s : State) (hg : s.Sound Q) : (push sid op s).Sound Q := by
  unfold push
  repeat' (first | with_reducible assumption | intro _ | with_reducible apply State.writeEntry_sound
                 | with_reducible apply State.begin'_sound | with_reducible apply Sound.ite
                 | with_reducible apply Sound.parts | split | simp only [Sound_mk])

theorem execPush_sound (sid op : Nat) (s : State) (hg : s.Sound Q) : OutSound Q (execPush sid op s) := by
  unfold execPush
  repeat' (first | with_reducible apply onUnit_sound | with_reducible assumption | with_reducible apply push_sound)

theorem State.dropDma_sound (s : State) (tag : Nat) (hg : s.Sound Q) : (State.dropDma s tag).Sound Q := by
  unfold State.dropDma
  repeat' (first | with_reducible exact Sound.parts (by with_reducible assumption) | simp only [Sound_mk])

theorem dmaReadData_sound (p : Path) (f : Frame) (s : State) (hg : s.Sound Q) : (dmaReadData p f s).Sound Q := by
  unfold dmaReadData
  repeat' (first | with_reducible assumption | intro _
                 | (fail_if_no_progress extract_lets +onlyGivenNames t; refine (fun (ht : State.Sound Q t) => ?_) ?_; clear_value t; on_goal 2 => (unfold t; clear t))
                 | with_reducible apply State.dropDma_sound | with_reducible apply State.judgeHeader_sound
                 | with_reducible apply State.judgeCheck_sound | with_reducible apply State.judgeData_sound
                 | with_reducible apply State.readData_sound | with_reducible apply State.countBad_sound
                 | with_reducible apply State.recv_sound | with_reducible apply Sound.ite
                 | with_reducible refine Sound.ofFst (by with_reducible assumption) ?_ | split)

theorem execDmaReadData_sound (p : Path) (f : Frame) (s : State) (hg : s.Sound Q) : OutSound Q
    (execDmaReadData p f s) := by
  unfold execDmaReadData
  repeat' (first | with_reducible apply ok_sound | with_reducible assumption | with_reducible apply dmaReadData_sound)

theorem dmaWriteAck_sound (p : Path) (f : Frame) (s : State) (hg : s.Sound Q) : (dmaWriteAck p f s).Sound Q := by
  unfold dmaWriteAck
  repeat' (first | with_reducible assumption | intro _
                 | (fail_if_no_progress extract_lets +onlyGivenNames t; refine (fun (ht : State.Sound Q t) => ?_) ?_; clear_value t; on_goal 2 => (unfold t; clear t))
                 | with_reducible apply State.dropDma_sound | with_reducible apply State.writeEntry_sound
                 | with_reducible apply State.finish_sound | with_reducible apply State.dropPull_sound
                 | with_reducible apply State.countBad_sound | with_reducible apply State.recv_sound
                 | with_reducible apply State.wr_sound | with_reducible apply Sound.ite
                 | with_reducible refine Sound.ofFst (by with_reducible assumption) ?_ | split)

theorem execDmaWriteAck_sound (p : Path) (f : Frame) (s : State) (hg : s.Sound Q) : OutSound Q
    (execDmaWriteAck p f s) := by
  unfold execDmaWriteAck
  repeat' (first | with_reducible apply ok_sound | with_reducible assumption | with_reducible apply dmaWriteAck_sound)

theorem pullBackoffExpiry_sound (sid op : Nat) (s : State) (hg : s.Sound Q) :
    (pullBackoffExpiry sid op s).Sound Q := by
  unfold pullBackoffExpiry
  repeat' (first | with_reducible assumption | with_reducible apply State.readHeader_sound | split)

theorem execPullBackoffExpiry_sound (sid op : Nat) (s : State) (hg : s.Sound Q) : OutSound Q
    (execPullBackoffExpiry sid op s) := by
  unfold execPullBackoffExpiry
  repeat' (first | with_reducible apply onUnit_sound | with_reducible assumption
                 | with_reducible apply pullBackoffExpiry_sound)

theorem State.dmaTimeout_sound (s : State) (d : Dma) (hg : s.Sound Q) : (State.dmaTimeout s d).Sound Q := by
  unfold State.dmaTimeout
  repeat' (first | with_reducible assumption | intro _
                 | (fail_if_no_progress extract_lets +onlyGivenNames t; refine (fun (ht : State.Sound Q t) => ?_) ?_; clear_value t; on_goal 2 => (unfold t; clear t))
                 | with_reducible apply State.dropDma_sound | with_reducible apply State.initFail_sound
                 | with_reducible apply State.setPull_sound | with_reducible apply State.raise_sound
                 | with_reducible apply State.event_sound | with_reducible apply Sound.ite | split)

theorem dmaTmoExpiry_sound (tag : Nat) (s : State) (hg : s.Sound Q) : (dmaTmoExpiry tag s).Sound Q := by
  unfold dmaTmoExpiry
  repeat' (first | with_reducible assumption | intro _
                 | (fail_if_no_progress extract_lets +onlyGivenNames t; refine (fun (ht : State.Sound Q t) => ?_) ?_; clear_value t; on_goal 2 => (unfold t; clear t))
                 | with_reducible apply State.dmaTimeout_sound | with_reducible apply State.dropDma_sound
                 | with_reducible apply State.notPresent_sound | with_reducible apply State.readHeader_sound
                 | with_reducible apply State.sendDma_sound | with_reducible apply State.bump_sound
                 | with_reducible apply Sound.ite | with_reducible exact Sound.parts (by with_reducible assumption)
                 | split | simp only [Sound_mk])

theorem execDmaTmoExpiry_sound (tag : Nat) (s : State) (hg : s.Sound Q) : OutSound Q (execDmaTmoExpiry tag s) := by
  unfold execDmaTmoExpiry
  repeat' (first | with_reducible apply ok_sound | with_reducible assumption
                 | with_reducible apply dmaTmoExpiry_sound)

theorem ctlPullFix_sound (p : Path) (win : Nat) (s : State) (hg : s.Sound Q) : (ctlPullFix p win s).Sound Q := by
  unfold ctlPullFix
  repeat' (first | with_reducible assumption | intro _ | with_reducible apply State.readHeader_sound
                 | with_reducible apply State.reject_sound | with_reducible apply Sound.forEach
                 | with_reducible apply Sound.ite)

theorem execCtlPullFix_sound (p : Path) (win : Nat) (s : State) (hg : s.Sound Q) : OutSound Q
    (execCtlPullFix p win s) := by
  unfold execCtlPullFix
  repeat' (first | with_reducible apply ok_sound | with_reducible assumption | with_reducible apply ctlPullFix_sound)

theorem fixSExpiry_sound (win : Nat) (s : State) (hg : s.Sound Q) : (fixSExpiry win s).Sound Q := by
  unfold fixSExpiry
  repeat' (first | with_reducible assumption | intro _ | with_reducible apply State.partitionFatal_sound
                 | with_reducible apply Sound.forEach
                 | with_reducible exact Sound.parts (by with_reducible assumption) | simp only [Sound_mk])

theorem execFixSExpiry_sound (win : Nat) (s : State) (hg : s.Sound Q) : OutSound Q (execFixSExpiry win s) := by
  unfold execFixSExpiry
  repeat' (first | with_reducible apply ok_sound | with_reducible assumption | with_reducible apply fixSExpiry_sound)

theorem State.resendEvents_sound (s : State) (hg : s.Sound Q) : (State.resendEvents s).Sound Q := by
  unfold State.resendEvents
  repeat' (first | with_reducible assumption | intro _ | with_reducible apply State.sendEvent_sound
                 | with_reducible apply Sound.forEach)

theorem execEventResendTimer_sound (s : State) (hg : s.Sound Q) : OutSound Q (execEventResendTimer s) := by
  unfold execEventResendTimer
  repeat' (first | with_reducible apply ok_sound | with_reducible assumption
                 | with_reducible apply State.resendEvents_sound)

theorem State.reportLost_sound (s : State) (hg : s.Sound Q) : (State.reportLost s).Sound Q := by
  unfold State.reportLost
  repeat' (first | with_reducible assumption | intro _ | with_reducible apply State.event_sound
                 | with_reducible apply Sound.ite | with_reducible exact Sound.parts (by with_reducible assumption)
                 | simp only [Sound_mk])

theorem eventAck_sound (p : Path) (f : Frame) (s : State) (hg : s.Sound Q) : (eventAck p f s).Sound Q := by
  unfold eventAck
  repeat' (first | with_reducible assumption | intro _ | with_reducible apply State.reportLost_sound
                 | with_reducible apply State.recv_sound | with_reducible apply State.wr_sound
                 | with_reducible apply Sound.ite | with_reducible apply Sound.parts
                 | with_reducible refine Sound.ofFst (by with_reducible assumption) ?_ | split
                 | simp only [Sound_mk])

theorem execEventAck_sound (p : Path) (f : Frame) (s : State) (hg : s.Sound Q) : OutSound Q (execEventAck p f s) := by
  unfold execEventAck
  repeat' (first | with_reducible apply ok_sound | with_reducible assumption | with_reducible apply eventAck_sound)

theorem State.exchangeKeys_sound (s : State) (p : Path) (f : Frame) (hg : s.Sound Q) :
    (State.exchangeKeys s p f).Sound Q := by
  unfold State.exchangeKeys
  repeat' (first | with_reducible assumption | intro _ | with_reducible apply State.resendEvents_sound
                 | with_reducible apply State.dropDma_sound | with_reducible apply State.writeEntry_sound
                 | with_reducible apply State.sendDma_sound | with_reducible apply State.setCpStatus_sound
                 | with_reducible apply State.sendFrame_sound | with_reducible apply Sound.forEach
                 | with_reducible apply Sound.ite | with_reducible exact Sound.parts (by with_reducible assumption)
                 | with_reducible apply Sound.parts | split | simp only [Sound_mk])

theorem keyExchange_sound (p : Path) (f : Frame) (s : State) (hg : s.Sound Q) : (keyExchange p f s).Sound Q := by
  unfold keyExchange
  repeat' (first | with_reducible assumption | intro _ | with_reducible apply State.exchangeKeys_sound
                 | with_reducible apply State.recv_sound | with_reducible apply State.sendFrame_sound
                 | with_reducible apply Sound.ite | with_reducible apply Sound.parts
                 | with_reducible refine Sound.ofFst (by with_reducible assumption) ?_ | split
                 | simp only [Sound_mk])

theorem execKeyExchange_sound (p : Path) (f : Frame) (s : State) (hg : s.Sound Q) : OutSound Q
    (execKeyExchange p f s) := by
  unfold execKeyExchange
  repeat' (first | with_reducible apply ok_sound | with_reducible assumption | with_reducible apply keyExchange_sound)

theorem keyExchangeTimeout_sound (s : State) (hg : s.Sound Q) : (keyExchangeTimeout s).Sound Q := by
  unfold keyExchangeTimeout
  repeat' (first | with_reducible assumption | with_reducible apply State.bump_sound
                 | with_reducible exact Sound.parts (by with_reducible assumption) | split | simp only [Sound_mk])

theorem execKeyExchangeTimeout_sound (s : State) (hg : s.Sound Q) : OutSound Q (execKeyExchangeTimeout s) := by
  unfold execKeyExchangeTimeout
  repeat' (first | with_reducible apply ok_sound | with_reducible assumption
                 | with_reducible apply keyExchangeTimeout_sound)

theorem frameCounterLimit_sound (s : State) (hg : s.Sound Q) : (frameCounterLimit s).Sound Q := by
  unfold frameCounterLimit
  repeat' (first | with_reducible assumption | intro _ | with_reducible apply State.endSession_sound
                 | with_reducible apply Sound.ite | split)

theorem execFrameCounterLimit_sound (s : State) (hg : s.Sound Q) : OutSound Q (execFrameCounterLimit s) := by
  unfold execFrameCounterLimit
  repeat' (first | with_reducible apply ok_sound | with_reducible assumption
                 | with_reducible apply frameCounterLimit_sound)

/-! ## Control -/

theorem regRead_sound (p : Path) (f : Frame) (s : State) (hg : s.Sound Q) : (regRead p f s).Sound Q := by
  unfold regRead
  repeat' (first | with_reducible assumption | intro _ | with_reducible apply State.recv_sound
                 | with_reducible apply State.respond_sound | with_reducible apply Sound.ite
                 | with_reducible apply Sound.parts
                 | with_reducible refine Sound.ofFst (by with_reducible assumption) ?_ | split
                 | simp only [Sound_mk])

theorem execRegRead_sound (p : Path) (f : Frame) (s : State) (hg : s.Sound Q) : OutSound Q (execRegRead p f s) := by
  unfold execRegRead
  repeat' (first | with_reducible apply ok_sound | with_reducible assumption | with_reducible apply regRead_sound)

theorem State.viaReg_sound (s : State) (home : Nat × Nat) (die blk off : Nat) (act : State → State)
    (ha : ∀ t, t.Sound Q → (act t).Sound Q) (h : s.Sound Q) : (State.viaReg s home die blk off act).st.Sound Q := by
  have ht := ha _ (State.setField_sound s home.1 home.2 0x010 48 16 0 h)
  unfold State.viaReg
  dsimp only
  generalize act (s.setField home.1 home.2 0x010 48 16 0) = t at ht
  split
  · exact State.reject_sound _ _ _ _ _ (State.wr_sound _ _ _ _ _ ht)
  · split
    · exact ht
    · exact State.wr_sound _ _ _ _ _ ht

/-- The commands that registers carry keep the maps canonical. -/
def ActsSound (Q : List Instr) (o : Option ((Nat × Nat) × (State → State))) : Prop :=
  ∀ x, o = some x → ∀ t, t.Sound Q → (x.2 t).Sound Q

theorem ActsSound.ite {c : Prop} [Decidable c] {a b : Option ((Nat × Nat) × (State → State))} (ha : ActsSound Q a)
    (hb : ActsSound Q b) : ActsSound Q (if c then a else b) := by
  split
  · exact ha
  · exact hb

theorem ActsSound.none : ActsSound Q none := fun _ e => nomatch e

theorem ActsSound.some {n : Nat × Nat} {f : State → State} (hf : ∀ t, t.Sound Q → (f t).Sound Q) :
    ActsSound Q (some (n, f)) := by
  intro x e
  cases e
  exact hf

theorem State.brzEdge_sound (s : State) (die blk : Nat) (old v : Word) (hg : s.Sound Q) :
    (State.brzEdge s die blk old v).Sound Q := by
  unfold State.brzEdge
  repeat' (first | with_reducible assumption | intro _ | with_reducible apply State.healthChanged_sound
                 | with_reducible apply brzDisable_sound | with_reducible apply brzEnable_sound
                 | with_reducible apply Sound.ite)

theorem State.flagsCleared_sound (s : State) (die blk ty off : Nat) (hg : s.Sound Q) :
    (State.flagsCleared s die blk ty off).Sound Q := by
  unfold State.flagsCleared
  repeat' (first | with_reducible assumption | intro _ | with_reducible apply State.setField_sound
                 | with_reducible apply Sound.ite | split)

theorem State.afterWrite_sound (s : State) (die blk ty off : Nat) (old v : Word) (hg : s.Sound Q) :
    (State.afterWrite s die blk ty off old v).Sound Q := by
  unfold State.afterWrite
  repeat' (first | with_reducible assumption | intro _ | with_reducible apply State.flagsCleared_sound
                 | with_reducible apply State.brzEdge_sound | with_reducible apply State.mapWritten_sound
                 | with_reducible apply State.trainStack_sound | with_reducible apply Sound.ite)

theorem State.clearRej_sound (s : State) (die blk : Nat) (v : Word) (hg : s.Sound Q) :
    (State.clearRej s die blk v).Sound Q := by
  unfold State.clearRej
  repeat' (first | with_reducible assumption | intro _ | with_reducible apply State.setField_sound
                 | with_reducible apply Sound.ite)

theorem State.secCtl_sound (s : State) (p : Path) (v : Word) (hg : s.Sound Q) : (State.secCtl s p v).st.Sound Q := by
  unfold State.secCtl
  repeat' (first | with_reducible assumption | intro _
                 | (fail_if_no_progress extract_lets +onlyGivenNames t; refine (fun (ht : State.Sound Q t) => ?_) ?_; clear_value t; on_goal 2 => (unfold t; clear t))
                 | with_reducible apply State.viaReg_sound | with_reducible apply debugLock_sound
                 | with_reducible apply apply_sound | with_reducible apply State.setField_sound | split
                 | simp only [Sound_mk])

theorem State.regCommand_sound (s : State) (p : Path) (die ty off : Nat) (v : Word) :
    ActsSound Q (s.regCommand p die ty off v) := by
  unfold State.regCommand
  repeat' (first | with_reducible assumption | with_reducible apply ActsSound.ite
                 | with_reducible exact ActsSound.none | with_reducible apply ActsSound.some | intro _
                 | with_reducible apply plnLoadBegin_sound | with_reducible apply plnLoadCommit_sound
                 | with_reducible apply plnLoadDiscard_sound | with_reducible apply State.cancelSwap_sound
                 | with_reducible apply swapReq_sound | with_reducible apply stuLoopStart_sound
                 | with_reducible apply routeWrite_sound | with_reducible apply engSvcWrite_sound
                 | with_reducible apply ctlPullFix_sound | with_reducible apply cxlRetrain_sound
                 | with_reducible apply State.ctlReject_sound | with_reducible apply genesisWrite_sound
                 | with_reducible apply endJob_sound | with_reducible apply replayJob_sound
                 | with_reducible apply State.ldgReject_sound | with_reducible apply ldgDeferStore_sound
                 | with_reducible apply restoreWrite_sound | with_reducible apply loadInit_sound
                 | with_reducible apply fltClaim_sound | with_reducible apply fltDone_sound
                 | with_reducible apply fltRelease_sound | with_reducible apply fltAryRel_sound
                 | with_reducible apply sleepReq_sound | with_reducible apply State.wakeModule_sound
                 | with_reducible apply State.reject_sound | with_reducible apply Sound.ite | split)

theorem State.writeReg_sound (s : State) (p : Path) (die blk off : Nat) (v : Word) (h : s.Sound Q) :
    (State.writeReg s p die blk off v).st.Sound Q := by
  unfold State.writeReg
  dsimp only
  split
  · dsimp only
    split
    · exact engSvcWrite_sound _ _ _ _ h
    · exact State.reject_sound _ _ _ _ _ h
  · split
    · exact State.clearRej_sound _ _ _ _ h
    · split
      · exact State.blkCtl_sound _ _ _ _ h
      · split
        · exact State.secCtl_sound _ _ _ h
        · split
          · next e => exact State.viaReg_sound _ _ _ _ _ _ (State.regCommand_sound _ _ _ _ _ _ _ e) h
          · split
            · exact h
            · split
              · exact State.setReg_sound _ _ _ h
              · split
                · exact State.fwXlat_sound _ _ _ h
                · exact State.afterWrite_sound _ _ _ _ _ _ _ (State.wr_sound _ _ _ _ _ h)

theorem State.writeRegs_sound (s : State) (p : Path) (die blk off : Nat) (vs : List Word) (i bits : Nat) (na : Bool)
    (h : s.Sound Q) : (State.writeRegs s p die blk off vs i bits na).1.Sound Q := by
  induction vs generalizing s i bits na with
  | nil => exact h
  | cons v vs ih => exact ih _ _ _ _ (State.writeReg_sound _ _ _ _ _ _ h)

theorem regWrite_sound (p : Path) (f : Frame) (s : State) (h : s.Sound Q) : (regWrite p f s).Sound Q := by
  have hr := State.recv_sound s p f 2 h
  unfold regWrite
  generalize s.recv p f 2 = x at hr
  obtain ⟨t, g⟩ := x
  cases g with
  | none => exact hr
  | some g =>
    refine Sound.ite (fun _ => State.respond_sound _ _ _ _ _ _ hr) (fun _ => Sound.ite (fun _ => State.respond_sound _ _ _ _ _ _ hr)
      (fun _ => Sound.ite (fun _ => State.respond_sound _ _ _ _ _ _ hr) (fun _ => ?_)))
    exact State.respond_sound _ _ _ _ _ _ (State.writeRegs_sound _ _ _ _ _ _ _ _ _ hr)

theorem execRegWrite_sound (p : Path) (f : Frame) (s : State) (hg : s.Sound Q) : OutSound Q (execRegWrite p f s) := by
  unfold execRegWrite
  repeat' (first | with_reducible apply ok_sound | with_reducible assumption | with_reducible apply regWrite_sound)

end Sys2Proof.Machine
end

