-- ==== Sys2Proof/Laws/State.lean ====
section
/-!
SUPPORT. What each update of the state leaves alone, one lemma per field and update, and what a read finds after a write.
-/

namespace Sys2Proof.Machine

/-! ## setReg changes regs only -/

@[simp] theorem State.setReg_plan (s : State) (a : Nat) (v : Word) : (s.setReg a v).plan = s.plan := rfl
@[simp] theorem State.setReg_slots (s : State) (a : Nat) (v : Word) : (s.setReg a v).slots = s.slots := rfl
@[simp] theorem State.setReg_syn (s : State) (a : Nat) (v : Word) : (s.setReg a v).syn = s.syn := rfl
@[simp] theorem State.setReg_net (s : State) (a : Nat) (v : Word) : (s.setReg a v).net = s.net := rfl
@[simp] theorem State.setReg_ctl (s : State) (a : Nat) (v : Word) : (s.setReg a v).ctl = s.ctl := rfl
@[simp] theorem State.setReg_flt (s : State) (a : Nat) (v : Word) : (s.setReg a v).flt = s.flt := rfl
@[simp] theorem State.setReg_ldg (s : State) (a : Nat) (v : Word) : (s.setReg a v).ldg = s.ldg := rfl
@[simp] theorem State.setReg_ckp (s : State) (a : Nat) (v : Word) : (s.setReg a v).ckp = s.ckp := rfl
@[simp] theorem State.setReg_units (s : State) (a : Nat) (v : Word) : (s.setReg a v).units = s.units := rfl
@[simp] theorem State.setReg_mem (s : State) (a : Nat) (v : Word) : (s.setReg a v).mem = s.mem := rfl
@[simp] theorem State.setReg_link (s : State) (a : Nat) (v : Word) : (s.setReg a v).link = s.link := rfl
@[simp] theorem State.setReg_pwr (s : State) (a : Nat) (v : Word) : (s.setReg a v).pwr = s.pwr := rfl
@[simp] theorem State.setReg_sec (s : State) (a : Nat) (v : Word) : (s.setReg a v).sec = s.sec := rfl
@[simp] theorem State.setReg_stu (s : State) (a : Nat) (v : Word) : (s.setReg a v).stu = s.stu := rfl
@[simp] theorem State.setReg_sent (s : State) (a : Nat) (v : Word) : (s.setReg a v).sent = s.sent := rfl
@[simp] theorem State.setReg_free (s : State) (a : Nat) (v : Word) : (s.setReg a v).free = s.free := rfl
@[simp] theorem State.setReg_pending (s : State) (a : Nat) (v : Word) : (s.setReg a v).pending = s.pending := rfl

/-! ## dropRegs changes regs only -/

@[simp] theorem State.dropRegs_plan (s : State) (f : Nat → Bool) : (s.dropRegs f).plan = s.plan := rfl
@[simp] theorem State.dropRegs_slots (s : State) (f : Nat → Bool) : (s.dropRegs f).slots = s.slots := rfl
@[simp] theorem State.dropRegs_syn (s : State) (f : Nat → Bool) : (s.dropRegs f).syn = s.syn := rfl
@[simp] theorem State.dropRegs_net (s : State) (f : Nat → Bool) : (s.dropRegs f).net = s.net := rfl
@[simp] theorem State.dropRegs_ctl (s : State) (f : Nat → Bool) : (s.dropRegs f).ctl = s.ctl := rfl
@[simp] theorem State.dropRegs_flt (s : State) (f : Nat → Bool) : (s.dropRegs f).flt = s.flt := rfl
@[simp] theorem State.dropRegs_ldg (s : State) (f : Nat → Bool) : (s.dropRegs f).ldg = s.ldg := rfl
@[simp] theorem State.dropRegs_ckp (s : State) (f : Nat → Bool) : (s.dropRegs f).ckp = s.ckp := rfl
@[simp] theorem State.dropRegs_units (s : State) (f : Nat → Bool) : (s.dropRegs f).units = s.units := rfl
@[simp] theorem State.dropRegs_mem (s : State) (f : Nat → Bool) : (s.dropRegs f).mem = s.mem := rfl
@[simp] theorem State.dropRegs_link (s : State) (f : Nat → Bool) : (s.dropRegs f).link = s.link := rfl
@[simp] theorem State.dropRegs_pwr (s : State) (f : Nat → Bool) : (s.dropRegs f).pwr = s.pwr := rfl
@[simp] theorem State.dropRegs_sec (s : State) (f : Nat → Bool) : (s.dropRegs f).sec = s.sec := rfl
@[simp] theorem State.dropRegs_stu (s : State) (f : Nat → Bool) : (s.dropRegs f).stu = s.stu := rfl
@[simp] theorem State.dropRegs_sent (s : State) (f : Nat → Bool) : (s.dropRegs f).sent = s.sent := rfl
@[simp] theorem State.dropRegs_free (s : State) (f : Nat → Bool) : (s.dropRegs f).free = s.free := rfl
@[simp] theorem State.dropRegs_pending (s : State) (f : Nat → Bool) : (s.dropRegs f).pending = s.pending := rfl

/-! ## wr changes regs only -/

@[simp] theorem State.wr_plan (s : State) (die blk off : Nat) (v : Word) : (s.wr die blk off v).plan = s.plan := rfl
@[simp] theorem State.wr_slots (s : State) (die blk off : Nat) (v : Word) : (s.wr die blk off v).slots = s.slots := rfl
@[simp] theorem State.wr_syn (s : State) (die blk off : Nat) (v : Word) : (s.wr die blk off v).syn = s.syn := rfl
@[simp] theorem State.wr_net (s : State) (die blk off : Nat) (v : Word) : (s.wr die blk off v).net = s.net := rfl
@[simp] theorem State.wr_ctl (s : State) (die blk off : Nat) (v : Word) : (s.wr die blk off v).ctl = s.ctl := rfl
@[simp] theorem State.wr_flt (s : State) (die blk off : Nat) (v : Word) : (s.wr die blk off v).flt = s.flt := rfl
@[simp] theorem State.wr_ldg (s : State) (die blk off : Nat) (v : Word) : (s.wr die blk off v).ldg = s.ldg := rfl
@[simp] theorem State.wr_ckp (s : State) (die blk off : Nat) (v : Word) : (s.wr die blk off v).ckp = s.ckp := rfl
@[simp] theorem State.wr_units (s : State) (die blk off : Nat) (v : Word) : (s.wr die blk off v).units = s.units := rfl
@[simp] theorem State.wr_mem (s : State) (die blk off : Nat) (v : Word) : (s.wr die blk off v).mem = s.mem := rfl
@[simp] theorem State.wr_link (s : State) (die blk off : Nat) (v : Word) : (s.wr die blk off v).link = s.link := rfl
@[simp] theorem State.wr_pwr (s : State) (die blk off : Nat) (v : Word) : (s.wr die blk off v).pwr = s.pwr := rfl
@[simp] theorem State.wr_sec (s : State) (die blk off : Nat) (v : Word) : (s.wr die blk off v).sec = s.sec := rfl
@[simp] theorem State.wr_stu (s : State) (die blk off : Nat) (v : Word) : (s.wr die blk off v).stu = s.stu := rfl
@[simp] theorem State.wr_sent (s : State) (die blk off : Nat) (v : Word) : (s.wr die blk off v).sent = s.sent := rfl
@[simp] theorem State.wr_free (s : State) (die blk off : Nat) (v : Word) : (s.wr die blk off v).free = s.free := rfl
@[simp] theorem State.wr_pending (s : State) (die blk off : Nat) (v : Word) : (s.wr die blk off v).pending = s.pending := rfl

/-! ## setField changes regs only -/

@[simp] theorem State.setField_plan (s : State) (die blk off hi lo v : Nat) : (s.setField die blk off hi lo v).plan = s.plan := rfl
@[simp] theorem State.setField_slots (s : State) (die blk off hi lo v : Nat) : (s.setField die blk off hi lo v).slots = s.slots := rfl
@[simp] theorem State.setField_syn (s : State) (die blk off hi lo v : Nat) : (s.setField die blk off hi lo v).syn = s.syn := rfl
@[simp] theorem State.setField_net (s : State) (die blk off hi lo v : Nat) : (s.setField die blk off hi lo v).net = s.net := rfl
@[simp] theorem State.setField_ctl (s : State) (die blk off hi lo v : Nat) : (s.setField die blk off hi lo v).ctl = s.ctl := rfl
@[simp] theorem State.setField_flt (s : State) (die blk off hi lo v : Nat) : (s.setField die blk off hi lo v).flt = s.flt := rfl
@[simp] theorem State.setField_ldg (s : State) (die blk off hi lo v : Nat) : (s.setField die blk off hi lo v).ldg = s.ldg := rfl
@[simp] theorem State.setField_ckp (s : State) (die blk off hi lo v : Nat) : (s.setField die blk off hi lo v).ckp = s.ckp := rfl
@[simp] theorem State.setField_units (s : State) (die blk off hi lo v : Nat) : (s.setField die blk off hi lo v).units = s.units := rfl
@[simp] theorem State.setField_mem (s : State) (die blk off hi lo v : Nat) : (s.setField die blk off hi lo v).mem = s.mem := rfl
@[simp] theorem State.setField_link (s : State) (die blk off hi lo v : Nat) : (s.setField die blk off hi lo v).link = s.link := rfl
@[simp] theorem State.setField_pwr (s : State) (die blk off hi lo v : Nat) : (s.setField die blk off hi lo v).pwr = s.pwr := rfl
@[simp] theorem State.setField_sec (s : State) (die blk off hi lo v : Nat) : (s.setField die blk off hi lo v).sec = s.sec := rfl
@[simp] theorem State.setField_stu (s : State) (die blk off hi lo v : Nat) : (s.setField die blk off hi lo v).stu = s.stu := rfl
@[simp] theorem State.setField_sent (s : State) (die blk off hi lo v : Nat) : (s.setField die blk off hi lo v).sent = s.sent := rfl
@[simp] theorem State.setField_free (s : State) (die blk off hi lo v : Nat) : (s.setField die blk off hi lo v).free = s.free := rfl
@[simp] theorem State.setField_pending (s : State) (die blk off hi lo v : Nat) : (s.setField die blk off hi lo v).pending = s.pending := rfl

/-! ## bump changes regs only -/

@[simp] theorem State.bump_plan (s : State) (die blk off n : Nat) : (s.bump die blk off n).plan = s.plan := rfl
@[simp] theorem State.bump_slots (s : State) (die blk off n : Nat) : (s.bump die blk off n).slots = s.slots := rfl
@[simp] theorem State.bump_syn (s : State) (die blk off n : Nat) : (s.bump die blk off n).syn = s.syn := rfl
@[simp] theorem State.bump_net (s : State) (die blk off n : Nat) : (s.bump die blk off n).net = s.net := rfl
@[simp] theorem State.bump_ctl (s : State) (die blk off n : Nat) : (s.bump die blk off n).ctl = s.ctl := rfl
@[simp] theorem State.bump_flt (s : State) (die blk off n : Nat) : (s.bump die blk off n).flt = s.flt := rfl
@[simp] theorem State.bump_ldg (s : State) (die blk off n : Nat) : (s.bump die blk off n).ldg = s.ldg := rfl
@[simp] theorem State.bump_ckp (s : State) (die blk off n : Nat) : (s.bump die blk off n).ckp = s.ckp := rfl
@[simp] theorem State.bump_units (s : State) (die blk off n : Nat) : (s.bump die blk off n).units = s.units := rfl
@[simp] theorem State.bump_mem (s : State) (die blk off n : Nat) : (s.bump die blk off n).mem = s.mem := rfl
@[simp] theorem State.bump_link (s : State) (die blk off n : Nat) : (s.bump die blk off n).link = s.link := rfl
@[simp] theorem State.bump_pwr (s : State) (die blk off n : Nat) : (s.bump die blk off n).pwr = s.pwr := rfl
@[simp] theorem State.bump_sec (s : State) (die blk off n : Nat) : (s.bump die blk off n).sec = s.sec := rfl
@[simp] theorem State.bump_stu (s : State) (die blk off n : Nat) : (s.bump die blk off n).stu = s.stu := rfl
@[simp] theorem State.bump_sent (s : State) (die blk off n : Nat) : (s.bump die blk off n).sent = s.sent := rfl
@[simp] theorem State.bump_free (s : State) (die blk off n : Nat) : (s.bump die blk off n).free = s.free := rfl
@[simp] theorem State.bump_pending (s : State) (die blk off n : Nat) : (s.bump die blk off n).pending = s.pending := rfl

/-! ## setSlot changes slots only -/

@[simp] theorem State.setSlot_regs (s : State) (sid : Nat) (r : SlotRun) : (s.setSlot sid r).regs = s.regs := rfl
@[simp] theorem State.setSlot_plan (s : State) (sid : Nat) (r : SlotRun) : (s.setSlot sid r).plan = s.plan := rfl
@[simp] theorem State.setSlot_syn (s : State) (sid : Nat) (r : SlotRun) : (s.setSlot sid r).syn = s.syn := rfl
@[simp] theorem State.setSlot_net (s : State) (sid : Nat) (r : SlotRun) : (s.setSlot sid r).net = s.net := rfl
@[simp] theorem State.setSlot_ctl (s : State) (sid : Nat) (r : SlotRun) : (s.setSlot sid r).ctl = s.ctl := rfl
@[simp] theorem State.setSlot_flt (s : State) (sid : Nat) (r : SlotRun) : (s.setSlot sid r).flt = s.flt := rfl
@[simp] theorem State.setSlot_ldg (s : State) (sid : Nat) (r : SlotRun) : (s.setSlot sid r).ldg = s.ldg := rfl
@[simp] theorem State.setSlot_ckp (s : State) (sid : Nat) (r : SlotRun) : (s.setSlot sid r).ckp = s.ckp := rfl
@[simp] theorem State.setSlot_units (s : State) (sid : Nat) (r : SlotRun) : (s.setSlot sid r).units = s.units := rfl
@[simp] theorem State.setSlot_mem (s : State) (sid : Nat) (r : SlotRun) : (s.setSlot sid r).mem = s.mem := rfl
@[simp] theorem State.setSlot_link (s : State) (sid : Nat) (r : SlotRun) : (s.setSlot sid r).link = s.link := rfl
@[simp] theorem State.setSlot_pwr (s : State) (sid : Nat) (r : SlotRun) : (s.setSlot sid r).pwr = s.pwr := rfl
@[simp] theorem State.setSlot_sec (s : State) (sid : Nat) (r : SlotRun) : (s.setSlot sid r).sec = s.sec := rfl
@[simp] theorem State.setSlot_stu (s : State) (sid : Nat) (r : SlotRun) : (s.setSlot sid r).stu = s.stu := rfl
@[simp] theorem State.setSlot_sent (s : State) (sid : Nat) (r : SlotRun) : (s.setSlot sid r).sent = s.sent := rfl
@[simp] theorem State.setSlot_free (s : State) (sid : Nat) (r : SlotRun) : (s.setSlot sid r).free = s.free := rfl
@[simp] theorem State.setSlot_pending (s : State) (sid : Nat) (r : SlotRun) : (s.setSlot sid r).pending = s.pending := rfl

/-! ## setOp changes slots only -/

@[simp] theorem State.setOp_regs (s : State) (sid op : Nat) (r : OpRun) : (s.setOp sid op r).regs = s.regs := rfl
@[simp] theorem State.setOp_plan (s : State) (sid op : Nat) (r : OpRun) : (s.setOp sid op r).plan = s.plan := rfl
@[simp] theorem State.setOp_syn (s : State) (sid op : Nat) (r : OpRun) : (s.setOp sid op r).syn = s.syn := rfl
@[simp] theorem State.setOp_net (s : State) (sid op : Nat) (r : OpRun) : (s.setOp sid op r).net = s.net := rfl
@[simp] theorem State.setOp_ctl (s : State) (sid op : Nat) (r : OpRun) : (s.setOp sid op r).ctl = s.ctl := rfl
@[simp] theorem State.setOp_flt (s : State) (sid op : Nat) (r : OpRun) : (s.setOp sid op r).flt = s.flt := rfl
@[simp] theorem State.setOp_ldg (s : State) (sid op : Nat) (r : OpRun) : (s.setOp sid op r).ldg = s.ldg := rfl
@[simp] theorem State.setOp_ckp (s : State) (sid op : Nat) (r : OpRun) : (s.setOp sid op r).ckp = s.ckp := rfl
@[simp] theorem State.setOp_units (s : State) (sid op : Nat) (r : OpRun) : (s.setOp sid op r).units = s.units := rfl
@[simp] theorem State.setOp_mem (s : State) (sid op : Nat) (r : OpRun) : (s.setOp sid op r).mem = s.mem := rfl
@[simp] theorem State.setOp_link (s : State) (sid op : Nat) (r : OpRun) : (s.setOp sid op r).link = s.link := rfl
@[simp] theorem State.setOp_pwr (s : State) (sid op : Nat) (r : OpRun) : (s.setOp sid op r).pwr = s.pwr := rfl
@[simp] theorem State.setOp_sec (s : State) (sid op : Nat) (r : OpRun) : (s.setOp sid op r).sec = s.sec := rfl
@[simp] theorem State.setOp_stu (s : State) (sid op : Nat) (r : OpRun) : (s.setOp sid op r).stu = s.stu := rfl
@[simp] theorem State.setOp_sent (s : State) (sid op : Nat) (r : OpRun) : (s.setOp sid op r).sent = s.sent := rfl
@[simp] theorem State.setOp_free (s : State) (sid op : Nat) (r : OpRun) : (s.setOp sid op r).free = s.free := rfl
@[simp] theorem State.setOp_pending (s : State) (sid op : Nat) (r : OpRun) : (s.setOp sid op r).pending = s.pending := rfl

/-! ## setStack changes mem only -/

@[simp] theorem State.setStack_regs (s : State) (m : SMap Byte) : (s.setStack m).regs = s.regs := rfl
@[simp] theorem State.setStack_plan (s : State) (m : SMap Byte) : (s.setStack m).plan = s.plan := rfl
@[simp] theorem State.setStack_slots (s : State) (m : SMap Byte) : (s.setStack m).slots = s.slots := rfl
@[simp] theorem State.setStack_syn (s : State) (m : SMap Byte) : (s.setStack m).syn = s.syn := rfl
@[simp] theorem State.setStack_net (s : State) (m : SMap Byte) : (s.setStack m).net = s.net := rfl
@[simp] theorem State.setStack_ctl (s : State) (m : SMap Byte) : (s.setStack m).ctl = s.ctl := rfl
@[simp] theorem State.setStack_flt (s : State) (m : SMap Byte) : (s.setStack m).flt = s.flt := rfl
@[simp] theorem State.setStack_ldg (s : State) (m : SMap Byte) : (s.setStack m).ldg = s.ldg := rfl
@[simp] theorem State.setStack_ckp (s : State) (m : SMap Byte) : (s.setStack m).ckp = s.ckp := rfl
@[simp] theorem State.setStack_units (s : State) (m : SMap Byte) : (s.setStack m).units = s.units := rfl
@[simp] theorem State.setStack_link (s : State) (m : SMap Byte) : (s.setStack m).link = s.link := rfl
@[simp] theorem State.setStack_pwr (s : State) (m : SMap Byte) : (s.setStack m).pwr = s.pwr := rfl
@[simp] theorem State.setStack_sec (s : State) (m : SMap Byte) : (s.setStack m).sec = s.sec := rfl
@[simp] theorem State.setStack_stu (s : State) (m : SMap Byte) : (s.setStack m).stu = s.stu := rfl
@[simp] theorem State.setStack_sent (s : State) (m : SMap Byte) : (s.setStack m).sent = s.sent := rfl
@[simp] theorem State.setStack_free (s : State) (m : SMap Byte) : (s.setStack m).free = s.free := rfl
@[simp] theorem State.setStack_pending (s : State) (m : SMap Byte) : (s.setStack m).pending = s.pending := rfl

/-! ## st changes mem only -/

@[simp] theorem State.st_regs (s : State) (pa : Nat) (b : Byte) : (s.st pa b).regs = s.regs := rfl
@[simp] theorem State.st_plan (s : State) (pa : Nat) (b : Byte) : (s.st pa b).plan = s.plan := rfl
@[simp] theorem State.st_slots (s : State) (pa : Nat) (b : Byte) : (s.st pa b).slots = s.slots := rfl
@[simp] theorem State.st_syn (s : State) (pa : Nat) (b : Byte) : (s.st pa b).syn = s.syn := rfl
@[simp] theorem State.st_net (s : State) (pa : Nat) (b : Byte) : (s.st pa b).net = s.net := rfl
@[simp] theorem State.st_ctl (s : State) (pa : Nat) (b : Byte) : (s.st pa b).ctl = s.ctl := rfl
@[simp] theorem State.st_flt (s : State) (pa : Nat) (b : Byte) : (s.st pa b).flt = s.flt := rfl
@[simp] theorem State.st_ldg (s : State) (pa : Nat) (b : Byte) : (s.st pa b).ldg = s.ldg := rfl
@[simp] theorem State.st_ckp (s : State) (pa : Nat) (b : Byte) : (s.st pa b).ckp = s.ckp := rfl
@[simp] theorem State.st_units (s : State) (pa : Nat) (b : Byte) : (s.st pa b).units = s.units := rfl
@[simp] theorem State.st_link (s : State) (pa : Nat) (b : Byte) : (s.st pa b).link = s.link := rfl
@[simp] theorem State.st_pwr (s : State) (pa : Nat) (b : Byte) : (s.st pa b).pwr = s.pwr := rfl
@[simp] theorem State.st_sec (s : State) (pa : Nat) (b : Byte) : (s.st pa b).sec = s.sec := rfl
@[simp] theorem State.st_stu (s : State) (pa : Nat) (b : Byte) : (s.st pa b).stu = s.stu := rfl
@[simp] theorem State.st_sent (s : State) (pa : Nat) (b : Byte) : (s.st pa b).sent = s.sent := rfl
@[simp] theorem State.st_free (s : State) (pa : Nat) (b : Byte) : (s.st pa b).free = s.free := rfl
@[simp] theorem State.st_pending (s : State) (pa : Nat) (b : Byte) : (s.st pa b).pending = s.pending := rfl

/-! ## send changes sent only -/

@[simp] theorem State.send_regs (s : State) (x : Sent) : (s.send x).regs = s.regs := rfl
@[simp] theorem State.send_plan (s : State) (x : Sent) : (s.send x).plan = s.plan := rfl
@[simp] theorem State.send_slots (s : State) (x : Sent) : (s.send x).slots = s.slots := rfl
@[simp] theorem State.send_syn (s : State) (x : Sent) : (s.send x).syn = s.syn := rfl
@[simp] theorem State.send_net (s : State) (x : Sent) : (s.send x).net = s.net := rfl
@[simp] theorem State.send_ctl (s : State) (x : Sent) : (s.send x).ctl = s.ctl := rfl
@[simp] theorem State.send_flt (s : State) (x : Sent) : (s.send x).flt = s.flt := rfl
@[simp] theorem State.send_ldg (s : State) (x : Sent) : (s.send x).ldg = s.ldg := rfl
@[simp] theorem State.send_ckp (s : State) (x : Sent) : (s.send x).ckp = s.ckp := rfl
@[simp] theorem State.send_units (s : State) (x : Sent) : (s.send x).units = s.units := rfl
@[simp] theorem State.send_mem (s : State) (x : Sent) : (s.send x).mem = s.mem := rfl
@[simp] theorem State.send_link (s : State) (x : Sent) : (s.send x).link = s.link := rfl
@[simp] theorem State.send_pwr (s : State) (x : Sent) : (s.send x).pwr = s.pwr := rfl
@[simp] theorem State.send_sec (s : State) (x : Sent) : (s.send x).sec = s.sec := rfl
@[simp] theorem State.send_stu (s : State) (x : Sent) : (s.send x).stu = s.stu := rfl
@[simp] theorem State.send_free (s : State) (x : Sent) : (s.send x).free = s.free := rfl
@[simp] theorem State.send_pending (s : State) (x : Sent) : (s.send x).pending = s.pending := rfl

/-! ## setPort changes link only -/

@[simp] theorem State.setPort_regs (s : State) (p : Nat) (x : PortState) : (s.setPort p x).regs = s.regs := rfl
@[simp] theorem State.setPort_plan (s : State) (p : Nat) (x : PortState) : (s.setPort p x).plan = s.plan := rfl
@[simp] theorem State.setPort_slots (s : State) (p : Nat) (x : PortState) : (s.setPort p x).slots = s.slots := rfl
@[simp] theorem State.setPort_syn (s : State) (p : Nat) (x : PortState) : (s.setPort p x).syn = s.syn := rfl
@[simp] theorem State.setPort_net (s : State) (p : Nat) (x : PortState) : (s.setPort p x).net = s.net := rfl
@[simp] theorem State.setPort_ctl (s : State) (p : Nat) (x : PortState) : (s.setPort p x).ctl = s.ctl := rfl
@[simp] theorem State.setPort_flt (s : State) (p : Nat) (x : PortState) : (s.setPort p x).flt = s.flt := rfl
@[simp] theorem State.setPort_ldg (s : State) (p : Nat) (x : PortState) : (s.setPort p x).ldg = s.ldg := rfl
@[simp] theorem State.setPort_ckp (s : State) (p : Nat) (x : PortState) : (s.setPort p x).ckp = s.ckp := rfl
@[simp] theorem State.setPort_units (s : State) (p : Nat) (x : PortState) : (s.setPort p x).units = s.units := rfl
@[simp] theorem State.setPort_mem (s : State) (p : Nat) (x : PortState) : (s.setPort p x).mem = s.mem := rfl
@[simp] theorem State.setPort_pwr (s : State) (p : Nat) (x : PortState) : (s.setPort p x).pwr = s.pwr := rfl
@[simp] theorem State.setPort_sec (s : State) (p : Nat) (x : PortState) : (s.setPort p x).sec = s.sec := rfl
@[simp] theorem State.setPort_stu (s : State) (p : Nat) (x : PortState) : (s.setPort p x).stu = s.stu := rfl
@[simp] theorem State.setPort_sent (s : State) (p : Nat) (x : PortState) : (s.setPort p x).sent = s.sent := rfl
@[simp] theorem State.setPort_free (s : State) (p : Nat) (x : PortState) : (s.setPort p x).free = s.free := rfl
@[simp] theorem State.setPort_pending (s : State) (p : Nat) (x : PortState) : (s.setPort p x).pending = s.pending := rfl

/-! ## setRec changes ldg only -/

@[simp] theorem State.setRec_regs (s : State) (r : StepRec) : (s.setRec r).regs = s.regs := rfl
@[simp] theorem State.setRec_plan (s : State) (r : StepRec) : (s.setRec r).plan = s.plan := rfl
@[simp] theorem State.setRec_slots (s : State) (r : StepRec) : (s.setRec r).slots = s.slots := rfl
@[simp] theorem State.setRec_syn (s : State) (r : StepRec) : (s.setRec r).syn = s.syn := rfl
@[simp] theorem State.setRec_net (s : State) (r : StepRec) : (s.setRec r).net = s.net := rfl
@[simp] theorem State.setRec_ctl (s : State) (r : StepRec) : (s.setRec r).ctl = s.ctl := rfl
@[simp] theorem State.setRec_flt (s : State) (r : StepRec) : (s.setRec r).flt = s.flt := rfl
@[simp] theorem State.setRec_ckp (s : State) (r : StepRec) : (s.setRec r).ckp = s.ckp := rfl
@[simp] theorem State.setRec_units (s : State) (r : StepRec) : (s.setRec r).units = s.units := rfl
@[simp] theorem State.setRec_mem (s : State) (r : StepRec) : (s.setRec r).mem = s.mem := rfl
@[simp] theorem State.setRec_link (s : State) (r : StepRec) : (s.setRec r).link = s.link := rfl
@[simp] theorem State.setRec_pwr (s : State) (r : StepRec) : (s.setRec r).pwr = s.pwr := rfl
@[simp] theorem State.setRec_sec (s : State) (r : StepRec) : (s.setRec r).sec = s.sec := rfl
@[simp] theorem State.setRec_stu (s : State) (r : StepRec) : (s.setRec r).stu = s.stu := rfl
@[simp] theorem State.setRec_sent (s : State) (r : StepRec) : (s.setRec r).sent = s.sent := rfl
@[simp] theorem State.setRec_free (s : State) (r : StepRec) : (s.setRec r).free = s.free := rfl
@[simp] theorem State.setRec_pending (s : State) (r : StepRec) : (s.setRec r).pending = s.pending := rfl

/-! ## setStrand changes units only -/

@[simp] theorem State.setStrand_regs (s : State) (k : Nat) (x : Strand) : (s.setStrand k x).regs = s.regs := rfl
@[simp] theorem State.setStrand_plan (s : State) (k : Nat) (x : Strand) : (s.setStrand k x).plan = s.plan := rfl
@[simp] theorem State.setStrand_slots (s : State) (k : Nat) (x : Strand) : (s.setStrand k x).slots = s.slots := rfl
@[simp] theorem State.setStrand_syn (s : State) (k : Nat) (x : Strand) : (s.setStrand k x).syn = s.syn := rfl
@[simp] theorem State.setStrand_net (s : State) (k : Nat) (x : Strand) : (s.setStrand k x).net = s.net := rfl
@[simp] theorem State.setStrand_ctl (s : State) (k : Nat) (x : Strand) : (s.setStrand k x).ctl = s.ctl := rfl
@[simp] theorem State.setStrand_flt (s : State) (k : Nat) (x : Strand) : (s.setStrand k x).flt = s.flt := rfl
@[simp] theorem State.setStrand_ldg (s : State) (k : Nat) (x : Strand) : (s.setStrand k x).ldg = s.ldg := rfl
@[simp] theorem State.setStrand_ckp (s : State) (k : Nat) (x : Strand) : (s.setStrand k x).ckp = s.ckp := rfl
@[simp] theorem State.setStrand_mem (s : State) (k : Nat) (x : Strand) : (s.setStrand k x).mem = s.mem := rfl
@[simp] theorem State.setStrand_link (s : State) (k : Nat) (x : Strand) : (s.setStrand k x).link = s.link := rfl
@[simp] theorem State.setStrand_pwr (s : State) (k : Nat) (x : Strand) : (s.setStrand k x).pwr = s.pwr := rfl
@[simp] theorem State.setStrand_sec (s : State) (k : Nat) (x : Strand) : (s.setStrand k x).sec = s.sec := rfl
@[simp] theorem State.setStrand_stu (s : State) (k : Nat) (x : Strand) : (s.setStrand k x).stu = s.stu := rfl
@[simp] theorem State.setStrand_sent (s : State) (k : Nat) (x : Strand) : (s.setStrand k x).sent = s.sent := rfl
@[simp] theorem State.setStrand_free (s : State) (k : Nat) (x : Strand) : (s.setStrand k x).free = s.free := rfl
@[simp] theorem State.setStrand_pending (s : State) (k : Nat) (x : Strand) : (s.setStrand k x).pending = s.pending := rfl

/-! ## setAcc changes units only -/

@[simp] theorem State.setAcc_regs (s : State) (k : Nat) (x : AccEntry) : (s.setAcc k x).regs = s.regs := rfl
@[simp] theorem State.setAcc_plan (s : State) (k : Nat) (x : AccEntry) : (s.setAcc k x).plan = s.plan := rfl
@[simp] theorem State.setAcc_slots (s : State) (k : Nat) (x : AccEntry) : (s.setAcc k x).slots = s.slots := rfl
@[simp] theorem State.setAcc_syn (s : State) (k : Nat) (x : AccEntry) : (s.setAcc k x).syn = s.syn := rfl
@[simp] theorem State.setAcc_net (s : State) (k : Nat) (x : AccEntry) : (s.setAcc k x).net = s.net := rfl
@[simp] theorem State.setAcc_ctl (s : State) (k : Nat) (x : AccEntry) : (s.setAcc k x).ctl = s.ctl := rfl
@[simp] theorem State.setAcc_flt (s : State) (k : Nat) (x : AccEntry) : (s.setAcc k x).flt = s.flt := rfl
@[simp] theorem State.setAcc_ldg (s : State) (k : Nat) (x : AccEntry) : (s.setAcc k x).ldg = s.ldg := rfl
@[simp] theorem State.setAcc_ckp (s : State) (k : Nat) (x : AccEntry) : (s.setAcc k x).ckp = s.ckp := rfl
@[simp] theorem State.setAcc_mem (s : State) (k : Nat) (x : AccEntry) : (s.setAcc k x).mem = s.mem := rfl
@[simp] theorem State.setAcc_link (s : State) (k : Nat) (x : AccEntry) : (s.setAcc k x).link = s.link := rfl
@[simp] theorem State.setAcc_pwr (s : State) (k : Nat) (x : AccEntry) : (s.setAcc k x).pwr = s.pwr := rfl
@[simp] theorem State.setAcc_sec (s : State) (k : Nat) (x : AccEntry) : (s.setAcc k x).sec = s.sec := rfl
@[simp] theorem State.setAcc_stu (s : State) (k : Nat) (x : AccEntry) : (s.setAcc k x).stu = s.stu := rfl
@[simp] theorem State.setAcc_sent (s : State) (k : Nat) (x : AccEntry) : (s.setAcc k x).sent = s.sent := rfl
@[simp] theorem State.setAcc_free (s : State) (k : Nat) (x : AccEntry) : (s.setAcc k x).free = s.free := rfl
@[simp] theorem State.setAcc_pending (s : State) (k : Nat) (x : AccEntry) : (s.setAcc k x).pending = s.pending := rfl

/-! ## setCore changes units only -/

@[simp] theorem State.setCore_regs (s : State) (c : Nat) (x : CoreState) : (s.setCore c x).regs = s.regs := rfl
@[simp] theorem State.setCore_plan (s : State) (c : Nat) (x : CoreState) : (s.setCore c x).plan = s.plan := rfl
@[simp] theorem State.setCore_slots (s : State) (c : Nat) (x : CoreState) : (s.setCore c x).slots = s.slots := rfl
@[simp] theorem State.setCore_syn (s : State) (c : Nat) (x : CoreState) : (s.setCore c x).syn = s.syn := rfl
@[simp] theorem State.setCore_net (s : State) (c : Nat) (x : CoreState) : (s.setCore c x).net = s.net := rfl
@[simp] theorem State.setCore_ctl (s : State) (c : Nat) (x : CoreState) : (s.setCore c x).ctl = s.ctl := rfl
@[simp] theorem State.setCore_flt (s : State) (c : Nat) (x : CoreState) : (s.setCore c x).flt = s.flt := rfl
@[simp] theorem State.setCore_ldg (s : State) (c : Nat) (x : CoreState) : (s.setCore c x).ldg = s.ldg := rfl
@[simp] theorem State.setCore_ckp (s : State) (c : Nat) (x : CoreState) : (s.setCore c x).ckp = s.ckp := rfl
@[simp] theorem State.setCore_mem (s : State) (c : Nat) (x : CoreState) : (s.setCore c x).mem = s.mem := rfl
@[simp] theorem State.setCore_link (s : State) (c : Nat) (x : CoreState) : (s.setCore c x).link = s.link := rfl
@[simp] theorem State.setCore_pwr (s : State) (c : Nat) (x : CoreState) : (s.setCore c x).pwr = s.pwr := rfl
@[simp] theorem State.setCore_sec (s : State) (c : Nat) (x : CoreState) : (s.setCore c x).sec = s.sec := rfl
@[simp] theorem State.setCore_stu (s : State) (c : Nat) (x : CoreState) : (s.setCore c x).stu = s.stu := rfl
@[simp] theorem State.setCore_sent (s : State) (c : Nat) (x : CoreState) : (s.setCore c x).sent = s.sent := rfl
@[simp] theorem State.setCore_free (s : State) (c : Nat) (x : CoreState) : (s.setCore c x).free = s.free := rfl
@[simp] theorem State.setCore_pending (s : State) (c : Nat) (x : CoreState) : (s.setCore c x).pending = s.pending := rfl

/-! ## askGrant changes pwr only -/

@[simp] theorem State.askGrant_regs (s : State) (core : Nat) : (s.askGrant core).regs = s.regs := rfl
@[simp] theorem State.askGrant_plan (s : State) (core : Nat) : (s.askGrant core).plan = s.plan := rfl
@[simp] theorem State.askGrant_slots (s : State) (core : Nat) : (s.askGrant core).slots = s.slots := rfl
@[simp] theorem State.askGrant_syn (s : State) (core : Nat) : (s.askGrant core).syn = s.syn := rfl
@[simp] theorem State.askGrant_net (s : State) (core : Nat) : (s.askGrant core).net = s.net := rfl
@[simp] theorem State.askGrant_ctl (s : State) (core : Nat) : (s.askGrant core).ctl = s.ctl := rfl
@[simp] theorem State.askGrant_flt (s : State) (core : Nat) : (s.askGrant core).flt = s.flt := rfl
@[simp] theorem State.askGrant_ldg (s : State) (core : Nat) : (s.askGrant core).ldg = s.ldg := rfl
@[simp] theorem State.askGrant_ckp (s : State) (core : Nat) : (s.askGrant core).ckp = s.ckp := rfl
@[simp] theorem State.askGrant_units (s : State) (core : Nat) : (s.askGrant core).units = s.units := rfl
@[simp] theorem State.askGrant_mem (s : State) (core : Nat) : (s.askGrant core).mem = s.mem := rfl
@[simp] theorem State.askGrant_link (s : State) (core : Nat) : (s.askGrant core).link = s.link := rfl
@[simp] theorem State.askGrant_sec (s : State) (core : Nat) : (s.askGrant core).sec = s.sec := rfl
@[simp] theorem State.askGrant_stu (s : State) (core : Nat) : (s.askGrant core).stu = s.stu := rfl
@[simp] theorem State.askGrant_sent (s : State) (core : Nat) : (s.askGrant core).sent = s.sent := rfl
@[simp] theorem State.askGrant_free (s : State) (core : Nat) : (s.askGrant core).free = s.free := rfl
@[simp] theorem State.askGrant_pending (s : State) (core : Nat) : (s.askGrant core).pending = s.pending := rfl

/-! ## track changes net only -/

@[simp] theorem State.track_regs (s : State) (l : List Track) : (s.track l).regs = s.regs := rfl
@[simp] theorem State.track_plan (s : State) (l : List Track) : (s.track l).plan = s.plan := rfl
@[simp] theorem State.track_slots (s : State) (l : List Track) : (s.track l).slots = s.slots := rfl
@[simp] theorem State.track_syn (s : State) (l : List Track) : (s.track l).syn = s.syn := rfl
@[simp] theorem State.track_ctl (s : State) (l : List Track) : (s.track l).ctl = s.ctl := rfl
@[simp] theorem State.track_flt (s : State) (l : List Track) : (s.track l).flt = s.flt := rfl
@[simp] theorem State.track_ldg (s : State) (l : List Track) : (s.track l).ldg = s.ldg := rfl
@[simp] theorem State.track_ckp (s : State) (l : List Track) : (s.track l).ckp = s.ckp := rfl
@[simp] theorem State.track_units (s : State) (l : List Track) : (s.track l).units = s.units := rfl
@[simp] theorem State.track_mem (s : State) (l : List Track) : (s.track l).mem = s.mem := rfl
@[simp] theorem State.track_link (s : State) (l : List Track) : (s.track l).link = s.link := rfl
@[simp] theorem State.track_pwr (s : State) (l : List Track) : (s.track l).pwr = s.pwr := rfl
@[simp] theorem State.track_sec (s : State) (l : List Track) : (s.track l).sec = s.sec := rfl
@[simp] theorem State.track_stu (s : State) (l : List Track) : (s.track l).stu = s.stu := rfl
@[simp] theorem State.track_sent (s : State) (l : List Track) : (s.track l).sent = s.sent := rfl
@[simp] theorem State.track_free (s : State) (l : List Track) : (s.track l).free = s.free := rfl
@[simp] theorem State.track_pending (s : State) (l : List Track) : (s.track l).pending = s.pending := rfl

/-! ## setObj changes syn only -/

@[simp] theorem State.setObj_regs (s : State) (k : Nat) (x : SyncObj) : (s.setObj k x).regs = s.regs := rfl
@[simp] theorem State.setObj_plan (s : State) (k : Nat) (x : SyncObj) : (s.setObj k x).plan = s.plan := rfl
@[simp] theorem State.setObj_slots (s : State) (k : Nat) (x : SyncObj) : (s.setObj k x).slots = s.slots := rfl
@[simp] theorem State.setObj_net (s : State) (k : Nat) (x : SyncObj) : (s.setObj k x).net = s.net := rfl
@[simp] theorem State.setObj_ctl (s : State) (k : Nat) (x : SyncObj) : (s.setObj k x).ctl = s.ctl := rfl
@[simp] theorem State.setObj_flt (s : State) (k : Nat) (x : SyncObj) : (s.setObj k x).flt = s.flt := rfl
@[simp] theorem State.setObj_ldg (s : State) (k : Nat) (x : SyncObj) : (s.setObj k x).ldg = s.ldg := rfl
@[simp] theorem State.setObj_ckp (s : State) (k : Nat) (x : SyncObj) : (s.setObj k x).ckp = s.ckp := rfl
@[simp] theorem State.setObj_units (s : State) (k : Nat) (x : SyncObj) : (s.setObj k x).units = s.units := rfl
@[simp] theorem State.setObj_mem (s : State) (k : Nat) (x : SyncObj) : (s.setObj k x).mem = s.mem := rfl
@[simp] theorem State.setObj_link (s : State) (k : Nat) (x : SyncObj) : (s.setObj k x).link = s.link := rfl
@[simp] theorem State.setObj_pwr (s : State) (k : Nat) (x : SyncObj) : (s.setObj k x).pwr = s.pwr := rfl
@[simp] theorem State.setObj_sec (s : State) (k : Nat) (x : SyncObj) : (s.setObj k x).sec = s.sec := rfl
@[simp] theorem State.setObj_stu (s : State) (k : Nat) (x : SyncObj) : (s.setObj k x).stu = s.stu := rfl
@[simp] theorem State.setObj_sent (s : State) (k : Nat) (x : SyncObj) : (s.setObj k x).sent = s.sent := rfl
@[simp] theorem State.setObj_free (s : State) (k : Nat) (x : SyncObj) : (s.setObj k x).free = s.free := rfl
@[simp] theorem State.setObj_pending (s : State) (k : Nat) (x : SyncObj) : (s.setObj k x).pending = s.pending := rfl

/-! ## setPair changes net only -/

@[simp] theorem State.setPair_regs (s : State) (src : Nat) (x : PairState) : (s.setPair src x).regs = s.regs := rfl
@[simp] theorem State.setPair_plan (s : State) (src : Nat) (x : PairState) : (s.setPair src x).plan = s.plan := rfl
@[simp] theorem State.setPair_slots (s : State) (src : Nat) (x : PairState) : (s.setPair src x).slots = s.slots := rfl
@[simp] theorem State.setPair_syn (s : State) (src : Nat) (x : PairState) : (s.setPair src x).syn = s.syn := rfl
@[simp] theorem State.setPair_ctl (s : State) (src : Nat) (x : PairState) : (s.setPair src x).ctl = s.ctl := rfl
@[simp] theorem State.setPair_flt (s : State) (src : Nat) (x : PairState) : (s.setPair src x).flt = s.flt := rfl
@[simp] theorem State.setPair_ldg (s : State) (src : Nat) (x : PairState) : (s.setPair src x).ldg = s.ldg := rfl
@[simp] theorem State.setPair_ckp (s : State) (src : Nat) (x : PairState) : (s.setPair src x).ckp = s.ckp := rfl
@[simp] theorem State.setPair_units (s : State) (src : Nat) (x : PairState) : (s.setPair src x).units = s.units := rfl
@[simp] theorem State.setPair_mem (s : State) (src : Nat) (x : PairState) : (s.setPair src x).mem = s.mem := rfl
@[simp] theorem State.setPair_link (s : State) (src : Nat) (x : PairState) : (s.setPair src x).link = s.link := rfl
@[simp] theorem State.setPair_pwr (s : State) (src : Nat) (x : PairState) : (s.setPair src x).pwr = s.pwr := rfl
@[simp] theorem State.setPair_sec (s : State) (src : Nat) (x : PairState) : (s.setPair src x).sec = s.sec := rfl
@[simp] theorem State.setPair_stu (s : State) (src : Nat) (x : PairState) : (s.setPair src x).stu = s.stu := rfl
@[simp] theorem State.setPair_sent (s : State) (src : Nat) (x : PairState) : (s.setPair src x).sent = s.sent := rfl
@[simp] theorem State.setPair_free (s : State) (src : Nat) (x : PairState) : (s.setPair src x).free = s.free := rfl
@[simp] theorem State.setPair_pending (s : State) (src : Nat) (x : PairState) : (s.setPair src x).pending = s.pending := rfl

/-! ## setBay changes ckp only -/

@[simp] theorem State.setBay_regs (s : State) (st b : Nat) (x : Bay) : (s.setBay st b x).regs = s.regs := rfl
@[simp] theorem State.setBay_plan (s : State) (st b : Nat) (x : Bay) : (s.setBay st b x).plan = s.plan := rfl
@[simp] theorem State.setBay_slots (s : State) (st b : Nat) (x : Bay) : (s.setBay st b x).slots = s.slots := rfl
@[simp] theorem State.setBay_syn (s : State) (st b : Nat) (x : Bay) : (s.setBay st b x).syn = s.syn := rfl
@[simp] theorem State.setBay_net (s : State) (st b : Nat) (x : Bay) : (s.setBay st b x).net = s.net := rfl
@[simp] theorem State.setBay_ctl (s : State) (st b : Nat) (x : Bay) : (s.setBay st b x).ctl = s.ctl := rfl
@[simp] theorem State.setBay_flt (s : State) (st b : Nat) (x : Bay) : (s.setBay st b x).flt = s.flt := rfl
@[simp] theorem State.setBay_ldg (s : State) (st b : Nat) (x : Bay) : (s.setBay st b x).ldg = s.ldg := rfl
@[simp] theorem State.setBay_units (s : State) (st b : Nat) (x : Bay) : (s.setBay st b x).units = s.units := rfl
@[simp] theorem State.setBay_mem (s : State) (st b : Nat) (x : Bay) : (s.setBay st b x).mem = s.mem := rfl
@[simp] theorem State.setBay_link (s : State) (st b : Nat) (x : Bay) : (s.setBay st b x).link = s.link := rfl
@[simp] theorem State.setBay_pwr (s : State) (st b : Nat) (x : Bay) : (s.setBay st b x).pwr = s.pwr := rfl
@[simp] theorem State.setBay_sec (s : State) (st b : Nat) (x : Bay) : (s.setBay st b x).sec = s.sec := rfl
@[simp] theorem State.setBay_stu (s : State) (st b : Nat) (x : Bay) : (s.setBay st b x).stu = s.stu := rfl
@[simp] theorem State.setBay_sent (s : State) (st b : Nat) (x : Bay) : (s.setBay st b x).sent = s.sent := rfl
@[simp] theorem State.setBay_free (s : State) (st b : Nat) (x : Bay) : (s.setBay st b x).free = s.free := rfl
@[simp] theorem State.setBay_pending (s : State) (st b : Nat) (x : Bay) : (s.setBay st b x).pending = s.pending := rfl

/-! ## setRow changes mem only -/

@[simp] theorem State.setRow_regs (s : State) (k : Nat) (x : RowPhase) : (s.setRow k x).regs = s.regs := rfl
@[simp] theorem State.setRow_plan (s : State) (k : Nat) (x : RowPhase) : (s.setRow k x).plan = s.plan := rfl
@[simp] theorem State.setRow_slots (s : State) (k : Nat) (x : RowPhase) : (s.setRow k x).slots = s.slots := rfl
@[simp] theorem State.setRow_syn (s : State) (k : Nat) (x : RowPhase) : (s.setRow k x).syn = s.syn := rfl
@[simp] theorem State.setRow_net (s : State) (k : Nat) (x : RowPhase) : (s.setRow k x).net = s.net := rfl
@[simp] theorem State.setRow_ctl (s : State) (k : Nat) (x : RowPhase) : (s.setRow k x).ctl = s.ctl := rfl
@[simp] theorem State.setRow_flt (s : State) (k : Nat) (x : RowPhase) : (s.setRow k x).flt = s.flt := rfl
@[simp] theorem State.setRow_ldg (s : State) (k : Nat) (x : RowPhase) : (s.setRow k x).ldg = s.ldg := rfl
@[simp] theorem State.setRow_ckp (s : State) (k : Nat) (x : RowPhase) : (s.setRow k x).ckp = s.ckp := rfl
@[simp] theorem State.setRow_units (s : State) (k : Nat) (x : RowPhase) : (s.setRow k x).units = s.units := rfl
@[simp] theorem State.setRow_link (s : State) (k : Nat) (x : RowPhase) : (s.setRow k x).link = s.link := rfl
@[simp] theorem State.setRow_pwr (s : State) (k : Nat) (x : RowPhase) : (s.setRow k x).pwr = s.pwr := rfl
@[simp] theorem State.setRow_sec (s : State) (k : Nat) (x : RowPhase) : (s.setRow k x).sec = s.sec := rfl
@[simp] theorem State.setRow_stu (s : State) (k : Nat) (x : RowPhase) : (s.setRow k x).stu = s.stu := rfl
@[simp] theorem State.setRow_sent (s : State) (k : Nat) (x : RowPhase) : (s.setRow k x).sent = s.sent := rfl
@[simp] theorem State.setRow_free (s : State) (k : Nat) (x : RowPhase) : (s.setRow k x).free = s.free := rfl
@[simp] theorem State.setRow_pending (s : State) (k : Nat) (x : RowPhase) : (s.setRow k x).pending = s.pending := rfl

/-! ## setMd changes sec only -/

@[simp] theorem State.setMd_regs (s : State) (i : Nat) (x : MgmtDie) : (s.setMd i x).regs = s.regs := rfl
@[simp] theorem State.setMd_plan (s : State) (i : Nat) (x : MgmtDie) : (s.setMd i x).plan = s.plan := rfl
@[simp] theorem State.setMd_slots (s : State) (i : Nat) (x : MgmtDie) : (s.setMd i x).slots = s.slots := rfl
@[simp] theorem State.setMd_syn (s : State) (i : Nat) (x : MgmtDie) : (s.setMd i x).syn = s.syn := rfl
@[simp] theorem State.setMd_net (s : State) (i : Nat) (x : MgmtDie) : (s.setMd i x).net = s.net := rfl
@[simp] theorem State.setMd_ctl (s : State) (i : Nat) (x : MgmtDie) : (s.setMd i x).ctl = s.ctl := rfl
@[simp] theorem State.setMd_flt (s : State) (i : Nat) (x : MgmtDie) : (s.setMd i x).flt = s.flt := rfl
@[simp] theorem State.setMd_ldg (s : State) (i : Nat) (x : MgmtDie) : (s.setMd i x).ldg = s.ldg := rfl
@[simp] theorem State.setMd_ckp (s : State) (i : Nat) (x : MgmtDie) : (s.setMd i x).ckp = s.ckp := rfl
@[simp] theorem State.setMd_units (s : State) (i : Nat) (x : MgmtDie) : (s.setMd i x).units = s.units := rfl
@[simp] theorem State.setMd_mem (s : State) (i : Nat) (x : MgmtDie) : (s.setMd i x).mem = s.mem := rfl
@[simp] theorem State.setMd_link (s : State) (i : Nat) (x : MgmtDie) : (s.setMd i x).link = s.link := rfl
@[simp] theorem State.setMd_pwr (s : State) (i : Nat) (x : MgmtDie) : (s.setMd i x).pwr = s.pwr := rfl
@[simp] theorem State.setMd_stu (s : State) (i : Nat) (x : MgmtDie) : (s.setMd i x).stu = s.stu := rfl
@[simp] theorem State.setMd_sent (s : State) (i : Nat) (x : MgmtDie) : (s.setMd i x).sent = s.sent := rfl
@[simp] theorem State.setMd_free (s : State) (i : Nat) (x : MgmtDie) : (s.setMd i x).free = s.free := rfl
@[simp] theorem State.setMd_pending (s : State) (i : Nat) (x : MgmtDie) : (s.setMd i x).pending = s.pending := rfl

/-! ## setUpd changes sec only -/

@[simp] theorem State.setUpd_regs (s : State) (x : UpdPhase) : (s.setUpd x).regs = s.regs := rfl
@[simp] theorem State.setUpd_plan (s : State) (x : UpdPhase) : (s.setUpd x).plan = s.plan := rfl
@[simp] theorem State.setUpd_slots (s : State) (x : UpdPhase) : (s.setUpd x).slots = s.slots := rfl
@[simp] theorem State.setUpd_syn (s : State) (x : UpdPhase) : (s.setUpd x).syn = s.syn := rfl
@[simp] theorem State.setUpd_net (s : State) (x : UpdPhase) : (s.setUpd x).net = s.net := rfl
@[simp] theorem State.setUpd_ctl (s : State) (x : UpdPhase) : (s.setUpd x).ctl = s.ctl := rfl
@[simp] theorem State.setUpd_flt (s : State) (x : UpdPhase) : (s.setUpd x).flt = s.flt := rfl
@[simp] theorem State.setUpd_ldg (s : State) (x : UpdPhase) : (s.setUpd x).ldg = s.ldg := rfl
@[simp] theorem State.setUpd_ckp (s : State) (x : UpdPhase) : (s.setUpd x).ckp = s.ckp := rfl
@[simp] theorem State.setUpd_units (s : State) (x : UpdPhase) : (s.setUpd x).units = s.units := rfl
@[simp] theorem State.setUpd_mem (s : State) (x : UpdPhase) : (s.setUpd x).mem = s.mem := rfl
@[simp] theorem State.setUpd_link (s : State) (x : UpdPhase) : (s.setUpd x).link = s.link := rfl
@[simp] theorem State.setUpd_pwr (s : State) (x : UpdPhase) : (s.setUpd x).pwr = s.pwr := rfl
@[simp] theorem State.setUpd_stu (s : State) (x : UpdPhase) : (s.setUpd x).stu = s.stu := rfl
@[simp] theorem State.setUpd_sent (s : State) (x : UpdPhase) : (s.setUpd x).sent = s.sent := rfl
@[simp] theorem State.setUpd_free (s : State) (x : UpdPhase) : (s.setUpd x).free = s.free := rfl
@[simp] theorem State.setUpd_pending (s : State) (x : UpdPhase) : (s.setUpd x).pending = s.pending := rfl

/-! ## Reads after writes -/

/-- A key that takes a value other than its default reads as that value, in any map. -/
theorem SMap.get_set_new {β : Type} [DecidableEq β] {d : Nat → β} {m : SMap β} {k : Nat} {v : β} (hv : v ≠ d k) :
    SMap.get d (SMap.set d m k v) k = v := by
  simp [SMap.set, hv, SMap.get_put_self]

/-- A register written in a canonical map reads as the value written. -/
theorem State.reg_setReg_self {s : State} (h : SMap.wf resetReg s.regs = true) (a : Nat) (v : Word) :
    (s.setReg a v).reg a = v := SMap.get_set_self a v h

/-- A write leaves every other register alone. -/
theorem State.reg_setReg_ne (s : State) {a b : Nat} (v : Word) (h : b ≠ a) : (s.setReg a v).reg b = s.reg b :=
  SMap.get_set_ne _ _ h

/-- A slot record written leaves every other slot alone. -/
theorem State.slot_setSlot_ne (s : State) {a b : Nat} (r : SlotRun) (h : b ≠ a) : (s.setSlot a r).slot b = s.slot b :=
  SMap.get_set_ne _ _ h

/-- A strand written leaves every other strand alone. -/
theorem State.strand_setStrand_ne (s : State) {a b : Nat} (x : Strand) (h : b ≠ a) : (s.setStrand a x).strand b = s.strand b :=
  SMap.get_set_ne _ _ h

/-- Slots that are equal hold equal op runs. -/
theorem State.opRun_congr {s t : State} (h : t.slots = s.slots) (sid op : Nat) : t.opRun sid op = s.opRun sid op := by
  unfold State.opRun State.slot; rw [h]

/-- The phase of a slot that is not idle survives a write of one of its ops. -/
theorem State.slot_setOp_phase {s : State} {sid op : Nat} {r : OpRun} (hs : (s.slot sid).phase ≠ .idle) :
    ((s.setOp sid op r).slot sid).phase = (s.slot sid).phase := by
  unfold State.setOp State.slot State.setSlot
  dsimp only
  rw [SMap.get_set_new]
  intro h
  exact hs (congrArg SlotRun.phase h)

/-- An op's run, other than the empty one, reads as it was written in a slot that is not idle. -/
theorem State.opRun_setOp {s : State} {sid op : Nat} {r : OpRun} (hs : (s.slot sid).phase ≠ .idle) (hr : r ≠ {}) :
    (s.setOp sid op r).opRun sid op = r := by
  unfold State.setOp State.opRun State.slot State.setSlot
  dsimp only
  rw [SMap.get_set_new]
  · exact SMap.get_set_new hr
  · intro h
    exact hs (congrArg SlotRun.phase h)

/-- A byte of the near tier that is not stored to reads as before. -/
theorem State.ld_st_ne (s : State) {pa a : Nat} (b : Byte) (h : s.served a ≠ s.served pa) : (s.st pa b).ld a = s.ld a :=
  SMap.get_set_ne _ _ h

end Sys2Proof.Machine
end

