-- ==== Sys2Proof/Tests/Slice0.lean ====
section
/-!
SUPPORT. Tests: one named witness for the hypotheses of each statement, worked examples of the spec, and ill-formed commands that
Instr.wf refuses.
-/

set_option Elab.async false

namespace Sys2Proof.Tests

open Sys2Proof Sys2Proof.Machine

/-- A powered module with a job in the ledger. -/
def jobbed : State :=
  { State.reset with pwr := { State.reset.pwr with railsOn := true }, ldg := { State.reset.ldg with job := true, newestOpened := 0 } }

/-- Bytes of an op record (R38): word 0 with its class, unit, counts and opcode, no budget, and the parameter block behind it. -/
def recBytes (cls code unit : Nat) (opnds : List (Nat × Nat)) (syncs : List Nat) (pw : List Nat) : List Byte :=
  let n := recLen (opnds.length * 2 ^ 24 + syncs.length * 2 ^ 20)
  let body := leBytes 8 (cls * 2 ^ 34 + unit * 2 ^ 28 + opnds.length * 2 ^ 24 + syncs.length * 2 ^ 20 + code)
    ++ leBytes 8 ((0x80 + n) / 16)
    ++ opnds.flatMap (fun x => leBytes 8 x.1 ++ leBytes 8 x.2) ++ syncs.flatMap (fun x => leBytes 4 x)
  body ++ zeros (n - body.length) ++ pw.flatMap (fun x => leBytes 8 x)

/-- A state whose slot stands in step 0 of an image of one op. -/
def withOp (s : State) (sid cls code unit : Nat) (opnds : List (Nat × Nat)) (syncs pw : List Nat) (run : OpRun) : State :=
  let b := recBytes cls code unit opnds syncs pw
  let t := (s.setImg sid false 0x18 (leBytes 4 1 ++ leBytes 4 0 ++ leBytes 8 (0x80 + b.length))).setImg sid false 0x80 b
  t.setSlot sid { phase := .opened, step := 0, ops := [(0, run)] }

/-- Op 0 of a link slot of a class and opcode, waiting for nothing. -/
def linkOp (cls code : Nat) : State := withOp jobbed 48 cls code 0 [] [] [] { phase := .waiting }

/-- The checks of Ready, as one truth value. -/
def readyB (s : State) (sid cls code : Nat) : Bool :=
  let o := s.opAt sid false 0
  decide (s.opOf sid 0 cls code = some o) && decide (o.index = 0) && decide ((s.opRun sid 0).phase = .waiting)
    && o.allReleased (s.opRun sid 0) && decide (s.heldBack sid o = false) && s.operandsReach o && decide (s.coreSaved sid o = false)
    && s.trackRoom (s.slotDie sid) (s.opTracks sid o).length && decide (s.poisonInput sid o = none)
    && decide ((List.range o.nopnd).any (fun i => !(s.badOperand sid o i).isEmpty) = false)

theorem ready_of_readyB (s : State) (sid cls code : Nat) (h : readyB s sid cls code = true) :
    s.Ready sid 0 cls code (s.opAt sid false 0) := by
  simp only [readyB, Bool.and_eq_true, decide_eq_true_eq] at h
  obtain ⟨⟨⟨⟨⟨⟨⟨⟨⟨a, b⟩, c⟩, d⟩, e⟩, f⟩, g⟩, k⟩, l⟩, m⟩ := h
  exact ⟨a, b, c, d, e, f, g, k, l, m⟩

/-- The op rows of the table that a slot's plan holds. -/
def opRows : List (Nat × Nat) :=
  [(0, 1), (0, 2), (0, 3), (1, 1), (1, 2), (1, 3), (1, 4), (2, 1), (2, 2), (2, 3), (2, 4), (2, 5), (2, 6), (2, 7), (2, 8),
   (2, 0x80), (2, 0x81)] ++
  [(3, 1), (3, 2), (4, 1), (4, 2), (4, 3), (5, 1), (6, 1), (7, 1), (7, 2), (7, 3), (8, 1), (8, 2), (9, 1), (9, 2), (10, 1)] ++
  [(0x0B, 1), (0x0B, 2), (0x0C, 1), (0x0D, 1), (0x0D, 2), (0x0E, 1), (0x0E, 2), (0x0F, 1), (0x0F, 2), (0x10, 1)]

theorem test_ops_ready : opRows.all (fun x => readyB (linkOp x.1 x.2) 48 x.1 x.2) = true := by decide +kernel

/-- A job on die 0 and stack 0: slot 0's PLN_XLAT entry is VALID. -/
def slot0 : State := (jobbed.wr 60 0 0x200 0x10000).wr 0 0 0x048 0xF

/-- Op 0 of slot 0. -/
def compOp (cls code unit : Nat) (opnds : List (Nat × Nat)) (pw : List Nat) (run : OpRun) : State :=
  withOp slot0 0 cls code unit opnds [] pw run


/-! ## Witnesses of the statements' hypotheses -/

/-- A sound state that holds something and steps (StepKeepsSound, ExecKeepsQueue), and the stops and the runs on both sides
of a unit range. -/
def touched : State := (State.reset.wr 60 0 0x200 0).st 5 7
theorem test_sound : touched.Inv := by constructor <;> decide +kernel
theorem test_sound_steps : step { touched with pending := [.i3cTransactionTimeout, .debugLock .mgmt] } =
    .next { touched with pending := [.debugLock .mgmt] } := rfl
theorem test_wf_runs : (Instr.stepOpen 59).wf = true := by decide
theorem test_unit_ranges :
    exec (.stepOpen 60) State.reset = .fault .noUnit ∧ exec (.contextSave 192) State.reset = .fault .noUnit ∧
    exec (.binChange 48) State.reset = .fault .noUnit ∧ exec (.flitTransmit 50) State.reset = .fault .noUnit ∧
    exec (.grantWindow 4) State.reset = .fault .noUnit := ⟨rfl, rfl, rfl, rfl, rfl⟩
theorem test_unit_edges : Continues (exec (.stepOpen 59) State.reset) ∧ Continues (exec (.contextSave 191) State.reset) ∧
    Continues (exec (.binChange 47) State.reset) ∧ Continues (exec (.flitTransmit 49) State.reset) ∧
    Continues (exec (.grantWindow 3) State.reset) := ⟨⟨_, rfl⟩, ⟨_, rfl⟩, ⟨_, rfl⟩, ⟨_, rfl⟩, ⟨_, rfl⟩⟩

/-- The greatest message that MessageRoundTrip admits. -/
theorem test_greatest_message : okMsg
    { dst := 0xFFFF, src := 0xFFFF, kind := 255, hops := 255, gen := 255, flags := 255, step := 2 ^ 64 - 2, xfer := 2 ^ 64 - 1,
      seg := 2 ^ 32 - 1, len := 2 ^ 32 - 1, addr := 2 ^ 64 - 1, sync := 2 ^ 32 - 1, aux := 2 ^ 32 - 1, data := [1], vc := 4 } = true := by
  decide
theorem test_step_words : wordStep (stepWord (-1)) = -1 ∧ wordStep (stepWord (2 ^ 64 - 2)) = 2 ^ 64 - 2 := by decide
theorem test_fields : fld (setFld 0 63 63 3) 63 63 = 1 ∧ fld (setFld 0 63 8 1) 7 0 = 0 := by decide
theorem test_memory : (State.reset.st 5 7).ld 5 = 7 ∧ State.reset.served 0 ≠ State.reset.served 5 ∧ State.reset.mem.subst = [] := by decide +kernel
theorem test_maps : Memory.wf [] = true ∧ Memory.wf [(3, 1)] = true ∧ Memory.wf [(3, 0)] = false ∧ Memory.wf [(3, 1), (2, 1)] = false := by
  decide

/-- MEANVAR with its partial triples, and with mean and variance. -/
theorem test_meanvar_ready :
    readyB (withOp jobbed 48 2 4 0 [] [] [2 ^ 52] { phase := .waiting }) 48 2 4 = true ∧
    ((withOp jobbed 48 2 4 0 [] [] [2 ^ 52] { phase := .waiting }).opAt 48 false 0).partialOut = true ∧
    ((linkOp 2 4).opAt 48 false 0).partialOut = false := by decide +kernel

/-- A vector op that fits beside what is resident. -/
theorem test_vector_fits : let s := linkOp 1 1
    s.resident 48 0 + 32 * (s.opAt 48 false 0).kp 45 37 ≤ s.strandLimit 48 0 := by decide +kernel

/-- A running vector op with a tile row in the hands of group 0, which was executed once. -/
def tileRow : State :=
  withOp jobbed 48 1 1 0 [] [] [] { phase := .running, items := [{ index := 0, engine := 0, taken := true }, { index := 1, engine := 0 }] }
theorem test_tile_row : (tileRow.liveOp 48 0).isSome = true ∧ (tileRow.opAt 48 false 0).index = 0 ∧ (tileRow.opAt 48 false 0).cls = 1 ∧
    tileRow.coreSaved 48 (tileRow.opAt 48 false 0) = false ∧ (tileRow.core (tileRow.coreOf 48 (tileRow.opAt 48 false 0))).saveDue = false ∧
    (tileRow.opRun 48 0).phase = .running ∧ (tileRow.opRun 48 0).items.find? (fun y => y.taken && !y.finished && y.engine == 0) =
      some { index := 0, engine := 0, taken := true } := by decide +kernel

/-- A ready PRODUCT of one element that no dispute and no saved context stops. -/
def product (run : OpRun) : State := compOp 0 1 0
  [(2 ^ 60, 2 ^ 40 + 32 * 2 ^ 16 + 2 ^ 10 + 2), (2 ^ 60 + 0x10000, 32 * 2 ^ 40 + 2 ^ 16 + 2 ^ 10 + 2),
   (2 ^ 60 + 0x20000, 2 ^ 40 + 2 ^ 16 + 2 ^ 10 + 2)] [0, 2 ^ 56 + 1, 2 ^ 32, 0] run
theorem test_product_ready : readyB (product { phase := .waiting }) 0 0 1 = true ∧
    (product { phase := .waiting }).disputed 0 0 = false ∧ ((product { phase := .waiting }).core 0).ctx = none := by decide +kernel

/-- A chunk of a running PRODUCT, sound and with an upset, on an array without a dual run and with a sound checker. -/
theorem test_chunk : let s := product { phase := .running }
    let o := s.opAt 0 false 0
    s.opOf 0 0 0 1 = some o ∧ o.index = 0 ∧ (s.opRun 0 0).phase = .running ∧ s.chunkTurn 0 o 0 0 = true ∧
    let s := s.beginUnit 0 o 0 (o.rowGroup 0)
    s.dual 0 (s.arrayOf 0 o 0) = false ∧ s.checker 0 (s.arrayOf 0 o 0) ≠ 2 ∧
    (s.runChunk 0 o 0 0 0 []).any (fun x => x.1.bad || x.1.promoBad) = false ∧
    (s.runChunk 0 o 0 0 0 [{ lane := 0, ovf := true }]).any (fun x => x.1.bad || x.1.promoBad) = true := by decide +kernel
theorem test_residue : (laneChunk 0 []).special = 0 ∧ (laneRun 0 [] (some { lane := 0, ovf := true })).bad = true := by decide +kernel

/-- A disputed chunk, of which an assay agrees, differs or fails in turn. -/
def disputedSt (second : Bool) (orig : List LaneResult) : State :=
  let s := product { phase := .running }
  { s with units := { s.units with
    disputes := [{ core := 0, array := 0, sid := 0, op := 0, row := 0, colTile := 0, chunk := 0, original := orig, second := second }] } }
def rightLanes : List LaneResult :=
  let s := product { phase := .running }
  (s.reRun { core := 0, array := 0, sid := 0, op := 0, row := 0, colTile := 0, chunk := 0, original := [] } (s.opAt 0 false 0) []).1
theorem test_assay : ((disputedSt false rightLanes).nextDispute 0 false).isSome = true ∧
    (disputedSt false rightLanes).standbys 0 = [0, 1, 2, 3] ∧ ((disputedSt true rightLanes).nextDispute 0 true).isSome = true ∧
    rightLanes ≠ [] ∧
    (let s := disputedSt false rightLanes
     ∀ d ∈ s.units.disputes, (s.reRun d (s.opAt 0 false 0) []).1 = d.original ∧ (s.reRun d (s.opAt 0 false 0) []).2.1 = false ∧
       (s.reRun d (s.opAt 0 false 0) [{ lane := 0, ovf := true }]).2.1 = true) := by decide +kernel

/-- Health of array 0: a quarantined array, a release under way, and a core whose die runs nothing. -/
def quarantined : State := (jobbed.setAryState 0 0 2).setArray 1 0 { release := some 0x400 }
theorem test_array_health : quarantined.aryState 0 0 = 2 ∧ (quarantined.array 0 0).release = none ∧
    (quarantined.array 1 0).release = some 0x400 ∧ quarantined.aryState 1 0 ≠ 1 ∧ quarantined.stu.outDies.contains 0 = false ∧
    quarantined.checkWrite .cpA 60 0x21 0x0E8 0 = none ∧ quarantined.coreBusy 0 0 = false := by decide +kernel
theorem test_pattern : let s := { State.reset with units := { State.reset.units with library := [⟨0, zeros 64⟩] } }
    (s.runPattern 0 []).isSome = true := by decide +kernel

/-- A core whose context may be saved, one whose context waits, and cores that taper. -/
def contexts : State := jobbed.setCore 1 { ctx := some { acc := [], sid := 0, op := 0 } }
theorem test_context : contexts.dieSlot 0 = some 0 ∧ (contexts.core 0).ctx = none ∧ (contexts.core 1).ctx.isSome = true ∧
    contexts.saveWaits 0 = false ∧ (disputedSt false []).saveWaits 0 = true ∧ ((disputedSt false []).core 0).ctx = none := by decide +kernel
def tapers : State := ((jobbed.wr 60 0 0x200 0).setCore 0 { ramp := 2 }).setCore 1 { ramp := 4 }
theorem test_taper : tapers.dieSlot 0 = none ∧ (tapers.core 0).ramp = 2 ∧ (tapers.core 1).ramp = 4 ∧
    tapers.rampMode 0 = 3 := by decide +kernel

/-- An engine op with one item in flight. -/
def engineItem : State :=
  withOp jobbed 48 3 1 0 [] [] [] { phase := .running, items := [{ index := 0, engine := 2, taken := true }] }
theorem test_engine_item : let o := engineItem.opAt 48 false 0
    engineItem.liveOp 48 0 = some o ∧ o.index = 0 ∧ o.xrep = false ∧ o.cls = 3 ∧ (engineItem.opRun 48 0).phase = .running ∧
    (engineItem.opRun 48 0).items.find? (fun y => y.index == 0 && y.taken && !y.finished && y.engine == 2) =
      some { index := 0, engine := 2, taken := true } := by decide +kernel
/-- ENG_SVC values: every engine in service; and no engine of some kind, for each kind, out of range for firmware. -/
theorem test_eng_svc : let v : Word := resetReg (canonAddr 0 0x0D 0x040)
    State.reset.checkWrite .firmware 0 0x0D 0x040 v = none ∧ State.reset.checkWrite .cpA 0 0x0D 0x040 v = some 3 ∧
    [(15, 0), (23, 16), (31, 24), (35, 32), (39, 36), (41, 40), (43, 42)].all (fun f =>
      fld v f.1 f.2 != 0 && State.reset.checkWrite .firmware 0 0x0D 0x040 (setFld v f.1 f.2 0) == some 1) = true ∧
    State.reset.dieGone 0 = false ∧ (State.reset.wr 47 0x0D 0x040 v).dieSlot 47 = none := by decide +kernel

/-- A PUT that no deferral names, a far op on an available port, and a RESLICE without a source of its first tile. -/
theorem test_transfers : let s := (linkOp 0x0B 1).started 48 ((linkOp 0x0B 1).opAt 48 false 0)
    s.deferFor ((linkOp 0x0B 1).opAt 48 false 0) 0 = none ∧ (linkOp 0x0D 1).mem.farLost = [] := by decide +kernel
theorem test_reslice : let s := linkOp 0x0C 1
    let o := s.opAt 48 false 0
    shBatch (o.opnd 0).shape = 0 ∧ readyB s 48 0x0C 1 = true := by decide +kernel

/-- Strand numbers at their ends, and a NaN register. -/
theorem test_strand_nan : let s := State.reset.setStrand (191 * 8192 + 8191) (({} : Strand).setReg 15 nan64)
    isNan64 ((s.strand (191 * 8192 + 8191)).reg 15) = true ∧ isNan64 ((s.strand (191 * 8192 + 8191)).reg 0) = false ∧
    Continues (exec (.add 191 8191 0 15 0) s) := ⟨by decide +kernel, by decide +kernel, _, rfl⟩

/-- A RESLICE whose one source tile of step 0 lies in an ingot at 1 MiB of stack 0, with a hallmark of 0 or the right one. -/
def resliceFrom (hm : Nat) : State :=
  let s := withOp slot0 56 0x0C 1 0 [(2 ^ 60, 32 * 2 ^ 40 + 32 * 2 ^ 16 + 2 ^ 10 + 8), (2 ^ 60 + 2 ^ 20, 2 ^ 40 + 2 ^ 16 + 2 ^ 10)] []
    [5 * 2 ^ 32, 0, 0, 0] { phase := .waiting }
  let s := ((s.stN (2 ^ 20 + 0x30) [1]).stN (2 ^ 20 + 0x100) [5, 0, 0, 0, 8, 8, 0, 1]).stN (2 ^ 20 + 0x110) [32, 0, 0, 0, 32]
  s.stN (2 ^ 20 + 0x140 + 544) (leBytes 4 hm)
/-- The hallmark with its register evaluated at every byte, so that the kernel can compute it over a tile. -/
def crcForce : BitVec 32 → List Byte → BitVec 32
  | c, [] => c
  | c, b :: bs => match (crcByte c b).toNat with
    | 0 => crcForce 0 bs
    | n + 1 => crcForce (BitVec.ofNat 32 (n + 1)) bs
theorem crcForce_eq : ∀ (bs : List Byte) (c : BitVec 32), crcForce c bs = bs.foldl crcByte c
  | [], _ => rfl
  | b :: bs, c => by
    simp only [crcForce, List.foldl]
    split <;> rename_i h
    · rw [crcForce_eq]; congr 1; exact (BitVec.eq_of_toNat_eq h).symm
    · rw [crcForce_eq]; congr 1; apply BitVec.eq_of_toNat_eq; rw [BitVec.toNat_ofNat, h]; exact Nat.mod_eq_of_lt (by have := (crcByte c b).isLt; omega)
def hallmarkF (tile : List Byte) (id idx : Nat) (st : Step) : Nat :=
  (crcForce 0xFFFFFFFF (tile ++ leBytes 4 id ++ leBytes 4 idx ++ leBytes 8 (stepWord st).toNat) ^^^ 0xFFFFFFFF).toNat
theorem hallmark_force (tile : List Byte) (id idx : Nat) (st : Step) : hallmark tile id idx st = hallmarkF tile id idx st := by
  simp only [hallmark, hallmarkF, crc32c, crcForce_eq]

def resliceAgrees (s : State) (x : ResliceSrc) (i : Nat) : Bool :=
  let w := x.shape
  let tb := tileBytes (shFmt w)
  leNat (s.ldN (x.tiles + shTiles w * tb + 4 * i) 4) == hallmarkF (s.ldN (x.tiles + i * tb) tb) (natAt x.ent 0 4) i 0
def resliceBad (s : State) (f : State → ResliceSrc → Nat → Bool) : Option Nat :=
  let o := s.opAt 56 false 0
  match s.resliceTile o (s.resliceSrcs o) 0 0 0 with
  | some (y, i, _) => if f s y i then none else some y.ingot
  | none => none
theorem resliceAgrees_eq : resliceAgrees = fun s x i => s.resliceOk x 0 i := by
  funext s x i; simp only [resliceAgrees, State.resliceOk, hallmark_force]
theorem test_reslice_ready : readyB (resliceFrom 0) 56 0x0C 1 = true := by decide +kernel
theorem test_reslice_bad : resliceBad (resliceFrom 0) (fun s x i => s.resliceOk x 0 i) = some (2 ^ 20) := by
  rw [← resliceAgrees_eq]; decide +kernel
theorem test_reslice_good :
    resliceBad (resliceFrom (hallmarkF (zeros 544) 5 0 0)) (fun s x i => s.resliceOk x 0 i) = none := by
  rw [← resliceAgrees_eq]; decide +kernel

/-- Slot 48 before its first step: ready, in the window, with its image and no frozen tensor. -/
def toOpen : State := { jobbed with ldg := { jobbed.ldg with newestOpened := -1, newestSealed := -1, newestReleased := -1 } }
theorem test_step_opens : toOpen.slotReady 48 = true ∧ toOpen.nextStep 48 = 0 ∧ toOpen.opensAgain 48 = false ∧
    toOpen.windowOpen 0 = true ∧ toOpen.swapUnannounced 0 = false ∧ toOpen.genHeld (toOpen.nextGen 48) = true ∧
    toOpen.plan.reload.contains 48 = false ∧ (toOpen.slot 48).moveDue = false ∧
    (toOpen.boundary 48 0).slotUsed 48 = true ∧ (toOpen.boundary 48 0).dieGone ((toOpen.boundary 48 0).slotDie 48) = false ∧
    (let c := ((toOpen.boundary 48 0).withGen 48 (toOpen.nextGen 48)).checkAllFrozen 48 0
     c.2 = true ∧ c.1.opensAgain 48 = false) := by decide +kernel
theorem test_step_opens_compute : let t := toOpen.boundary 0 0
    let bin := t.openBin 0 (toOpen.nextGen 0)
    toOpen.slotReady 0 = true ∧ t.slotUsed 0 = true ∧ t.dieGone (t.slotDie 0) = false ∧
    (t.setBin (t.slotDie 0) bin).dieBin (t.slotDie 0) = bin ∧ t.binAllowed (t.slotDie 0) bin = true := by decide +kernel
/-- A slot that is not ready, one whose step lies outside the window, and one whose image is loaded again. -/
theorem test_step_holds : State.reset.slotReady 48 = false ∧
    (let s := { toOpen with ldg := { toOpen.ldg with newestSealed := -2 } }
     s.slotReady 48 = true ∧ s.opensAgain 48 = false ∧ s.ckp.restoring ≠ 2 ∧ s.windowOpen (s.nextStep 48) = false) ∧
    (let s := { toOpen.setSlot 48 { phase := .replaying, step := 0, passed := -1, redo := 0 } with
       plan := { toOpen.plan with reload := [48] } }
     s.slotReady 48 = true ∧ s.opensAgain 48 = true ∧ s.genHeld (s.nextGen 48) = true ∧
       (s.plan.reload.contains 48 && s.plan.reloadGen == s.nextGen 48) = true) ∧
    (let s := toOpen.setSlot 0 { phase := .replaying, step := 0, passed := -1, redo := 0 }
     let s := s.setBin (s.slotDie 0) (s.openBin 0 (s.nextGen 0) + 1)
     s.slotReady 0 = true ∧ s.opensAgain 0 = true ∧ s.genHeld (s.nextGen 0) = true ∧ s.plan.reload.contains 0 = false ∧
       s.dieBin (s.slotDie 0) ≠ s.openBin 0 (s.nextGen 0)) := by decide +kernel
/-- The bin of die 0 differs from the next one and is not excluded; its voltage is a free value on either side of 850 mV. -/
theorem test_bins : toOpen.dieSlot 0 = some 0 ∧ toOpen.slotReady 0 = true ∧
    (let s := toOpen.setBin 0 1
     s.nextBin 0 < s.dieBin 0 ∧ s.pwr.excluded.contains (s.nextBin 0) = false) := by decide +kernel

/-- SYNC and WAIT_DECLARED that wait, and a live op for the time-outs. -/
def waitOp : State := withOp jobbed 0 0x0E 2 0 [] [0x1000_2001] [] { phase := .waiting }
theorem test_waits : let o := waitOp.opAt 0 false 0
    waitOp.opOf 0 0 0x0E 2 = some o ∧ o.allReleased (waitOp.opRun 0 0) = false ∧ o.unit = 0 ∧ waitOp.dieSlot 0 = some 0 ∧
    waitOp.flt.suspects = [] ∧ (waitOp.ops 0 false).all (fun x => (waitOp.opRun 0 x.index).phase == .waiting) = true ∧
    ((linkOp 3 1).setOp 48 0 { phase := .running }).ctl.pulls = [] := by decide +kernel

/-- A computed op whose transfers have ended, and an audit with nothing left of the step. -/
theorem test_op_complete : let s := withOp jobbed 48 3 1 0 [] [] [] { phase := .computed }
    let o := s.opAt 48 false 0
    s.liveOp 48 0 = some o ∧ s.transferEnded 48 o = true ∧ s.holdsWrites 48 0 = false ∧ o.cls ≠ 0x10 ∧ o.cls ≠ 0 ∧ o.cls ≠ 1 := by decide +kernel
theorem test_audit : let s := linkOp 0x10 1
    let o := s.opAt 48 false 0
    (s.ops 48 false).all (fun x => x.index == 0) = true ∧ (s.started 48 o).auditObjs 48 = none := by decide +kernel

/-- A live CRC of one MXFP4 tile, listed in the image's tensor table at `base`, whose bytes are not those of its hallmark. -/
def badTileSt (base hm : Nat) : State :=
  let b := recBytes 7 2 4 [(base, 32 * 2 ^ 40 + 32 * 2 ^ 16 + 2 ^ 10 + 8), (2 ^ 60 + 0x8000, 2 ^ 40 + 2 ^ 16 + 2 ^ 10 + 10)] [] [0, 0, 0, 0]
  let o := 0x80 + b.length
  let tab := leBytes 8 base ++ leBytes 8 (base + 4096) ++ leBytes 4 7 ++ leBytes 4 1 ++ [0, 0, 8, 0] ++ leBytes 4 0 ++
    leBytes 8 (o / 16) ++ leBytes 4 1 ++ leBytes 4 0
  let s := ((slot0.setImg 0 false 0x18 (leBytes 4 1)).setImg 0 false 0x20 (leBytes 8 (o + tab.length))).setImg 0 false 0x80 (b ++ tab)
  let s := s.setSlot 0 { phase := .opened, step := 0, ops := [(0, { phase := .waiting })] }
  if aSpace base = 1 then (s.stN 0 [1]).stN 4096 (leBytes 4 hm) else s
theorem test_bad_tile : let s := badTileSt (2 ^ 60) (hallmarkF (zeros 544) 7 0 0)
    (s.liveOp 0 0).isSome = true ∧ (s.badTile 0 (s.opAt 0 false 0) 0 0).isSome = true := by
  simp only [State.badTile, State.badOperand, State.badTiles, State.tileOk, hallmark_force]
  decide +kernel
/-- The second read agrees with the stored word, or not; the tensor stands in the stack, or in the far tier. -/
theorem test_second_read : (let s := badTileSt (2 ^ 60) (hallmarkF (zeros 544) 7 0 0)
     ∃ t ∈ s.tensors 0 false, (s.tilePlace 0 (s.opAt 0 false 0) 0 t 0).2 = hallmark (zeros 544) t.id 0 (t.tagRead (s.slot 0).step) ∧
       aSpace t.base ≠ 3 ∧ t.mode = 0 ∧ (s.slot 0).replays = 0 ∧ (s.opAt 0 false 0).retain = false) ∧
    (let s := badTileSt (2 ^ 60) 0
     ∃ t ∈ s.tensors 0 false, (s.tilePlace 0 (s.opAt 0 false 0) 0 t 0).2 ≠ hallmark (zeros 544) t.id 0 (t.tagRead (s.slot 0).step)) := by
  simp only [hallmark_force]; decide +kernel
theorem test_bad_far_tile : let s := badTileSt (3 * 2 ^ 60) 0
    (s.badTile 0 (s.opAt 0 false 0) 0 0).isSome = true ∧ aSpace (3 * 2 ^ 60) = 3 := by
  simp only [State.badTile, State.badOperand, State.badTiles, State.tileOk, hallmark_force]
  decide +kernel
/-- Port 0 UP with flits to resend, with one ready on VC.2, and with none. -/
def up0 : State := State.reset.setPhase 0 5
def aFlit : Flit := { typ := 1, vc := 2, eom := true }
theorem test_transmit : up0.portPhase 0 = 5 ∧ (up0.port 0).resend = [] ∧ (up0.port 0).retry = [] ∧ up0.pickVc 0 = none ∧
    ((up0.setPort 0 { up0.port 0 with resend := [aFlit] }).port 0).resend = [aFlit] := by decide +kernel
theorem test_pick_vc : let s := up0.setPort 0 { up0.port 0 with ready := [[], [], [aFlit], [], []] }
    s.pickVc 0 = some 2 ∧ s.portPhase 0 = 5 := by decide +kernel
theorem test_vc3_first : let s := up0.setPort 0 { up0.port 0 with ready := [[], [], [aFlit], [aFlit], []] }
    0 < (s.port 0).credits 0 3 ∧ (s.port 0).slotSent.getD 3 0 < s.vcShare 0 3 := by decide +kernel
/-- A retry buffer with the SEQ of an ACK in its middle. -/
theorem test_retry_buffer : ({ retry := [{ aFlit with seq := 1 }, { aFlit with seq := 2 }, { aFlit with seq := 3 }] } : PortState).retry =
    [{ aFlit with seq := 1 }] ++ { aFlit with seq := 2 } :: [{ aFlit with seq := 3 }] := by decide

/-- A flit with its CRC word. -/
def sealFlit (f : Flit) : Flit := { f with crc := flitCrc f }

set_option maxRecDepth 100000 in
/-- Flits at port 0: sound ones of the port's EPOCH with and without the expected SEQ, one of another EPOCH, one with an error,
an ACK and a NAK; and a DATA flit of a VC that a control port does not have. -/
theorem test_receive : portError 0 (sealFlit { typ := 1 }) = false ∧ portError 0 { typ := 1, crc := 1 } = true ∧
    portError 0 (sealFlit { typ := 1, seq := 1 }) = false ∧ portError 0 (sealFlit { typ := 1, epoch := 63 }) = false ∧
    (up0.countFec 0 (sealFlit { typ := 1 })).epoch 0 = 0 ∧
    ((up0.setPort 0 ((up0.port 0).header (sealFlit { typ := 1 }))).port 0).rxSeq = 0 ∧
    portError 0 (sealFlit { typ := 0, ackk := 1 }) = false ∧ portError 0 (sealFlit { typ := 0, ackk := 2, seq := 4095 }) = false ∧
    portError 48 (sealFlit { typ := 1, vc := 4 }) = true := by decide +kernel
theorem test_ack_due : 0 < ((up0.setPort 0 { up0.port 0 with unacked := 1 }).port 0).unacked := by decide +kernel

/-- A powered module, whose ports may come up. -/
def lit : State := { State.reset with pwr := { State.reset.pwr with railsOn := true } }
set_option maxRecDepth 100000 in
/-- Ports on their way up: enabled with light and in a loopback, trained, aligned, and with an IDENT of the peer and of another. -/
theorem test_bring_up : lit.portPhase 47 = 0 ∧ lit.flt.hold = false ∧ lit.portAwake 47 = true ∧
    (lit.setField 48 0x18 0x040 16 16 1).loopSel 0 = 0 ∧
    ((lit.setField 48 0x18 0x040 14 12 1).setField 48 0x18 0x040 16 16 1).loopSel 0 = 1 ∧
    ((lit.wr 48 0x18 0x048 0x100).setField 48 0x18 0x040 16 16 1).field 48 0x18 0x048 23 8 ≠ 0xFFFF ∧
    ((lit.wr 48 0x18 0x048 0x100).setField 48 0x18 0x040 16 16 1).enabled 0 = true ∧
    (lit.setPhase 0 1).portPhase 0 = 1 ∧ (lit.setPhase 0 2).portPhase 0 = 2 ∧
    2 ≤ (lanesOf (((lit.setPhase 0 2).setHealth 0 3 3).txHealthy 0)).length ∧
    (lit.setPhase 0 3).loopSel 0 = 0 ∧ (lit.setPhase 0 3).portPhase 0 = 3 ∧ ((lit.setPhase 0 3).setField 48 0x18 0x040 14 12 3).loopSel 0 = 3 ∧
    ((lit.setPhase 0 8).setField 48 0x18 0x040 14 12 3).portPhase 0 = 8 := by decide +kernel
set_option maxRecDepth 100000 in
theorem test_ident : let f := sealFlit { typ := 2, payload := leBytes 8 0x0005_0007 }
    let s := ((lit.setPhase 0 4).wr 48 0x18 0x048 0x0705)
    portError 0 f = false ∧ s.portPhase 0 = 4 ∧ natAt f.payload 0 2 = 7 ∧ natAt f.payload 2 1 = 5 ∧ s.field 48 0x18 0x048 23 8 = 7 ∧
    s.field 48 0x18 0x048 5 0 = 5 ∧ s.loopSel 0 = 0 ∧ lit.field 48 0x18 0x048 23 8 ≠ 7 := by decide +kernel
set_option maxRecDepth 100000 in
theorem test_echo : flitError (sealFlit { typ := 3 }) = false ∧ ((up0.setField 48 0x18 0x040 15 15 1).field 48 0x18 0x040 15 15) = 1 ∧
    up0.epoch 0 = 0 ∧ up0.portPhase 0 ≠ 8 ∧ 0 < ((up0.setPort 0 { up0.port 0 with echoes := 1 }).port 0).echoes := by decide +kernel
/-- Lanes: too few, enough with the same in use, and a lane in use lost; and the engine input that goes dark. -/
theorem test_widths : let u := (up0.setLaneMask 0 0 0xFF).setLaneMask 0 1 0xFF
    (u.setHealth 0 0 0).portPhase 0 = 5 ∧ (u.setHealth 0 0 0).tooNarrow 0 = true ∧ (u.setHealth 0 0xFF 0xFF).tooNarrow 0 = false ∧
    nextLanes 0 0xFF ((u.setHealth 0 0xFF 0xFF).txHealthy 0) = 0xFF ∧ nextLanes 0 0xFF ((u.setHealth 0 0x7F 0xFF).txHealthy 0) ≠ 0xFF ∧
    (u.setHealth 0 0x7F 0xFF).tooNarrow 0 = false ∧ ((u.setPhase 0 6).setHealth 0 0xFF 0xFF).portPhase 0 = 6 ∧
    (up0.setPhase 0 7).portPhase 0 = 7 ∧ up0.link.dark.contains 63 = false ∧
    (up0.field 48 0x18 0x058 31 28 ≤ ((up0.setPort 0 { up0.port 0 with nakCount := 15 }).port 0).nakCount) ∧
    ((u.setPhase 0 6).setHealth 0 0 0).tooNarrow 0 = true := by decide +kernel

/-- Messages at link die 48 of a module that is not installed, whose number reads 65535. -/
def m0 : Msg := { dst := 65535, src := 1, kind := 1, hops := 3, gen := 1, flags := 0, step := 0, xfer := 5, seg := 0, len := 0,
                  addr := 2 ^ 60, sync := 0, aux := 0, data := [], vc := 0 }
/-- Slot 0 with an image that lists one BF16 tensor of a tile, at address 0 of its stack (R306). -/
def withTensor (s : State) : State :=
  let t := s.setImg 0 false 0x20 (leBytes 8 0xB0)
  let t := t.setImg 0 false 0x80 (leBytes 8 (2 ^ 60) ++ leBytes 8 (2 ^ 60 + 4096) ++ leBytes 4 7 ++ leBytes 4 1 ++ zeros 8)
  t.setImg 0 false 0xA0 (leBytes 8 8 ++ leBytes 4 1)
def landing : State := withTensor slot0
theorem test_write : landing.moduleId = 65535 ∧ landing.isDross m0 = false ∧ (landing.wakeModule).inMirror m0 = false ∧
    (landing.wakeModule).canLand m0 = true ∧ landing.wakeModule.net.seen = [] ∧
    (landing.wakeModule.slot 0).phase = .idle ∧ landing.wakeModule.slotUsed 0 = true ∧ landing.wakeModule.slotReach 0 = true ∧
    (jobbed.wr 60 0 0x200 0x10000).slotReach 0 = false ∧ (jobbed.wr 60 0 0x200 0x10000).slotUsed 0 = true ∧
    (landing.wakeModule.obj (landing.wakeModule.msgKey 48 { m0 with sync := 0x1000_2003 })).deferral = 0 := by decide +kernel
theorem test_fetch : let m := { m0 with kind := 2, len := 8, aux := 65536 }
    m.vc = 0 ∧ aSpace m.addr = 1 ∧ aSlot m.addr = 0 ∧ xValid (slot0.xlat 0) = true ∧ slot0.slotReach 0 = true ∧
    slot0.poisonLoc (slot0.resolve 48 m.step m.addr) 1 = false ∧ slot0.isDross m = false := by decide +kernel
theorem test_fetch_data : let m := { m0 with kind := 3, vc := 1, sync := 1 }
    landing.isDross m = false ∧ landing.net.fetches = [] ∧ landing.canLand m = true ∧ xferSid m.xfer < 60 := by decide +kernel
def aSegment : Segment := { msg := { m0 with dst := 1, src := 65535 }, sid := 0, op := 0, tag := jobbed.dieTag 0 }
theorem test_complete : let s := { jobbed with net := { jobbed.net with segments := [aSegment] } }
    let m := { m0 with kind := 4, vc := 1 }
    s.isDross m = false ∧ aSegment.tag = s.dieTag (s.slotDie 0) ∧
    (s.net.segments.find? (fun g => !g.done && !g.retry && g.msg.xfer == m.xfer && g.msg.seg == m.seg && g.msg.dst == m.src
      && decide (g.msg.step = m.step))) = some aSegment := by decide +kernel
theorem test_routed : ({ m0 with dst := 1 } : Msg).dst ≠ jobbed.moduleId ∧ jobbed.downList 0 = none ∧
    ({ jobbed with net := { jobbed.net with downLists := [(0, [])] } }).downList 0 = some [] := by decide +kernel
theorem test_timers : let s := { jobbed with net := { jobbed.net with segments := [{ aSegment with retry := true }], held := [(48, m0)], waiting := [(48, m0)] } }
    (s.net.segments.find? (fun g => g.retry && g.msg.xfer == 5 && g.msg.seg == 0)).isSome = true ∧
    s.net.held.find? (fun e => e.1 == 48) = some (48, m0) ∧ aSpace m0.addr = 1 ∧
    s.flushWaiting.net.waiting.any (fun e => e.1 == 48) = true ∧ s.dieGone 48 = false ∧
    ((s.setPair 1 { early := [(48, m0)] }).pair 1).early = [(48, m0)] ∧
    s.checkWrite .firmware 48 0 0x108 0 = none := by decide +kernel
/-- VC.3 messages: the next one of the pair, a later one and an older one. -/
theorem test_vc3 : let m := { m0 with kind := 5, vc := 3, seg := 2 ^ 24 + 1 }
    ((jobbed.pair 1).heard 1).isSome = true ∧ m.seg / 2 ^ 24 % 256 = 1 ∧
    ((jobbed.pair 1).heard 1).all (fun p => decide (p.next = 0)) = true ∧
    (2 ^ 24 - 1 + 2 ^ 24 - 0) % 2 ^ 24 = 2 ^ 24 - 1 ∧ jobbed.isDross m = false := by decide +kernel

/-- Rows, pages and stacks in the states that maintenance meets. -/
theorem test_rows : let k := rowKey 0 0 0
    let k' := rowKey 47 24575 2047
    (State.reset.setRow k (.watched 3)).row k = .watched 3 ∧ (State.reset.setRow k' (.remappedWatched 3)).row k' = .remappedWatched 3 ∧
    State.reset.mem.poison = [] ∧ (State.reset.poolFree 0).head? = some 24512 ∧ State.reset.mem.copying = [] ∧ State.reset.mem.asleep = [] ∧
    (0 : Nat) % stackBytes % pageBytes / 256 ≠ pageBytes / 256 - 1 := by decide +kernel
/-- A page that is copied, with pool pages free, and with none. -/
theorem test_page_copy : let s := { State.reset with mem := { State.reset.mem with copying := [24511] } }
    s.mem.copying.contains (0 * 2 ^ 15 + 24511) = true ∧ (s.poolFree 0).head? = some 24512 ∧ s.ckp.guardDue = [] ∧ s.mem.sleepDue = [] ∧
    ({ s with mem := { s.mem with subst := (List.range 64).map (fun i => (i, 24512 + i)) } }.poolFree 0) = [] := by decide +kernel
theorem test_self_refresh : let s := State.reset.setField 0 0x0E 0x040 0 0 1
    s.field 0 0x0E 0x040 0 0 = 1 ∧ s.stackQuiet 0 = true ∧ s.mem.copying.any (fun k => k / 2 ^ 15 == 0) = false ∧
    (State.reset.setField 0 0x0E 0x040 0 0 0).field 0 0x0E 0x040 0 0 = 0 ∧ State.reset.mem.farLost = [] ∧ State.reset.mem.farRetried = [] := by decide +kernel

/-- A module that may begin a job, one in genesis, one at a released step, and one that may replay. -/
def mayBegin : State :=
  { jobbed with ldg := { jobbed.ldg with job := false }, plan := { jobbed.plan with shadow := .ready, committed := true } }
theorem test_genesis : mayBegin.jobIn = false ∧ mayBegin.field 60 0 0x380 15 15 = 0 ∧ mayBegin.plan.shadow = .ready ∧
    mayBegin.windowsOk (some 0) = true ∧ mayBegin.ldg.initBad = false ∧ mayBegin.baysBad = false := by decide +kernel
def released : State := { jobbed with ldg := { jobbed.ldg with newestReleased := 0, recs := [{ step := 0, gen := 0 }], genesis := 1 } }
theorem test_end_and_replay : released.jobIn = true ∧ released.ldg.newestOpened = released.ldg.newestReleased ∧
    (released.stepRec 0).isSome = true ∧ released.isRoot = true ∧ wordStep (released.sel .cpA 62 0x20 0x058) = 0 ∧
    released.ldg.genesis = 1 ∧ ({ released with ldg := { released.ldg with recs := [{ step := -1, gen := 0 }] } }.stepRec (-1)).isSome = true := by
  decide +kernel
theorem test_seal_tree : let s := released.setField 62 0x20 0x048 6 0 1
    s.ldg.genesis = 1 ∧ s.reportsOf (-1) = [] ∧ s.sealChildren = 1 := by decide +kernel
theorem test_defer : let s := mayBegin
    let d := deferOf (wordBytes [s.rd 62 0x20 0x088, s.rd 62 0x20 0x090, s.rd 62 0x20 0x098, 0])
    (s.sel .cpA 62 0x20 0x080).toNat = s.ldg.defers.length ∧ d.seq = 0 ∧ s.ldg.standby = true := by decide +kernel
def armedObj : SyncObj :=
  { sid := 0, data := true, p := 1, phase := .armed, registered := [{ sid := 0, op := 0, ref := 0, gen := 0, step := 0 }] }
theorem test_elastic : let s := (jobbed.setObj 0 armedObj).setField 62 0x20 0x040 4 4 1
    s.obj 0 = armedObj ∧ armedObj.registered.any (fun w => w.gen % 256 == armedObj.gen) = true ∧ s.ldgMode = true := by decide +kernel

/-- Checkpoint work under way: a tier-0 copy, a protected block, a placement and a substituted slot. -/
def copying : State := { jobbed with ckp := { jobbed.ckp with protectedStep := some 0, bays := [(0, { tier := 0, step := 0, st := 1 })] } }
theorem test_checkpoint : copying.compSlots.contains 0 = true ∧
    [0, 1].find? (fun b => (copying.bay (copying.slotStack 0) b).st == 1 && decide ((copying.bay (copying.slotStack 0) b).step = 0)) = some 0 ∧
    SMap.get (fun _ => 0) copying.ckp.copied 0 ≠ 1 ∧ copying.baysBad = false ∧ copying.field 60 0 0x380 15 15 ≠ 1 := by decide +kernel
theorem test_copy_turns : copying.ckp.copiedSlots = [] ∧ copying.mem.copying = [] ∧ copying.copyFailed 0 = false ∧
    (({ copying with ckp := { copying.ckp with restoring := 2 } } : State).wr 62 0x20 0x218 0x10000).ckpSrc = none ∧
    ({ copying with ckp := { copying.ckp with bays := [(0, { tier := 0, step := 0, st := 3 })] } }.copyFailed 0) = true := by decide +kernel
/-- A slot whose die is out, with a spare and a stack that is reached or not, and a slot that has lost its way. -/
def noDie0 : State := { slot0 with ldg := { slot0.ldg with job := false }, stu := { slot0.stu with outDies := [0], spares := [44] } }
theorem test_substitution : noDie0.slotUsed 0 = true ∧ noDie0.dieOut (noDie0.slotDie 0) = true ∧
    noDie0.pickSpare (noDie0.slotStack 0) = some 44 ∧ noDie0.jobIn = false ∧ noDie0.viaLost 0 = false ∧
    noDie0.stackReach 0 = true ∧ (noDie0.wr 0 0 0x048 0).stackReach 0 = false ∧
    { noDie0 with stu := { noDie0.stu with spares := [] } }.pickSpare 0 = none ∧
    ((noDie0.setSlot 0 { substituting := true }).slot 0).substituting = true := by decide +kernel
theorem test_via_lost : let s := (((jobbed.wr 60 0 0x200 (setFld (setFld 0x10000 21 20 2) 37 32 44)).wr (altDie 0) 0 0x048 0xF).wr 0 0x0F 0x058 2)
    s.viaLost 0 = true := by decide +kernel

/-- Plan sets: none, one that is loaded, one that is locked, and requests before and after their announcement. -/
theorem test_plan_sets : State.reset.shadowBusy = false ∧
    (let s := State.reset.setPlan { State.reset.plan with shadow := .loading }
     s.plan.shadow = .loading ∧ (s.setReject).isSome = true) ∧
    (let s := State.reset.setPlan { State.reset.plan with swap := some { gen := 1, n := 1 } }
     s.plan.swap = some { gen := 1, n := 1 } ∧ s.swapOk 1 = false) := by decide +kernel
/-- A loading set of link and hub images without ops, for a module whose translation holds no compute slot; and a swap that
holds R54. -/
def wholeSet : State :=
  let s := forN 44 (fun n t => t.wr 60 0 (0x200 + 8 * n) 0) State.reset
  s.setPlan { s.plan with shadow := .loading, checked := (List.range 12).map (fun i => (48 + i, zeros 64)) }
theorem test_set_commits : wholeSet.plan.shadow = .loading ∧ wholeSet.setReject = none := by decide +kernel
def swapSt : State :=
  let s := forN 48 (fun n t => t.wr 60 0 (0xA00 + 8 * n) 0) jobbed
  s.setPlan { s.plan with shadow := .ready }
theorem test_swap_ok : swapSt.swapOk 1 = true ∧ jobbed.swapOk 1 = false := by decide +kernel
theorem test_route_image : (List.replicate (2 ^ 19) ((0, 1) : Nat × Nat)).length = 2 ^ 19 ∧ State.reset.plan.route.length < 2 ^ 19 :=
  ⟨List.length_replicate, by decide⟩

/-- A PLAN_DATA frame of slot 0 that the management port passes on. -/
def awake : State := { jobbed with sec := { jobbed.sec with dies := [{ running := some 0 }, {}] } }
theorem test_plan_data : ((awake.setPlan { awake.plan with shadow := .loading }).recv .cpA
      { typ := 4, len := 64, data := zeros 64, addr := 0 } 4).2 = none ∧
    (let s := (awake.setPlan { awake.plan with shadow := .loading }).setCpStatus 1
     (s.recv .cpA { typ := 4, len := 64, data := zeros 64 } 4).2 = some { typ := 4, len := 64, data := zeros 64 } ∧
     (s.recv .cpA { typ := 4, len := 64, data := zeros 64 } 4).1.plan.shadow = .loading) := by decide +kernel

/-- Pages without a shadow armed, with one armed, and an ARM that is judged good and one that is not. -/
theorem test_shadow_pages : awake.pageThere 20 2 = true ∧ awake.swapState 20 2 ≠ 1 ∧ awake.swapState 20 2 ≠ 2 ∧
    (awake.setSwap 20 2 1).swapState 20 2 = 1 ∧ (awake.setSwap 20 2 2).swapState 20 2 = 2 ∧
    (awake.armCheck 20 2).isSome = true ∧ awake.jobIn = true ∧ (awake.rd 20 2 0x038).toNat = 0 := by decide +kernel
theorem test_arm_accepted : let s := { awake with ldg := { awake.ldg with job := false } }
    s.armCheck 20 2 = none ∧ s.shadowBad 20 2 = none := by decide +kernel
/-- A register of every field type, a rejected write and an accepted one. -/
theorem test_register_writes : (rowOf 20 2 0x040).isSome = true ∧ (rowOf 20 2 0x048).isSome = true ∧
    (let s := awake.setCpStatus 1
     let f (a : Nat) : Frame := { typ := 2, addr := a, len := 8, aux := 1, data := zeros 8 }
     (s.recv .cpA (f 0) 2).2 = some (f 0) ∧ addrBad (f 0) = false ∧ (s.recv .cpA (f 0) 2).1.unreachable 0 0 0 1 = false ∧
     blockType 0 0 = some 0x01 ∧ (s.recv .cpA (f 0) 2).1.checkWrite .cpA 0 0 0 0 = some 3) := by decide +kernel
theorem test_register_reads : let s := awake.setCpStatus 1
    let f : Frame := { typ := 1, addr := 0, len := 0, aux := 1 }
    (s.recv .cpA f 1).2 = some f ∧ addrBad f = false ∧ (s.recv .cpA f 1).1.unreachable 0 0 0 1 = false ∧
    (s.recv .cpA f 1).1.readDenied .cpA 0 = false ∧ blockType 0 0 ≠ none ∧ blockType 0 0x30 = none := by decide +kernel

/-! ## Host, firmware and keys -/

/-- A PULL whose input a copy is kept of, and pulls that wait for their back-off or for a correction. -/
def keptPull : State :=
  let s := withOp jobbed 48 0x0F (1 + 2 ^ 19) 0 [] [] [] { phase := .waiting }
  { s with ldg := { s.ldg with retained := [{ sid := 0, step := 0, op := 0, seg := 48, off := 0, len := 0, kind := 0 }] } }
def aPull : Pull := { sid := 48, op := 0, win := 3, q := 0, stage := .backoff }
def pulling (x : Pull) : State := { linkOp 0x0F 1 with ctl := { jobbed.ctl with pulls := [x] } }
theorem test_pull_kept : readyB keptPull 48 0x0F 1 = true ∧ (keptPull.opAt 48 false 0).retain = true ∧
    ((keptPull.started 48 (keptPull.opAt 48 false 0)).keptInput 48 (keptPull.opAt 48 false 0)).isSome = true ∧
    ((linkOp 0x0F 1).opAt 48 false 0).retain = false ∧ (linkOp 0x0F 2).sec.conf = false ∧
    ((linkOp 0x0F 2).started 48 ((linkOp 0x0F 2).opAt 48 false 0)).sec.conf = false := by decide +kernel
theorem test_pull_stages :
    (pulling aPull).ctl.pulls.find? (fun p => p.sid == 48 && p.op == 0 && p.stage == .backoff) = some aPull ∧
    (let x := { aPull with stage := .faulted, code := 0x0210 }
     (pulling x).ctl.pulls.filter (fun y => y.inputFaulted 3) = [x]) := by decide +kernel

/-- An outstanding read and an outstanding write, their answers, and headers on every side of what is expected. -/
def aDma : Dma := { tag := 2 ^ 31, port := .cpA, write := false, win := 3, off := 0, bytes := 0, data := [], sid := 48, op := 0 }
def asking (x : Pull) (d : Dma) : State :=
  let s := (pulling x).setCpStatus 1
  (({ s with ctl := { s.ctl with dma := [d] }, sec := awake.sec }).wr 54 0x1E 0x150 0x4000_0040_0000_0100).setPhase 48 5
def dmaAnswer (typ : Nat) : Frame := { typ := typ, tag := 2 ^ 31 }
theorem test_dma_read : (let s := asking { aPull with stage := .header } aDma
    let r := s.recv .cpA (dmaAnswer 6) 6
    let u := r.1.dropDma (2 ^ 31)
    r.2 = some (dmaAnswer 6) ∧ r.1.ctl.dma.find? (fun d => d.tag == 2 ^ 31 && !d.write && d.bytes == 0) = some aDma ∧
    u.dmaPull aDma = some { aPull with stage := .header } ∧ aPull.init = false ∧ hdrSeq (leBytes 8 0) = 0 ∧ hdrSeq (leBytes 8 1) = 1 ∧
    u.pullTries aPull = 0 ∧ u.headerFits aPull (zeros 32) = true ∧ u.headerFits aPull (zeros 16 ++ leBytes 4 7 ++ zeros 12) = false ∧
    u.dataBytes (zeros 32) = 0 ∧ u.dataBytes (zeros 20 ++ leBytes 4 64 ++ zeros 8) = 64 ∧ u.sec.conf = false) := by decide +kernel
theorem test_dma_write : let d := { aDma with write := true }
    let s := asking { aPull with push := true, stage := .writing, data := zeros 1 } d
    let r := s.recv .cpA (dmaAnswer 8) 8
    r.2 = some (dmaAnswer 8) ∧ r.1.ctl.dma.find? (fun d => d.tag == 2 ^ 31 && d.write) = some d ∧
    (r.1.dropDma (2 ^ 31)).dmaPull d = some { aPull with push := true, stage := .writing, data := zeros 1 } := by decide +kernel
/-- An entry of one byte: its hallmark, and a wrong one. -/
theorem test_hallmarks : hallmarkOk (zeros 24 ++ leBytes 4 (crc32c (zeros 25)).toNat) (zeros 1) = true ∧
    hallmarkOk (zeros 28) (zeros 1) = false := by decide +kernel
theorem test_dma_timeouts : let s := asking aPull aDma
    s.ctl.dma.find? (fun y => y.tag == 2 ^ 31) = some aDma ∧ s.hostCut = false ∧ s.dmaPath 48 = .cpA ∧
    aDma.tries < s.dmaRetries aDma ∧ (s.setField 54 0x1E 0x048 19 16 0).dmaRetries aDma = 0 := by decide +kernel

/-- Frames of the events, of a key exchange, and of a session at its limits. -/
def confSt : State := { awake.setCpStatus 1 with sec := { awake.sec with conf := true } }
def aSession : Session := { keys := [1], entryKeys := [2] }
theorem test_sessions : let s := awake.setCpStatus 1
    (s.recv .cpA { typ := 0x0A, addr := 3 } 0x0A).2 = some { typ := 0x0A, addr := 3 } ∧ s.ctl.lost = 0 ∧
    (s.recv .cpA { typ := 0x0B } 0x0B).2 = some { typ := 0x0B } ∧ s.sec.conf = false ∧
    (let f : Frame := { typ := 0x0B, len := 72, data := zeros 72 }
     let t := { confSt with ctl := { confSt.ctl with session := some aSession, exchange := some .cpB } }
     (t.recv .cpA f 0x0B).2 = some f ∧ (t.recv .cpA f 0x0B).1.firmwareUp = true ∧
       (t.recv .cpA f 0x0B).1.ctl.session = some aSession ∧ t.ctl.exchange = some .cpB ∧ s.ctl.exchange = none) ∧
    2 ^ 32 ≤ ({ aSession with txc := 2 ^ 32 } : Session).txc := by decide +kernel

/-- The management port's frames, and the same on a control port that is up. -/
theorem test_management_frames : (awake.mgmtFrame .mgmt { typ := 0x22 } 0x22).2 = some { typ := 0x22 } ∧
    (let f : Frame := { typ := 0x20, len := 32, data := zeros 32 }
     (awake.mgmtFrame .mgmt f 0x20).2 = some f ∧ f.data.length = 32) ∧ (awake.setCpStatus 1).cpStatus .cpA = 1 := by decide +kernel
/-- Both management dies run; an update in each of its phases, with and without a standby. -/
def bothUp : State := { awake with ldg := { awake.ldg with job := false }, sec := { awake.sec with dies := [{ running := some 0 }, { running := some 0 }] } }
def inUpd (u : UpdPhase) (tgt : Nat) : State := { bothUp with sec := { bothUp.sec with upd := u, target := tgt } }
def aloneUp : State := ({ awake with ldg := { awake.ldg with job := false } }).setField 60 0x23 0x048 0 0 1
def fwFrame (op : Nat) : Frame := { typ := 0x25, aux := op }
theorem test_updates : [1, 2, 3, 4, 5, 6].all (fun op => (bothUp.fwCtl .mgmt (fwFrame op) op).2 == some (fwFrame op)) = true ∧
    bothUp.hasStandby = true ∧ bothUp.sec.upd = .idle ∧ aloneUp.hasStandby = false ∧ aloneUp.allowReset = true ∧
    aloneUp.jobIn = false ∧ awake.allowReset = false ∧ (inUpd .receiving 1).sec.upd = .receiving ∧ (inUpd .staged 1).hasStandby = true ∧
    (inUpd .staged 1).sec.target = 1 - (inUpd .staged 1).sec.active ∧
    (let f : Frame := { typ := 0x24, addr := 2 ^ 26, len := 64, data := zeros 64 }
     (bothUp.mgmtFrame .mgmt f 0x24).2 = some f ∧ 2 ^ 26 < f.addr + f.data.length) := by decide +kernel
theorem test_stage_refused :
    ({ inUpd .receiving 1 with sec := { (inUpd .receiving 1).sec with dies := [{ running := some 0 }, { delivered := [true, false] }] } } :
      State).stageCode ≠ 0 := by decide +kernel
theorem test_commits : let a := inUpd .activated 0
    let s (d : List MgmtDie) : State := { a with sec := { a.sec with dies := d } }
    let x := s [{ running := some 1 }, {}]
    let y := s [{ running := some 1 }, { running := some 0 }]
    (x.md x.sec.active).running = some x.updSlot ∧ x.hasStandby = false ∧ x.sec.target = x.sec.active ∧
    (y.md y.sec.active).running = some y.updSlot ∧ y.hasStandby = true := by decide +kernel

/-- Sections that INSTALL admits and does not, with one module number on either side of the greatest, and revocations. -/
theorem test_install : installGood (zeros 200) = true ∧ installGood (leBytes 2 0xFFFE ++ zeros 198) = true ∧
    installGood (leBytes 2 0xFFFF ++ zeros 198) = false ∧
    (let f : Frame := { typ := 0x27, len := 200, data := zeros 200 }
     (bothUp.mgmtFrame .mgmt f 0x27).2 = some f ∧ bothUp.jobIn = false ∧ awake.jobIn = true) := by decide +kernel
theorem test_revocation : bothUp.revokeCode 3 (zeros 114) = 11 ∧ (inUpd .receiving 1).sec.upd ≠ .idle := by decide +kernel
theorem test_mode_change : (let s := (bothUp.wr 60 0x23 0x040 1)
    s.jobIn = false ∧ s.sec.upd = .idle ∧ (s.field 60 0x23 0x040 0 0 == 1) = !s.sec.conf) ∧
    (bothUp.field 60 0x23 0x040 0 0 == 1) = bothUp.sec.conf ∧
    (let s := { bothUp with sec := { bothUp.sec with scrubbing := true, toScrub := [47] } }
     s.sec.scrubbing = true ∧ s.sec.toScrub.contains 47 = true) := by decide +kernel

/-! ## Faults and resets -/

def aRec (cls : Nat) : FaultRec := { cls := cls, code := 0x0301, die := 0, part := 0 }
def collected (r : FaultRec) (log : List FaultRec) : State :=
  { jobbed with flt := { jobbed.flt with collectors := [(0, [r])], log := log } }
theorem test_fault_records : SMap.get (fun _ => []) (collected (aRec 2) []).flt.collectors 0 = [aRec 2] ∧
    (collected (aRec 2) []).mergeTarget (aRec 2) = none ∧ (collected (aRec 2) [aRec 3]).mergeTarget (aRec 2) = some (aRec 3) ∧
    (collected (aRec 0) []).corrQuiet (aRec 0) = false ∧ (aRec 4).cls = 4 := by decide +kernel
theorem test_windows : [aRec 2, { aRec 2 with part := 999 }, aRec 3].all (fun r =>
      (collected r [r]).flt.log.find? (fun x => x.seq == 0 && x.isOpen && !x.claimed) == some r) = true ∧
    jobbed.flt.log.find? (fun x => x.seq == 0 && x.isOpen && !x.claimed) = none ∧ jobbed.flt.hold = false ∧
    ({ jobbed with flt := { jobbed.flt with hold := true } } : State).flt.hold = true := by decide +kernel

/-- A suspect that waits for itself through another unit of its die, and dies that see nothing of it. -/
def hung : State := { waitOp with flt := { waitOp.flt with suspects := [(0, 0)] } }
def ring : List Edge := [{ die := 0, unit := 0, toDie := 0, toUnit := 1 }, { die := 0, unit := 1, toDie := 0, toUnit := 0 }]
theorem test_hang : hung.flt.suspects = [(0, 0)] ∧ (hung.liveOp 0 0).isSome = true ∧ hung.slotDie 0 = 0 ∧
    cycleOf (ring.filter (fun e => e.die == 0)) (0, 0) ≠ [] ∧ cycleOf ring (0, 0) ≠ [] ∧ jobbed.flt.suspects = [] ∧
    hangDomains [(0, 3), (0, 3)] = [.core 3] ∧ hangDomains [(0, 3), (0, 2)] = [.die 0] ∧
    hangDomains [(0, 3), (48, 3), (56, 0)] = [.die 0, .linkDie 48, .hub 56] := by decide +kernel
theorem test_handover : (jobbed.md 1).running = none ∧ (bothUp.md 1).running.isSome = true ∧ (bothUp.md 1).inService = true ∧
    jobbed.slotUsed 48 = true ∧ jobbed.replayMax = 3 ∧ (jobbed.setSlot 48 { replays := 4 }).replayMax < ((jobbed.setSlot 48 { replays := 4 }).slot 48).replays ∧
    (jobbed.setEdge 0 0 2).field 0 0x10 0x060 1 0 ≠ 0 ∧ jobbed.field 0 0x10 0x060 1 0 = 0 := by decide +kernel

theorem test_can_reset : jobbed.Inv ∧ [Domain.array 191 6, .core 191, .stackPhy 47, .die 47, .die 61, .port 47, .linkDie 55, .hub 59, .module].all
    (fun d => domainOk d && jobbed.canReset d) = true :=
  ⟨by constructor <;> decide +kernel, by decide +kernel⟩
theorem test_no_reset : State.reset.pwr.railsOn = false ∧ jobbed.sec.active < 2 ∧ jobbed.ldg.active < 2 := by decide +kernel

def resetting (d : Domain) : State := { jobbed with flt := { jobbed.flt with resetting := [d] } }
theorem test_reset_ends : domainOk (ofRef (.die 0)) = true ∧ (resetting (.die 0)).flt.resetting = [.die 0] ∧
    (resetting (.die 0)).tripHolds (.die 0) = false ∧
    ({ resetting (.die 0) with pwr := { jobbed.pwr with tripped := [0] } } : State).tripHolds (.die 0) = true ∧
    domainOk (ofRef .module) = true ∧ Domain.module ∉ (resetting .module).flt.outOfService ∧
    [DomainRef.array 3 6, .core 3, .stackPhy 3, .port 3, .linkDie 50, .hub 57].all (fun r => domainOk (ofRef r)) = true := by decide +kernel
theorem test_reset_limits : jobbed.rstLimit = 3 ∧ jobbed.modLimit = 5 ∧ resetCount (.die 0) jobbed.flt.resets = 0 ∧
    resetCount (.die 0) [(.die 0, 3)] = 3 ∧ resetCount .module [(.module, 5)] = 5 := by decide +kernel

/-! ## Power, start and test -/

theorem test_thermal : let u := jobbed.wr 0 0 0x050 0
    hottest [80, 114] = (114, 1) ∧ (hottest [80, 89]).1 < 90 ∧ u.warnOf 0 = 95 ∧ jobbed.pwr.railsOn = true ∧
    (∀ c ∈ List.range 4, ∀ a ∈ List.range 7, u.aryState (4 * 0 + c) a ≠ 3) := by decide +kernel
theorem test_rails : (let s := { jobbed with flt := { jobbed.flt with fenced := [5] } }
    5 ∈ s.flt.fenced ∧ 6 ∉ s.flt.fenced) ∧ SMap.get (fun _ => 0) jobbed.pwr.avsTries 0 < 3 ∧
    3 ≤ SMap.get (fun _ => 0) [(0, 3)] 0 ∧ (bothUp.raise 47 0x0701 {}).dieSlot 47 = none ∧ slot0.dieSlot 0 = some 0 ∧
    (toOpen.slot 0).phase ≠ .opened ∧ jobbed.pwr.lostPairs = [] := by decide +kernel
theorem test_sleep : (∀ x ∈ jobbed.ldg.recs, x.phase ≠ .replaying) ∧
    jobbed.usedSlots.all (fun sid => (jobbed.slot sid).phase == .idle) = true ∧ jobbed.pwrStat = 0 ∧
    (jobbed.setPwrStat 1).pwrStat = 1 ∧ (jobbed.setPwrStat 2).pwrStat = 2 ∧ (jobbed.setPwrStat 3).pwrStat = 3 ∧
    5 ∉ jobbed.stu.missedRails ∧ State.reset.pwr.railsOn = false := by decide +kernel
theorem test_taps : bothUp.sec.debugLocked = false ∧ bothUp.jobIn = false ∧ jobbed.jobIn = true ∧ monitor 0 = true ∧ monitor 2 = false := by
  decide +kernel
theorem test_loopbacks : loopExists 1 1 3 = true ∧ loopExists 1 2 3 = false ∧ loopExists 6 47 3 = true ∧
    loopPath .cpA ≠ some (6, 47) ∧
    (let v : Word := BitVec.ofNat 64 (2 ^ 63 + 60000 * 2 ^ 32 + 47 * 2 ^ 16 + 6 * 2 ^ 8 + 3)
     bothUp.checkWrite .cpA 60 0 0x390 v = none ∧ bitAt v 63 = true ∧ fld v 47 32 = 60000 ∧
     loopExists (fld v 11 8) (fld v 23 16) (fld v 1 0) = true ∧ bothUp.stu.loops = []) := by decide +kernel

/-! ## Worked examples of the spec -/

/-- The check value of CRC-32C over the nine digits. -/
theorem test_crc32c : crc32c (ascii [0x31, 0x32, 0x33, 0x34, 0x35, 0x36, 0x37, 0x38, 0x39]) = 0xE3069283 := by decide +kernel

/-- Chapter 3: one block swaged to MXFP8 E4M3 (scale byte and codes), and a value above the greatest, which saturates. -/
theorem test_swage_block : let v (b : Nat) : FV × BitVec 32 := (decodeElem 0 b 0, 0)
    cvtBlock (cvtOf 0x4) ([0x415C, 0xBE98, 0x3A80, 0x3880, 0x3780].map v) = (0x7A, [0x7E, 0xD2, 0x10, 0x01, 0x00], {}) ∧
    cvtBlock (cvtOf 0x4) ([0x415C, 0x4178].map v) = (0x7A, [0x7E, 0x7E], { ovf := true }) := by decide +kernel
/-- Chapter 3: a stochastic rounding. The draw decides between the neighbours at d; RND = 0 takes the nearer. -/
theorem test_stochastic_rounding : let x := spec64.decode 0x3FF0_1400_0000_0000
    let k : DrawKey := { job := 0x0000_0A17_0000_0C01, step := 81006, tensor := 0x2A4 }
    (cvtElem (cvtOf 0x0001_0400) 0x9FFF_FFFF x).1 = 0x3F81 ∧ (cvtElem (cvtOf 0x0001_0400) 0xA000_0000 x).1 = 0x3F80 ∧
    (cvtElem (cvtOf 0) 0 x).1 = 0x3F81 ∧
    draw k 5000 1027 1 = (philox (0x100, 0x1388, 0x2A4, 1) 0x0001_306F 0x0A17).2.2.2 := by decide +kernel

/-- Chapter 4: a chunk of MXFP8 elements, its entry and its B16 output. -/
def mxChunk : List DotPos := [⟨0x7E, 0x7A, 0x38, 0x7D⟩, ⟨0xD2, 0x7A, 0x44, 0x7D⟩, ⟨0x10, 0x7A, 0x30, 0x7D⟩, ⟨0x01, 0x7A, 0x4D, 0x7D⟩]
  ++ List.replicate 28 ⟨0, 0x7A, 0, 0x7D⟩
theorem test_mx_chunk : laneChunk 4 mxChunk = { sum := 26753, top := 8, repeated := false } ∧
    promote 0 (laneChunk 4 mxChunk) = (0x400A_2040_0000_0000, false) ∧
    (cvtElem (cvtOf 0) 0 (val64 0x400A_2040_0000_0000)).1 = 0x4051 := by decide +kernel
/-- Chapter 4: a lane of B16 whose chunk overflows and is repeated, and one beside it that does not. -/
def ovfLane : List DotPos := List.replicate 31 ⟨0x3FC0, 0, 0x3FA0, 0⟩ ++ [⟨0x3FC0, 0, 0x3800, 0⟩]
def nextLane : List DotPos :=
  (List.range 31).map (fun k => if k % 2 = 0 then ⟨0x3FC0, 0, 0x3FA0, 0⟩ else ⟨0x3FC0, 0, 0xBF80, 0⟩) ++ [⟨0x3FC0, 0, 0x3800, 0⟩]
theorem test_overflow_chunk : laneChunk 0 ovfLane = { sum := 952320, top := 7, repeated := true } ∧
    (promote 0x4310_0000_0000_0000 (laneChunk 0 ovfLane)).1 = 0x4310_0000_0000_00E8 ∧
    laneChunk 0 nextLane = { sum := 491523, top := 5, repeated := false } ∧
    (promote 0 (laneChunk 0 nextLane)).1 = 0x401E_000C_0000_0000 := by decide +kernel
/-- Chapter 12: the residue checker predicts the sum of that chunk and finds a bit flipped in it. -/
theorem test_residues : res31 26753 = 0 ∧ res31 27265 = 16 := by decide

/-- Chapter 6: the backward row of a soft maximum, and mean and variance of 3, 5, 7 and 9. -/
theorem test_smax_row :
    (smaxRow ([0x3F20, 0x3E80, 0x3DC0, 0x3D00].map (fun b => fvTo64 (decodeElem 0 b 0)))
      ([0xBFC0, 0x3F40, 0x3EC0, 0x4000].map (fun b => fvTo64 (decodeElem 0 b 0)))).map (fun x => (cvtElem (cvtOf 0) 0 (val64 x.1)).1)
      = [0xBF08, 0x3EB4, 0x3DC5, 0x3DAA] := by decide +kernel
theorem test_mean_variance : let r := meanvarFinal false (meanvarPartial [nat64 3, nat64 5, nat64 7, nat64 9])
    r.1.1 = nat64 6 ∧ r.2.1 = nat64 5 := by decide +kernel

/-- Chapter 8: a ping address of slot 20 in step 81,006, and its row. -/
theorem test_logical_address : (State.reset.setField 20 0x0F 0x040 47 36 1024).resolve 20 81006 0x1144_0001_2345_6700 = .near 0xF1_A345_6700 ∧
    rowSel 0x1_A345_6700 = 5 * 64 + 61 ∧ 0x1_A345_6700 / 2 ^ 21 = 3354 := by decide +kernel
/-- Chapter 9: the header of a NAK. -/
theorem test_nak_header : flitHeader { typ := 0, ackseq := 0x5A3, ackk := 2, crvc := 2, crcnt := 0x3F0, epoch := 5 }
    = 0x0000_02D1_C8FC_0005 := by decide
/-- Chapter 13: the body of a REPLAY notice. -/
theorem test_replay_body : replayBody 0x14 20 7 1225 0x3B 0 =
    [0x14, 0x00, 0x00, 0x14, 0x07, 0x00, 0x00, 0x00, 0xC9, 0x04, 0x00, 0x00, 0x3B, 0x00, 0x00, 0x00] := by decide
/-- Chapter 11: the WINDOW address of an entry. -/
theorem test_window_address : windowAddr 3 (324026 % 64 * 0x40_0000) = 0x4180_0000_0E80_0000 := by decide
/-- Chapter 15: the words of a record but for its CHECK. -/
theorem test_record_words : let r : FaultRec :=
      { cls := 3, code := 0x0301, merged := 1, seq := 0x2A17, die := 20, typ := 2, inst := 1, sub := 2, step := 81530,
        op := 188403, slot := 20, eclass := 0, tag := 0x41, island := 0, count := 0x2C1A_7E30_1B58, temp := 78, vdd := 780, bin := 0,
        activity := 6, detail := 0x0205_0000_0000_0000, lastCode := 0x0310, lastClass := 3, module := 0x14 }
    [0, 1, 2, 3, 4, 5, 6].map (wordAt r.bytes) = [0x0160_0301_0100_2A17, 0x5008_0402_0014_0000, 81530, 0x02DF_F314_0041_0000,
      0x5000_2C1A_7E30_1B58, 0x004E_030C_1800_0000, 0x0205_0000_0000_0000] ∧ natAt r.bytes 56 4 = 0x0310_6000 := by decide +kernel
/-- Chapter 18: with the default spares the slots of the missing dies stand on the last four. -/
theorem test_slot_plan : [11, 12, 35, 36].map (fun n => State.reset.slotPlan.lookup n) = [some 44, some 45, some 46, some 47] := by
  decide +kernel
/-- Chapter 19: a rejected write of COR_RAMP's shadow, an accepted one, and the clearing of the rejection. -/
def ramp (v : Nat) : Frame := { typ := 2, addr := 0x0140_2840, len := 8, aux := 1, data := leBytes 8 v }
theorem test_rejected_write : let s := { awake.setCpStatus 1 with plan := awake.plan }
    let a := (regWrite .cpA (ramp 0x88_0403) s)
    a.rd 20 2 0x010 = 0x0001_8401_0001_0002 ∧ a.rd 20 2 0x840 = s.rd 20 2 0x840 ∧
    (regWrite .cpA (ramp 0x80_0403) a).rd 20 2 0x840 = 0x80_0403 := by decide +kernel

/-! ## Ill-formed commands -/

/-- One ill-formed command for each check of `Instr.wf`, each beside the greatest the check admits. -/
theorem test_ill_formed : ([.stepOpen 60, .sum 0 (2 ^ 24), .contextSave 192, .guardCopy 48 0, .guardCopy 0 24576, .flitTransmit 50,
    .binChange 48, .mov 0 8192 0 0, .mov 0 0 16 0, .rand 0 0 0 (2 ^ 16), .grantWindow 4, .verifyRead 0 0 2048 none,
    .burnishRead (48 * 0xC_0000_0000) none false, .cxlLinkDown 4, .loadInit .cpA 32, .dieRtDataWrite .firmware 47 0,
    .segmentRetryResend (2 ^ 64) 0, .vc3GapTimeout 65536, .elasticWaitExpiry 0 8192, .downList 48, .dmaTmoExpiry (2 ^ 32),
    .arm .cpA 64 0, .arm .cpA 0 256, .alertN 73, .refclkLoss 4, .fltClaim .firmware (2 ^ 32), .arrayReset 0 7, .dieReset 59,
    .hubReset 55, .linkDieReset 47, .fabricEdgeDown 0 4, .resetComplete (.die 50), .resetComplete (.array 0 7),
    .regRead .cpA { typ := 256 }, .regRead .cpA { typ := 1, flags := 256 }, .regRead .cpA { typ := 1, tag := 2 ^ 32 },
    .write 48 { dst := 65536, src := 0, kind := 0 }, .write 48 { dst := 0, src := 0, kind := 0, vc := 5 }, .write 48 { dst := 0, src := 0, kind := 0, step := -2 }, .ack 0 { typ := 16 }, .ack 0 { typ := 0, seq := 4096 },
    .plnLoadBegin .cpA (2 ^ 32)] : List Instr).all (fun c => !c.wf) = true := by decide +kernel
theorem test_well_formed : ([.stepOpen 59, .sum 59 (2 ^ 24 - 1), .contextSave 191, .guardCopy 47 24575, .flitTransmit 49, .binChange 47,
    .mov 191 8191 15 15, .rand 0 0 0 65535, .grantWindow 3, .verifyRead 47 24575 2047 none, .cxlLinkDown 3, .loadInit .cpA 31,
    .vc3GapTimeout 65535, .elasticWaitExpiry 63 8191, .downList 47, .arm .cpA 63 255, .alertN 72, .refclkLoss 3, .arrayReset 191 6,
    .dieReset 63, .hubReset 59, .linkDieReset 48, .fabricEdgeDown 47 3, .resetComplete (.die 60), .plnLoadBegin .cpA (2 ^ 32 - 1)] :
    List Instr).all Instr.wf = true := by decide +kernel
/-- No row of the table is given bits. -/
theorem test_no_table_word : decodeTableWord 32 5 = none := rfl
theorem test_idle : step State.reset = .next State.reset := rfl
end Sys2Proof.Tests
end

section
/-!
PROOFS. The stacks and their alternate dies (R12, R479): where the alternate die lies, and which stack the two alternate
views of the stack base page show.
-/
namespace Sys2Proof.Machine

/-! ## The alternate die by column -/

theorem altDie_of_col_lt_seven {n : Nat} (h : n % 8 ≠ 7) : altDie n = n + 1 := if_neg h

theorem altDie_of_col_seven {n : Nat} (h : n % 8 = 7) : altDie n = n - 1 := if_pos h

/-- The alternate die is a compute die: 48 is a whole number of rows. -/
theorem altDie_lt {n : Nat} (hn : n < 48) : altDie n < 48 := by
  by_cases h : n % 8 = 7
  · rw [altDie_of_col_seven h]; omega
  · rw [altDie_of_col_lt_seven h]; omega

/-- The alternate die lies in the row of its stack, die 8y + x being in row y (R11). -/
theorem altDie_row (n : Nat) : altDie n / 8 = n / 8 := by
  by_cases h : n % 8 = 7
  · rw [altDie_of_col_seven h]; omega
  · rw [altDie_of_col_lt_seven h]; omega

/-! ## The three views of the stack base page -/

@[simp] theorem canonAddr_stackBase (die off : Nat) : canonAddr die 0x0F off = regAddr die 0x0F off := by
  simp [canonAddr]

/-- Block 0x11 shows the stack of the die before. -/
@[simp] theorem canonAddr_altViewPrev (die off : Nat) : canonAddr die 0x11 off = regAddr (die - 1) 0x0F off := rfl

/-- Block 0x12 shows the stack of the die after. -/
@[simp] theorem canonAddr_altViewNext (die off : Nat) : canonAddr die 0x12 off = regAddr (die + 1) 0x0F off := rfl

/-- Compute dies in columns 1 to 7 carry block 0x11. -/
theorem blockType_altViewPrev {die : Nat} (hd : die < 48) (hc : 1 ≤ die % 8) : blockType die 0x11 = some 0x07 :=
  if_pos ⟨hd, hc⟩

/-- Compute dies in column 6 carry block 0x12. -/
theorem blockType_altViewNext {die : Nat} (hd : die < 48) (hc : die % 8 = 6) : blockType die 0x12 = some 0x07 :=
  if_pos ⟨hd, hc⟩

/-- Settles O46, by the column of the stack: in column 7 its alternate die is in column 6 and shows it in block 0x12, in
the other columns its alternate die is in columns 1 to 7 and shows it in block 0x11. -/
theorem alternateDies : Obligations.AlternateDies := by
  intro n hn
  have hlt := altDie_lt hn
  refine ⟨rfl, hlt, altDie_row n, ?_⟩
  by_cases h : n % 8 = 7
  · have hback : n - 1 + 1 = n := by omega
    rw [altDie_of_col_seven h] at hlt ⊢
    rw [if_pos h]
    exact ⟨fun off => by simp [hback], blockType_altViewNext hlt (by omega)⟩
  · rw [altDie_of_col_lt_seven h] at hlt ⊢
    rw [if_neg h]
    exact ⟨fun off => by simp, blockType_altViewPrev hlt (by omega)⟩

end Sys2Proof.Machine
end

section
/-!
PROOFS. Steps and their 64-bit words (R346): the word of the genesis step, the word of a counted step, and the step that
each of them names. The lemmas write `Int` for `Step`, the spelling in which `omega` reads a comparison.
-/
namespace Sys2Proof.Machine

@[simp] theorem stepWord_genesis : stepWord (-1) = 0xFFFF_FFFF_FFFF_FFFF := by decide

/-- A step that 64 bits can count is its own word. -/
theorem toNat_stepWord_of_nonneg {n : Int} (h0 : 0 ≤ n) (hn : n < 2 ^ 64) : ((stepWord n).toNat : Int) = n := by
  have hmod : n % (2 ^ 64 : Nat) = n := Int.emod_eq_of_lt h0 hn
  rw [stepWord, BitVec.toNat_ofInt, hmod, Int.toNat_of_nonneg h0]

@[simp] theorem wordStep_allOnes : wordStep 0xFFFF_FFFF_FFFF_FFFF = -1 := if_pos rfl

theorem wordStep_of_not_allOnes {w : Word} (h : w.toNat ≠ 2 ^ 64 - 1) : wordStep w = w.toNat := if_neg h

/-- The word of a step from 0 to 2^64 - 2 is not the genesis word, so it names that step. -/
theorem wordStep_stepWord_of_nonneg {n : Int} (h0 : 0 ≤ n) (hn : n < 2 ^ 64 - 1) : wordStep (stepWord n) = n := by
  have hword : ((stepWord n).toNat : Int) = n := toNat_stepWord_of_nonneg h0 (by omega)
  have hne : (stepWord n).toNat ≠ 2 ^ 64 - 1 := by omega
  rw [wordStep_of_not_allOnes hne, hword]

/-- The round trip, by cases: the genesis step, whose word `wordStep` sets apart, and the
counted steps, whose words stay below it. -/
theorem wordStep_stepWord {n : Int} (hlo : -1 ≤ n) (hhi : n < 2 ^ 64 - 1) : wordStep (stepWord n) = n := by
  obtain rfl | h0 : n = -1 ∨ 0 ≤ n := by omega
  · rw [stepWord_genesis, wordStep_allOnes]
  · exact wordStep_stepWord_of_nonneg h0 hhi

/-- Settles O10: the word of the genesis step and its place before step 0 are closed facts, and the round trip is
`wordStep_stepWord`. -/
theorem stepWordRoundTrip : Obligations.StepWordRoundTrip :=
  ⟨stepWord_genesis, by decide, by decide, fun _ => wordStep_stepWord⟩

end Sys2Proof.Machine
end

section
/-!
PROOFS. Bit fields of words: what a field reads as after a write of the same field, and of one that does not overlap it.
-/
namespace Sys2Proof.Machine

theorem two_pow_succ_eq_mul {hi lo : Nat} (hlo : lo ≤ hi) : 2 ^ (hi + 1) = 2 ^ lo * 2 ^ (hi + 1 - lo) := by
  rw [← pow_add]; congr 1; omega

/-- A word as the bits above a field, the field, and the bits below it. -/
theorem toNat_eq_fld_split (w : Word) {hi lo : Nat} (hlo : lo ≤ hi) :
    w.toNat = 2 ^ (hi + 1) * (w.toNat / 2 ^ (hi + 1)) + (2 ^ lo * fld w hi lo + w.toNat % 2 ^ lo) := by
  have hhigh := Nat.div_add_mod (w.toNat / 2 ^ lo) (2 ^ (hi + 1 - lo))
  rw [Nat.div_div_eq_div_mul, ← two_pow_succ_eq_mul hlo] at hhigh
  calc w.toNat = 2 ^ lo * (w.toNat / 2 ^ lo) + w.toNat % 2 ^ lo := (Nat.div_add_mod _ _).symm
    _ = _ := by rw [← hhigh, fld, two_pow_succ_eq_mul hlo]; ring

/-- A field's bits and the ones below it stay below the next bit. -/
theorem field_add_low_lt {hi lo : Nat} (v n : Nat) (hlo : lo ≤ hi) :
    2 ^ lo * (v % 2 ^ (hi + 1 - lo)) + n % 2 ^ lo < 2 ^ (hi + 1) := by
  have hv : v % 2 ^ (hi + 1 - lo) < 2 ^ (hi + 1 - lo) := Nat.mod_lt _ (by positivity)
  have hn : n % 2 ^ lo < 2 ^ lo := Nat.mod_lt _ (by positivity)
  rw [two_pow_succ_eq_mul hlo]
  calc _ < 2 ^ lo * (v % 2 ^ (hi + 1 - lo)) + 2 ^ lo := by omega
    _ = 2 ^ lo * (v % 2 ^ (hi + 1 - lo) + 1) := (Nat.mul_succ _ _).symm
    _ ≤ _ := Nat.mul_le_mul_left _ hv

/-- A written word, by the same split: only the field is new. -/
theorem toNat_setFld (w : Word) {hi lo : Nat} (v : Nat) (hlo : lo ≤ hi) (hhi : hi < 64) :
    (setFld w hi lo v).toNat =
      2 ^ (hi + 1) * (w.toNat / 2 ^ (hi + 1)) + (2 ^ lo * (v % 2 ^ (hi + 1 - lo)) + w.toNat % 2 ^ lo) := by
  have hsplit := toNat_eq_fld_split w hlo
  have hlow := field_add_low_lt v w.toNat hlo
  have hhigh : 2 ^ (hi + 1) * (w.toNat / 2 ^ (hi + 1) + 1) ≤ 2 ^ 64 := by
    rw [show 2 ^ 64 = 2 ^ (hi + 1) * 2 ^ (64 - (hi + 1)) by rw [← pow_add]; congr 1; omega]
    refine Nat.mul_le_mul_left _ (Nat.div_lt_of_lt_mul ?_)
    rw [← pow_add, show hi + 1 + (64 - (hi + 1)) = 64 by omega]
    exact w.isLt
  rw [Nat.mul_succ] at hhigh
  rw [setFld, BitVec.toNat_ofNat, Nat.mul_comm (fld w hi lo), Nat.mul_comm (v % _), Nat.mod_eq_of_lt] <;> omega

/-- The bits above a written field stay. -/
theorem toNat_setFld_div (w : Word) {hi lo : Nat} (v : Nat) (hlo : lo ≤ hi) (hhi : hi < 64) :
    (setFld w hi lo v).toNat / 2 ^ (hi + 1) = w.toNat / 2 ^ (hi + 1) := by
  rw [toNat_setFld w v hlo hhi, Nat.mul_add_div (by positivity), Nat.div_eq_of_lt (field_add_low_lt v _ hlo), Nat.add_zero]

/-- The bits from a written field on: the old ones above it, and the value written. -/
theorem toNat_setFld_div_low (w : Word) {hi lo : Nat} (v : Nat) (hlo : lo ≤ hi) (hhi : hi < 64) :
    (setFld w hi lo v).toNat / 2 ^ lo = 2 ^ (hi + 1 - lo) * (w.toNat / 2 ^ (hi + 1)) + v % 2 ^ (hi + 1 - lo) := by
  have hlow : w.toNat % 2 ^ lo / 2 ^ lo = 0 := Nat.div_eq_of_lt (Nat.mod_lt _ (by positivity))
  rw [toNat_setFld w v hlo hhi, two_pow_succ_eq_mul hlo, Nat.mul_assoc, ← Nat.add_assoc, ← Nat.mul_add,
    Nat.mul_add_div (by positivity), hlow, Nat.add_zero]

/-- The bits below a written field stay. -/
theorem toNat_setFld_mod (w : Word) {hi lo : Nat} (v : Nat) (hlo : lo ≤ hi) (hhi : hi < 64) :
    (setFld w hi lo v).toNat % 2 ^ lo = w.toNat % 2 ^ lo := by
  rw [toNat_setFld w v hlo hhi, two_pow_succ_eq_mul hlo, Nat.mul_assoc, ← Nat.add_assoc, ← Nat.mul_add,
    Nat.mul_add_mod, Nat.mod_mod]

theorem fld_setFld_self (w : Word) {hi lo : Nat} (v : Nat) (hlo : lo ≤ hi) (hhi : hi < 64) :
    fld (setFld w hi lo v) hi lo = v % 2 ^ (hi + 1 - lo) := by
  rw [fld, toNat_setFld_div_low w v hlo hhi, Nat.mul_add_mod, Nat.mod_mod]

/-- A write leaves every field above it alone. -/
theorem fld_setFld_of_above (w : Word) {hi lo h l : Nat} (v : Nat) (hlo : lo ≤ hi) (hhi : hi < 64) (hl : hi < l) :
    fld (setFld w hi lo v) h l = fld w h l := by
  obtain ⟨d, rfl⟩ := Nat.exists_eq_add_of_lt hl
  rw [show hi + d + 1 = hi + 1 + d by omega]
  simp only [fld, pow_add _ (hi + 1) d, ← Nat.div_div_eq_div_mul, toNat_setFld_div w v hlo hhi]

/-- A write leaves every field below it alone. -/
theorem fld_setFld_of_below (w : Word) {hi lo h l : Nat} (v : Nat) (hlo : lo ≤ hi) (hhi : hi < 64) (hl : l ≤ h) (hb : h < lo) :
    fld (setFld w hi lo v) h l = fld w h l := by
  have hdvd : 2 ^ (h + 1) ∣ 2 ^ lo := pow_dvd_pow 2 hb
  have hlow (x : Word) : fld x h l = x.toNat % 2 ^ lo % 2 ^ (h + 1) / 2 ^ l := by
    rw [Nat.mod_mod_of_dvd _ hdvd, two_pow_succ_eq_mul hl, Nat.mod_mul_right_div_self, fld]
  rw [hlow, hlow, toNat_setFld_mod w v hlo hhi]

end Sys2Proof.Machine
end

section
/-!
PROOFS. The SWAP field of a page (R482): BLK_STAT shows no swap at reset, so a write that changes the field, and one that
records a rejection, read as written in every register map.
-/
namespace Sys2Proof.Machine

/-! ## BLK_STAT at reset -/

@[simp] theorem addrOff_regAddr (die blk off : Nat) : addrOff (regAddr die blk off) = off % 2 ^ 12 := by
  unfold addrOff regAddr; omega

/-- The home of a BLK_STAT is a BLK_STAT: every view and alias of a page keeps the offset. -/
theorem addrOff_canonAddr_blkStat (die blk : Nat) : addrOff (canonAddr die blk 0x010) = 0x010 := by
  unfold canonAddr
  split_ifs <;> simp_all

theorem rowAt_blkStat_reset (die ty : Nat) : (rowAt die ty 0x010).map rowReset = some 2 := rfl

/-- BLK_STAT resets to its state field alone, and to zero where no page is. -/
theorem resetReg_blkStat_lt {a : Nat} (ha : addrOff a = 0x010) : (resetReg a).toNat < 2 ^ 4 := by
  unfold resetReg
  cases hty : blockType (addrDie a) (addrBlk a) with
  | none => simp [hty]
  | some ty =>
    obtain ⟨r, hr, hreset⟩ := Option.map_eq_some_iff.mp (rowAt_blkStat_reset (addrDie a) ty)
    simp [ha, hty, hr, hreset]

theorem fld_resetReg_blkStat (die blk hi : Nat) {lo : Nat} (hlo : 4 ≤ lo) :
    fld (resetReg (canonAddr die blk 0x010)) hi lo = 0 := by
  have hlt : (resetReg (canonAddr die blk 0x010)).toNat < 2 ^ lo :=
    (resetReg_blkStat_lt (addrOff_canonAddr_blkStat die blk)).trans_le (Nat.pow_le_pow_right (by decide) hlo)
  rw [fld, Nat.div_eq_of_lt hlt, Nat.zero_mod]

/-! ## BLK_STAT written -/

theorem State.rd_wr_of_ne_reset (s : State) {die blk off : Nat} {v : Word} (h : v ≠ resetReg (canonAddr die blk off)) :
    (s.wr die blk off v).rd die blk off = v :=
  SMap.get_set_new h

/-- A BLK_STAT with a bit set above its state field reads as written. -/
theorem State.rd_wr_blkStat (s : State) {die blk hi lo : Nat} {v : Word} (hlo : 4 ≤ lo) (hv : fld v hi lo ≠ 0) :
    (s.wr die blk 0x010 v).rd die blk 0x010 = v := by
  apply State.rd_wr_of_ne_reset
  rintro rfl
  exact hv (fld_resetReg_blkStat die blk hi hlo)

/-- A swap state other than none reads as written. -/
theorem State.swapState_setSwap (s : State) (die blk : Nat) {v : Nat} (hv : v % 4 ≠ 0) :
    (s.setSwap die blk v).swapState die blk = v % 4 := by
  have hfld : fld (setFld (s.rd die blk 0x010) 5 4 v) 5 4 = v % 4 := fld_setFld_self _ v (by decide) (by decide)
  have hrd : (s.setSwap die blk v).rd die blk 0x010 = setFld (s.rd die blk 0x010) 5 4 v :=
    s.rd_wr_blkStat (le_refl 4) (hfld ▸ hv)
  rw [State.swapState, State.field, hrd, hfld]

/-- BLK_STAT with a rejection recorded: REJ_VALID, REJ_OFFSET, REJ_REASON and REJ_COUNT. -/
def rejectWord (w : Word) (off reason : Nat) : Word :=
  setFld (setFld (setFld (setFld w 48 48 1) 47 36 off) 35 32 reason) 31 16 (Nat.min 0xFFFF (fld w 31 16 + 1))

theorem State.reject_eq_wr (s : State) (die blk off reason : Nat) :
    s.reject die blk off reason = s.wr die blk 0x010 (rejectWord (s.rd die blk 0x010) off reason) := rfl

theorem fld_rejectWord_valid (w : Word) (off reason : Nat) : fld (rejectWord w off reason) 48 48 = 1 := by
  simp [rejectWord, fld_setFld_of_above, fld_setFld_self]

theorem fld_rejectWord_swap (w : Word) (off reason : Nat) : fld (rejectWord w off reason) 5 4 = fld w 5 4 := by
  simp [rejectWord, fld_setFld_of_below]

/-- A rejection leaves SWAP as it was (R487): it is recorded in the fields above. -/
@[simp] theorem State.swapState_reject (s : State) (die blk off reason : Nat) :
    (s.reject die blk off reason).swapState die blk = s.swapState die blk := by
  have hvalid : fld (rejectWord (s.rd die blk 0x010) off reason) 48 48 ≠ 0 := by simp [fld_rejectWord_valid]
  rw [State.reject_eq_wr, State.swapState, State.field, s.rd_wr_blkStat (by decide) hvalid, fld_rejectWord_swap]
  rfl

end Sys2Proof.Machine
end

section
/-!
PROOFS. ARM of a page (R487): the check that judges it, and the command of a row on a page that can be addressed.
-/
namespace Sys2Proof.Machine

/-! ## The list of armed pages -/

@[simp] theorem State.swapState_setArmed (s : State) (key v die blk : Nat) :
    (s.setArmed key v).swapState die blk = s.swapState die blk := rfl

@[simp] theorem State.armedFor_setArmed_succ (s : State) (key n : Nat) : (s.setArmed key (n + 1)).armedFor key = some n := by
  have hget : SMap.get (fun _ => 0) (s.setArmed key (n + 1)).plan.armed key = n + 1 := SMap.get_set_new (d := fun _ => 0) n.succ_ne_zero
  rw [State.armedFor, hget]

/-! ## The check of an ARM -/

/-- N is a boundary for which a page may be armed: 0 without a job, and above the newest opened step with one. -/
def State.armBoundary (s : State) (n : Nat) : Prop :=
  (s.jobIn = false → n = 0) ∧ (s.jobIn = true → s.ldg.newestOpened < (n : Int))

section
variable {s : State} {die blk : Nat} (h1 : s.swapState die blk ≠ 1) (h2 : s.swapState die blk ≠ 2)
include h1 h2

/-- A failing shadow register is found first. -/
theorem State.armCheck_of_shadowBad {e : Nat × Nat} (he : s.shadowBad die blk = some e) : s.armCheck die blk = some e := by
  simp [State.armCheck, h1, h2, he]

/-- With a good shadow, an N that breaks its condition is found next. -/
theorem State.armCheck_of_not_armBoundary (hbad : s.shadowBad die blk = none)
    (hn : ¬ s.armBoundary (s.rd die blk 0x038).toNat) : s.armCheck die blk = some (0x038, rejState) := by
  cases hjob : s.jobIn with
  | false =>
    have hpos : (s.rd die blk 0x038).toNat ≠ 0 := by simpa [State.armBoundary, hjob] using hn
    simp [State.armCheck, h1, h2, hbad, hjob, hpos]
  | true =>
    have hle : ((s.rd die blk 0x038).toNat : Int) ≤ s.ldg.newestOpened := by simpa [State.armBoundary, hjob] using hn
    simp [State.armCheck, h1, h2, hbad, hjob, hle]

theorem State.shadowBad_eq_none_of_armCheck (h : s.armCheck die blk = none) : s.shadowBad die blk = none := by
  by_contra hne
  obtain ⟨e, he⟩ := Option.ne_none_iff_exists'.mp hne
  simp [State.armCheck_of_shadowBad h1 h2 he] at h

theorem State.armBoundary_of_armCheck (h : s.armCheck die blk = none) : s.armBoundary (s.rd die blk 0x038).toNat := by
  by_contra hn
  have hbad := State.shadowBad_eq_none_of_armCheck h1 h2 h
  simp [State.armCheck_of_not_armBoundary h1 h2 hbad hn] at h

end

/-! ## The command -/

theorem State.arm_of_armCheck_some {s : State} {die blk o r : Nat} (h : s.armCheck die blk = some (o, r)) :
    s.arm die blk = s.reject die blk o r := by
  simp [State.arm, h]

theorem State.arm_of_armCheck_none {s : State} {die blk : Nat} (h : s.armCheck die blk = none) :
    s.arm die blk = (s.setSwap die blk 1).setArmed (pageKey die blk) ((s.rd die blk 0x038).toNat + 1) := by
  simp [State.arm, h]

theorem exec_arm_eq (s : State) (p : Path) (die blk : Nat) : exec (.arm p die blk) s = execArm p die blk s := rfl

/-- The row is ARM of a page that is there, for a path that may write it (R291). -/
theorem exec_arm_of_access {s : State} {p : Path} {die blk : Nat} (hp : blkAccess p blk = true) (hd : die < 64)
    (hb : blk < 256) (ht : s.pageThere die blk = true) : exec (.arm p die blk) s = .next (s.arm die blk) := by
  have hcmd : s.blkCmd p die blk 2 = s.arm die blk := by
    simp [State.blkCmd, ht, hp, State.blkCtl, fld]
  rw [exec_arm_eq, execArm, hcmd]
  simp [onUnit, hd, hb]

theorem blkAccess_of_ne_mgmt {p : Path} (blk : Nat) (hp : p ≠ .mgmt) : blkAccess p blk = true := by
  simp [blkAccess, hp]

/-- Settles O43, by the answer of the check: with none the page is armed for N, with an offset and a reason they are
recorded, and the two failures that R487 names are the first that the check looks for. -/
theorem armIsJudged : Obligations.ArmIsJudged := by
  intro s p die blk hp hd hb ht h1 h2
  have hexec := exec_arm_of_access (blkAccess_of_ne_mgmt blk hp) hd hb ht
  have hreject {o r : Nat} (h : s.armCheck die blk = some (o, r)) :
      exec (.arm p die blk) s = .next (s.reject die blk o r) := by
    rw [hexec, State.arm_of_armCheck_some h]
  refine ⟨fun h => ?_, fun o r h => ?_, fun hbad hn => ?_, fun h => ?_⟩
  · refine ⟨State.shadowBad_eq_none_of_armCheck h1 h2 h, State.armBoundary_of_armCheck h1 h2 h, _, hexec, ?_⟩
    rw [State.arm_of_armCheck_none h]
    exact ⟨s.swapState_setSwap die blk (v := 1) (by decide), State.armedFor_setArmed_succ _ _ _⟩
  · exact hreject (State.armCheck_of_shadowBad h1 h2 h)
  · exact hreject (State.armCheck_of_not_armBoundary h1 h2 hbad hn)
  · obtain ⟨⟨o, r⟩, he⟩ := Option.ne_none_iff_exists'.mp h
    exact ⟨_, hreject he, s.swapState_reject die blk o r⟩

end Sys2Proof.Machine
end

section
/-!
PROOFS. Every command keeps a state sound and leaves the queue alone: the law of each command's meaning under Laws, gathered
over the dispatch.
-/
namespace Sys2Proof.Machine

/-- Every next state of a command is sound, with the queue that stood behind the command. -/
theorem exec_sound {q : List Instr} {s : State} (h : s.Sound q) : (i : Instr) → OutSound q (exec i s)
  | .regRead p f => execRegRead_sound p f s h
  | .regWrite p f => execRegWrite_sound p f s h
  | .planData p f => execPlanData_sound p f s h
  | .routeImageApply => execRouteImageApply_sound s h
  | .plnLoadBegin p gen => execPlnLoadBegin_sound p gen s h
  | .plnLoadCommit p => execPlnLoadCommit_sound p s h
  | .plnLoadDiscard p => execPlnLoadDiscard_sound p s h
  | .swapReq p => execSwapReq_sound p s h
  | .swapCancel p => execSwapCancel_sound p s h
  | .swapTimeout => execSwapTimeout_sound s h
  | .stepOpen sid => execStepOpen_sound sid s h
  | .binChange die => execBinChange_sound die s h
  | .product sid op => execProduct_sound sid op s h
  | .kFold sid op => execKFold_sound sid op s h
  | .accWrite sid op => execAccWrite_sound sid op s h
  | .chunk sid op row colTile upset c => execChunk_sound sid op row colTile upset c s h
  | .assay core upset c => execAssay_sound core upset c s h
  | .secondAssay core upset c => execSecondAssay_sound core upset c s h
  | .touchstoneRun core array index upset c => execTouchstoneRun_sound core array index upset c s h
  | .contextSave core => execContextSave_sound core s h
  | .contextRestore core => execContextRestore_sound core s h
  | .idleTaper core => execIdleTaper_sound core s h
  | .grantWindow quadrant => execGrantWindow_sound quadrant s h
  | .map sid op => execMap_sound sid op s h
  | .rowMax sid op => execRowMax_sound sid op s h
  | .rowMin sid op => execRowMin_sound sid op s h
  | .kFoldVector sid op => execKFoldVector_sound sid op s h
  | .tileRowComplete sid op group disagree => execTileRowComplete_sound sid op group disagree s h
  | .add core n d a b => execAdd_sound core n d a b s h
  | .sub core n d a b => execSub_sound core n d a b s h
  | .mul core n d a b => execMul_sound core n d a b s h
  | .fma core n d a b c => execFma_sound core n d a b c s h
  | .div core n d a b => execDiv_sound core n d a b s h
  | .sqrt core n d a => execSqrt_sound core n d a s h
  | .rsqrt core n d a => execRsqrt_sound core n d a s h
  | .neg core n d a => execNeg_sound core n d a s h
  | .abs core n d a => execAbs_sound core n d a s h
  | .max core n d a b => execMax_sound core n d a b s h
  | .min core n d a b => execMin_sound core n d a b s h
  | .cmplt core n d a b => execCmplt_sound core n d a b s h
  | .cmple core n d a b => execCmple_sound core n d a b s h
  | .cmpeq core n d a b => execCmpeq_sound core n d a b s h
  | .select core n d a b c => execSelect_sound core n d a b c s h
  | .exp core n d a => execExp_sound core n d a s h
  | .expm1 core n d a => execExpm1_sound core n d a s h
  | .log core n d a => execLog_sound core n d a s h
  | .log1p core n d a => execLog1p_sound core n d a s h
  | .tanh core n d a => execTanh_sound core n d a s h
  | .sigmoid core n d a => execSigmoid_sound core n d a s h
  | .erf core n d a => execErf_sound core n d a s h
  | .gelu core n d a => execGelu_sound core n d a s h
  | .rand core n d seq => execRand_sound core n d seq s h
  | .mov core n d a => execMov_sound core n d a s h
  | .sum sid op => execSum_sound sid op s h
  | .sumsq sid op => execSumsq_sound sid op s h
  | .dot sid op => execDot_sound sid op s h
  | .meanvar sid op => execMeanvar_sound sid op s h
  | .mvCombine sid op => execMvCombine_sound sid op s h
  | .smaxBwd sid op => execSmaxBwd_sound sid op s h
  | .normFwd sid op => execNormFwd_sound sid op s h
  | .normBwd sid op => execNormBwd_sound sid op s h
  | .maxIdx sid op => execMaxIdx_sound sid op s h
  | .minIdx sid op => execMinIdx_sound sid op s h
  | .copy sid op => execCopy_sound sid op s h
  | .zero sid op => execZero_sound sid op s h
  | .gather sid op => execGather_sound sid op s h
  | .scatter sid op => execScatter_sound sid op s h
  | .scatterAdd sid op => execScatterAdd_sound sid op s h
  | .swage sid op => execSwage_sound sid op s h
  | .transpose sid op => execTranspose_sound sid op s h
  | .shake sid op => execShake_sound sid op s h
  | .crc sid op => execCrc_sound sid op s h
  | .verify sid op => execVerify_sound sid op s h
  | .sort sid op => execSort_sound sid op s h
  | .merge sid op => execMerge_sound sid op s h
  | .reduce sid op => execReduce_sound sid op s h
  | .broadcast sid op => execBroadcast_sound sid op s h
  | .nodeAdd sid op => execNodeAdd_sound sid op s h
  | .put sid op => execPut_sound sid op s h
  | .get sid op => execGet_sound sid op s h
  | .reslice sid op => execReslice_sound sid op s h
  | .farRead sid op => execFarRead_sound sid op s h
  | .farWrite sid op => execFarWrite_sound sid op s h
  | .sync sid op => execSync_sound sid op s h
  | .waitDeclared sid op => execWaitDeclared_sound sid op s h
  | .pull sid op => execPull_sound sid op s h
  | .push sid op => execPush_sound sid op s h
  | .stepEndAudit sid op => execStepEndAudit_sound sid op s h
  | .opComplete sid op => execOpComplete_sound sid op s h
  | .budgetOverrun sid op => execBudgetOverrun_sound sid op s h
  | .engineItemComplete sid op item engine disagree => execEngineItemComplete_sound sid op item engine disagree s h
  | .engSvcWrite p die v => execEngSvcWrite_sound p die v s h
  | .hallmarkReread sid op operand tile second => execHallmarkReread_sound sid op operand tile second s h
  | .verifyRead stack page rowSel symbol => execVerifyRead_sound stack page rowSel symbol s h
  | .pageCopyDone stack page => execPageCopyDone_sound stack page s h
  | .burnishRead addr symbol uncorrectable => execBurnishRead_sound addr symbol uncorrectable s h
  | .guardCopy stack block => execGuardCopy_sound stack block s h
  | .selfRefreshEntry stack => execSelfRefreshEntry_sound stack s h
  | .selfRefreshWake stack => execSelfRefreshWake_sound stack s h
  | .cxlRequestTimeout xp => execCxlRequestTimeout_sound xp s h
  | .cxlLinkDown xp => execCxlLinkDown_sound xp s h
  | .cxlRetrain p xp => execCxlRetrain_sound p xp s h
  | .tier0CopyDone sid => execTier0CopyDone_sound sid s h
  | .migrationDone sid => execMigrationDone_sound sid s h
  | .spareSubstitution sid => execSpareSubstitution_sound sid s h
  | .restore p => execRestore_sound p s h
  | .loadInit p win => execLoadInit_sound p win s h
  | .restorePlacementDone => execRestorePlacementDone_sound s h
  | .write die m => execWrite_sound die m s h
  | .fetch die m => execFetch_sound die m s h
  | .fetchData die m => execFetchData_sound die m s h
  | .complete die m => execComplete_sound die m s h
  | .segmentRetryResend xfer seg => execSegmentRetryResend_sound xfer seg s h
  | .arrive die m => execArrive_sound die m s h
  | .release die m => execRelease_sound die m s h
  | .routeWaitTimeout die => execRouteWaitTimeout_sound die s h
  | .vc3GapTimeout src => execVc3GapTimeout_sound src s h
  | .downList port => execDownList_sound port s h
  | .resendHoldTimeout die => execResendHoldTimeout_sound die s h
  | .undeclaredWaitLimit core => execUndeclaredWaitLimit_sound core s h
  | .dieRtDataWrite p die v => execDieRtDataWrite_sound p die v s h
  | .checked m => execChecked_sound m s h
  | .uncheck m => execUncheck_sound m s h
  | .seal m => execSeal_sound m s h
  | .replay m => execReplay_sound m s h
  | .reopen m => execReopen_sound m s h
  | .deferReq m => execDeferReq_sound m s h
  | .defer m => execDefer_sound m s h
  | .elasticWaitExpiry die obj => execElasticWaitExpiry_sound die obj s h
  | .inventory m => execInventory_sound m s h
  | .restorePick m => execRestorePick_sound m s h
  | .genesis p => execGenesis_sound p s h
  | .genesisHallmarksDone => execGenesisHallmarksDone_sound s h
  | .sealTreeTimeout => execSealTreeTimeout_sound s h
  | .endJob p => execEndJob_sound p s h
  | .replayJob p => execReplayJob_sound p s h
  | .replayMaxExceeded sid => execReplayMaxExceeded_sound sid s h
  | .ldgDeferWrite p v => execLdgDeferWrite_sound p v s h
  | .ledgerHandover => execLedgerHandover_sound s h
  | .dataFlit port f => execDataFlit_sound port f s h
  | .ack port f => execAck_sound port f s h
  | .nak port f => execNak_sound port f s h
  | .ackIntervalTimer port => execAckIntervalTimer_sound port s h
  | .flitTransmit port => execFlitTransmit_sound port s h
  | .retryLimReached port => execRetryLimReached_sound port s h
  | .brzEnableSet port => execBrzEnableSet_sound port s h
  | .brzEnableClear port => execBrzEnableClear_sound port s h
  | .lightReady port => execLightReady_sound port s h
  | .trainDone port tx rx search => execTrainDone_sound port tx rx search s h
  | .alignDone port => execAlignDone_sound port s h
  | .ident port f => execIdent_sound port f s h
  | .echo port f => execEcho_sound port f s h
  | .echoTimeout port => execEchoTimeout_sound port s h
  | .brzStateTimeout port => execBrzStateTimeout_sound port s h
  | .laneHealthChange port tx rx => execLaneHealthChange_sound port tx rx s h
  | .laserInput die engine input dbmTenths => execLaserInput_sound die engine input dbmTenths s h
  | .widthChangeDone port => execWidthChangeDone_sound port s h
  | .codewordLockLost port => execCodewordLockLost_sound port s h
  | .retrainDone port => execRetrainDone_sound port s h
  | .lossOfSignal port => execLossOfSignal_sound port s h
  | .brzPortRestart port => execBrzPortRestart_sound port s h
  | .dmaReadData p f => execDmaReadData_sound p f s h
  | .pullBackoffExpiry sid op => execPullBackoffExpiry_sound sid op s h
  | .ctlPullFix p win => execCtlPullFix_sound p win s h
  | .fixSExpiry win => execFixSExpiry_sound win s h
  | .dmaWriteAck p f => execDmaWriteAck_sound p f s h
  | .dmaTmoExpiry tag => execDmaTmoExpiry_sound tag s h
  | .eventAck p f => execEventAck_sound p f s h
  | .eventResendTimer => execEventResendTimer_sound s h
  | .keyExchange p f => execKeyExchange_sound p f s h
  | .keyExchangeTimeout => execKeyExchangeTimeout_sound s h
  | .frameCounterLimit => execFrameCounterLimit_sound s h
  | .attestReq p f => execAttestReq_sound p f s h
  | .certReq p f => execCertReq_sound p f s h
  | .fwData p f => execFwData_sound p f s h
  | .fwBegin p f => execFwBegin_sound p f s h
  | .fwStage p f => execFwStage_sound p f s h
  | .fwActivate p f => execFwActivate_sound p f s h
  | .fwCommit p f => execFwCommit_sound p f s h
  | .fwAbort p f => execFwAbort_sound p f s h
  | .revoke p f => execRevoke_sound p f s h
  | .install p f => execInstall_sound p f s h
  | .apply p => execApply_sound p s h
  | .debugLock p => execDebugLock_sound p s h
  | .scrubDone => execScrubDone_sound s h
  | .shadowLoad p die blk => execShadowLoad_sound p die blk s h
  | .arm p die blk => execArm_sound p die blk s h
  | .disarm p die blk => execDisarm_sound p die blk s h
  | .sleep p => execSleep_sound p s h
  | .sleepEntry => execSleepEntry_sound s h
  | .wake p => execWake_sound p s h
  | .thermalSample die sensors stack => execThermalSample_sound die sensors stack s h
  | .railTelemetryPoll rails => execRailTelemetryPoll_sound rails s h
  | .alertN rail => execAlertN_sound rail s h
  | .avsAckTimeout die => execAvsAckTimeout_sound die s h
  | .pmbusClockLowTimeout => execPmbusClockLowTimeout_sound s h
  | .refclkLoss pair => execRefclkLoss_sound pair s h
  | .porNRelease r => execPorNRelease_sound r s h
  | .powerGoodTimeout rail => execPowerGoodTimeout_sound rail s h
  | .porNAssert => execPorNAssert_sound s h
  | .railsOkDeassert => execRailsOkDeassert_sound s h
  | .tapInstruction die ir dr => execTapInstruction_sound die ir dr s h
  | .stuLoopStart p v => execStuLoopStart_sound p v s h
  | .loopbackEnd => execLoopbackEnd_sound s h
  | .faultRecord die limited => execFaultRecord_sound die limited s h
  | .handlingWindowExpiry seq => execHandlingWindowExpiry_sound seq s h
  | .fltClaim p seq => execFltClaim_sound p seq s h
  | .fltDone p seq => execFltDone_sound p seq s h
  | .fltCtlRelease p => execFltCtlRelease_sound p s h
  | .fltAryRel p v => execFltAryRel_sound p v s h
  | .releaseRunLapse core array => execReleaseRunLapse_sound core array s h
  | .faultWindowExpiry core array strike => execFaultWindowExpiry_sound core array strike s h
  | .waitMsExpiry sid op => execWaitMsExpiry_sound sid op s h
  | .dieDetectorTick die edges => execDieDetectorTick_sound die edges s h
  | .moduleDetectorTick edges => execModuleDetectorTick_sound edges s h
  | .heartbeatTimeout => execHeartbeatTimeout_sound s h
  | .arrayReset core a => execArrayReset_sound core a s h
  | .coreReset core => execCoreReset_sound core s h
  | .stackPhyReset die => execStackPhyReset_sound die s h
  | .dieReset die => execDieReset_sound die s h
  | .brazePortReset port => execBrazePortReset_sound port s h
  | .linkDieReset die => execLinkDieReset_sound die s h
  | .hubReset die => execHubReset_sound die s h
  | .moduleReset => execModuleReset_sound s h
  | .resetWatchdog d => execResetWatchdog_sound d s h
  | .rstLimitReached d => execRstLimitReached_sound d s h
  | .modLimitReached => execModLimitReached_sound s h
  | .mgmtHandover => execMgmtHandover_sound s h
  | .resetComplete d => execResetComplete_sound d s h
  | .fabricEdgeDown die edge => execFabricEdgeDown_sound die edge s h
  | .i3cTransactionTimeout => execI3cTransactionTimeout_sound s h
  | .stackScrubTimeout stack => execStackScrubTimeout_sound stack s h

theorem State.Inv.sound {s : State} (h : s.Inv) : s.Sound s.pending := ⟨h.regs, h.stack, h.far, h.dsm, rfl⟩

theorem State.Sound.inv {q : List Instr} {s : State} (h : s.Sound q) : s.Inv := by
  obtain ⟨hregs, hstack, hfar, hdsm, -⟩ := h
  exact ⟨hregs, hstack, hfar, hdsm⟩

/-- The queue is no part of what makes a state sound. -/
theorem State.Inv.withPending {s : State} (h : s.Inv) (q : List Instr) : State.Inv { s with pending := q } :=
  ⟨h.regs, h.stack, h.far, h.dsm⟩

/-- Settles O6: a sound state is sound with its own queue, and every command keeps that. -/
theorem execKeepsQueue : Obligations.ExecKeepsQueue := by
  intro c s t hs he
  obtain ⟨-, -, -, -, hq⟩ := exec_sound hs.sound c t he
  exact hq

/-- Settles O5: an empty queue idles, and otherwise the front command runs from a state that is sound as well. -/
theorem stepKeepsSound : Obligations.StepKeepsSound := by
  intro s t hs he
  unfold step at he
  split at he
  · cases he; exact hs
  · next c cs _ => exact (exec_sound (hs.withPending cs).sound c t he).inv

end Sys2Proof.Machine
end

section
/-!
PROOFS. What a command can answer: a next state, or the stop for a unit that the module does not have, and that only for a
command that is not well-formed.
-/
namespace Sys2Proof.Machine

theorem onUnit_pos {b : Bool} (h : b = true) (s : State) : onUnit b s = .next s := if_pos h

theorem onUnit_neg {b : Bool} (h : b = false) (s : State) : onUnit b s = .fault .noUnit := by rw [onUnit, h]; rfl

theorem onUnit_ne_refused (b : Bool) (s : State) (r : Refusal) : onUnit b s ≠ .refused r := by
  cases b <;> exact nofun

theorem onUnit_fault {b : Bool} {s : State} {f : Fault} (h : onUnit b s = .fault f) : f = .noUnit := by
  cases b with
  | false => cases h; rfl
  | true => cases h

/-- A domain as a command names it is a domain of the module in one reading when it is in the other. -/
theorem domainOk_ofRef (d : DomainRef) : domainOk (ofRef d) = okDomain d := by cases d <;> rfl

/-- Every command checks the units it names and then runs; a well-formed one passes the check. -/
theorem exec_eq_onUnit (i : Instr) (s : State) : ∃ b t, exec i s = onUnit b t ∧ (i.wf = true → b = true) := by
  cases i
  case
    regRead | regWrite | planData | routeImageApply | plnLoadBegin | plnLoadCommit | plnLoadDiscard | swapReq |
    swapCancel | swapTimeout | restore | loadInit | restorePlacementDone | segmentRetryResend | vc3GapTimeout |
    checked | uncheck | replay | reopen | deferReq | defer | inventory | restorePick | genesis |
    genesisHallmarksDone | sealTreeTimeout | endJob | replayJob | ldgDeferWrite | ledgerHandover | dmaReadData |
    ctlPullFix | fixSExpiry | dmaWriteAck | dmaTmoExpiry | eventAck | eventResendTimer | keyExchange |
    keyExchangeTimeout | frameCounterLimit | attestReq | certReq | fwData | fwBegin | fwStage | fwActivate |
    fwCommit | fwAbort | revoke | install | apply | debugLock | scrubDone | sleep | sleepEntry | wake |
    pmbusClockLowTimeout | porNRelease | porNAssert | railsOkDeassert | stuLoopStart | loopbackEnd |
    handlingWindowExpiry | fltClaim | fltDone | fltCtlRelease | fltAryRel | moduleDetectorTick | heartbeatTimeout |
    moduleReset | modLimitReached | mgmtHandover | i3cTransactionTimeout =>
    exact ⟨true, _, rfl, fun _ => rfl⟩
  case
    stepOpen | binChange | product | kFold | accWrite | chunk | assay | secondAssay | touchstoneRun | contextSave |
    contextRestore | idleTaper | grantWindow | map | rowMax | rowMin | kFoldVector | tileRowComplete | add | sub |
    mul | fma | div | sqrt | rsqrt | neg | abs | max | min | cmplt | cmple | cmpeq | select | exp | expm1 | log |
    log1p | tanh | sigmoid | erf | gelu | rand | mov | sum | sumsq | dot | meanvar | mvCombine | smaxBwd | normFwd |
    normBwd | maxIdx | minIdx | copy | zero | gather | scatter | scatterAdd | swage | transpose | shake | crc |
    verify | sort | merge | reduce | broadcast | nodeAdd | put | get | reslice | farRead | farWrite | sync |
    waitDeclared | pull | push | stepEndAudit | opComplete | budgetOverrun | engineItemComplete | engSvcWrite |
    hallmarkReread | verifyRead | pageCopyDone | burnishRead | guardCopy | selfRefreshEntry | selfRefreshWake |
    cxlRequestTimeout | cxlLinkDown | cxlRetrain | tier0CopyDone | migrationDone | spareSubstitution | write | fetch
    | fetchData | complete | arrive | release | routeWaitTimeout | downList | resendHoldTimeout |
    undeclaredWaitLimit | dieRtDataWrite | elasticWaitExpiry | replayMaxExceeded | dataFlit | ack | nak |
    ackIntervalTimer | flitTransmit | retryLimReached | brzEnableSet | brzEnableClear | lightReady | trainDone |
    alignDone | ident | echo | echoTimeout | brzStateTimeout | laneHealthChange | laserInput | widthChangeDone |
    codewordLockLost | retrainDone | lossOfSignal | brzPortRestart | pullBackoffExpiry | shadowLoad | arm | disarm |
    thermalSample | railTelemetryPoll | alertN | refclkLoss | powerGoodTimeout | tapInstruction | faultRecord |
    releaseRunLapse | faultWindowExpiry | waitMsExpiry | dieDetectorTick | arrayReset | coreReset | stackPhyReset |
    dieReset | brazePortReset | linkDieReset | hubReset | fabricEdgeDown | stackScrubTimeout =>
    refine ⟨_, _, rfl, fun h => ?_⟩
    simp_all [Instr.wf, okSlot, okCore, okDie, okLinkDie, okStack, okPort, okReg, portOk, strandOk, domainOk, stackBytes]
  case resetWatchdog d | rstLimitReached d | resetComplete d => exact ⟨_, _, rfl, fun h => (domainOk_ofRef d).trans h⟩
  case avsAckTimeout die =>
    refine ⟨_, _, rfl, fun h => ?_⟩
    have hdie : die < 48 := of_decide_eq_true h
    exact decide_eq_true (by omega)
  -- SEAL stays, whose name cannot tag a case: Lean reads it as a word of its own.
  · exact ⟨true, _, rfl, fun _ => rfl⟩

/-- Settles O7: a well-formed command passes its check, so it runs. -/
theorem wellFormedRuns : Obligations.WellFormedRuns := by
  intro c s hwf
  obtain ⟨b, t, he, hb⟩ := exec_eq_onUnit c s
  exact ⟨t, he.trans (onUnit_pos (hb hwf) t)⟩

/-- Settles O8: a check of units refuses nothing and stops with the one fault, and a number beyond each kind of unit fails it. -/
theorem nothingRefused : Obligations.NothingRefused := by
  refine ⟨fun c s => ?_, fun s n op => ?_⟩
  · obtain ⟨b, t, he, -⟩ := exec_eq_onUnit c s
    rw [he]
    exact ⟨onUnit_ne_refused b t, fun f => onUnit_fault⟩
  · have beyond {k : Nat} (h : k ≤ n) : decide (n < k) = false := decide_eq_false (Nat.not_lt.mpr h)
    have noStrand (h : 192 ≤ n) : strandOk n 0 [0, 0] = false := by rw [strandOk, beyond h]; rfl
    exact ⟨fun h => ⟨onUnit_neg (beyond h) _, onUnit_neg (beyond h) _, onUnit_neg (beyond h) _, onUnit_neg (beyond h) _⟩,
      fun h => ⟨onUnit_neg (beyond h) _, onUnit_neg (noStrand h) _⟩, fun h => ⟨onUnit_neg (beyond h) _, onUnit_neg (beyond h) _⟩,
      fun h => ⟨onUnit_neg (beyond h) _, onUnit_neg (beyond h) _⟩, fun h => ⟨onUnit_neg (beyond h) _, onUnit_neg (beyond h) _⟩⟩

end Sys2Proof.Machine
end

section
/-!
PROOFS. The residue check (R298 to R300): what the checker predicts for a chunk is its sum modulo 31, so that only an upset
sets the two apart.
-/
namespace Sys2Proof.Machine

theorem cast_res31 (x : Int) : (res31 x : Int) = x % 31 := Int.toNat_of_nonneg (Int.emod_nonneg x (by decide))

theorem res31_modEq (x : Int) : (res31 x : Int) ≡ x [ZMOD 31] := by rw [cast_res31]; exact Int.mod_modEq x 31

theorem res31_lt (x : Int) : res31 x < 31 := by
  have := Int.emod_lt_of_pos x (show (0 : Int) < 31 by decide)
  have := cast_res31 x
  omega

/-- The product of two significands is the signed product of their magnitudes. -/
theorem significand_mul (n1 n2 : Bool) (m1 m2 : Nat) (e1 e2 : Int) :
    significand (.fin n1 m1 e1) * significand (.fin n2 m2 e2) = signed (n1 != n2) (m1 * m2) := by
  cases n1 <;> cases n2 <;> simp [significand, signed]

/-- A signed magnitude, multiplied by a natural number. -/
theorem signed_mul_natCast (n : Bool) (m k : Nat) : signed n (m * k) = signed n m * k := by
  cases n <;> simp [signed]

/-- A power of two modulo 31 depends on its exponent modulo 5 alone. -/
theorem two_pow_modEq_31 {a b : Nat} (h : a % 5 = b % 5) : (2 : Int) ^ a ≡ 2 ^ b [ZMOD 31] := by
  have key (k : Nat) : (2 : Int) ^ k ≡ 2 ^ (k % 5) [ZMOD 31] := by
    conv_lhs => rw [← Nat.div_add_mod k 5, pow_add, pow_mul]
    simpa using Int.ModEq.mul_right (2 ^ (k % 5)) (Int.ModEq.pow (k / 5) (show (2 : Int) ^ 5 ≡ 1 [ZMOD 31] by decide))
  exact (key a).trans (h ▸ (key b).symm)

/-- The product of the operand residues stands for the product of the significands (R298). -/
theorem res31_mul_modEq (x y : Int) : ((res31 x * res31 y : Nat) : Int) ≡ x * y [ZMOD 31] := by
  push_cast
  exact (res31_modEq x).mul (res31_modEq y)

section
variable {n1 n2 : Bool} {m1 m2 : Nat} {e1 e2 top : Int}

/-- A product that is shifted to the left loses no bits. -/
theorem alignProduct_left (h : top - 21 - (e1 + e2) ≤ 0) :
    alignProduct (.fin n1 m1 e1) (.fin n2 m2 e2) top =
      significand (.fin n1 m1 e1) * significand (.fin n2 m2 e2) * 2 ^ (e1 + e2 + 21 - top).toNat := by
  rw [significand_mul, alignProduct, if_pos (show 0 ≤ e1 + e2 + 21 - top by omega), signed_mul_natCast]
  norm_cast

theorem predictRes_left (h : top - 21 - (e1 + e2) ≤ 0) :
    (predictRes (.fin n1 m1 e1) (.fin n2 m2 e2) top : Int) ≡ alignProduct (.fin n1 m1 e1) (.fin n2 m2 e2) top [ZMOD 31] := by
  rw [alignProduct_left h]
  simp only [predictRes, if_pos h]
  push_cast
  exact (Int.mod_modEq _ 31).trans ((res31_mul_modEq _ _).mul (two_pow_modEq_31 (by omega)))

/-- To the right, the checker takes out the residue of the dropped bits and undoes the shift by its inverse (R299). -/
theorem predictRes_right (h : ¬ top - 21 - (e1 + e2) ≤ 0) :
    (predictRes (.fin n1 m1 e1) (.fin n2 m2 e2) top : Int) ≡ alignProduct (.fin n1 m1 e1) (.fin n2 m2 e2) top [ZMOD 31] := by
  simp only [predictRes, if_neg h]
  generalize alignProduct (.fin n1 m1 e1) (.fin n2 m2 e2) top = q
  generalize hsh : (top - 21 - (e1 + e2)).toNat = sh
  have hinv : (top - 21 - (e1 + e2)) % 5 = ((sh % 5 : Nat) : Int) := by omega
  rw [hinv]
  generalize hx : significand (.fin n1 m1 e1) = x
  generalize hy : significand (.fin n2 m2 e2) = y
  have hlt := res31_lt (x * y - q * 2 ^ sh)
  have hkept : ((res31 x * res31 y + 31 - res31 (x * y - q * 2 ^ sh) : Nat) : Int) ≡ q * 2 ^ sh [ZMOD 31] := by
    have hxy := (res31_mul_modEq x y).sub (res31_modEq (x * y - q * 2 ^ sh))
    rw [sub_sub_cancel] at hxy
    have h31 : (31 : Int) ≡ 0 [ZMOD 31] := by decide
    have := hxy.add h31
    rw [add_zero] at this
    rw [Nat.cast_sub (by omega)]
    push_cast at this ⊢
    rwa [show (res31 x : Int) * res31 y + 31 - res31 (x * y - q * 2 ^ sh)
      = res31 x * res31 y - res31 (x * y - q * 2 ^ sh) + 31 by ring]
  have hone : (2 : Int) ^ sh * 2 ^ ((5 - ((sh % 5 : Nat) : Int)) % 5).toNat ≡ 1 [ZMOD 31] := by
    rw [← pow_add]
    exact two_pow_modEq_31 (b := 0) (by omega)
  push_cast at hkept ⊢
  calc _ ≡ q * 2 ^ sh * 2 ^ ((5 - ((sh % 5 : Nat) : Int)) % 5).toNat [ZMOD 31] :=
        (Int.mod_modEq _ 31).trans (((Int.mod_modEq _ 31).trans hkept).mul_right _)
    _ ≡ q [ZMOD 31] := by rw [mul_assoc]; simpa using hone.mul_left q

end

/-- The predicted residue of a position is that of its product as aligned. -/
theorem predictRes_modEq (a b : FV) (top : Int) : (predictRes a b top : Int) ≡ alignProduct a b top [ZMOD 31] := by
  match a, b with
  | .fin _ _ e1, .fin _ _ e2 => exact (Decidable.em (top - 21 - (e1 + e2) ≤ 0)).elim predictRes_left predictRes_right
  | .nan, _ | .inf _, _ | .fin _ _ _, .nan | .fin _ _ _, .inf _ => rfl

/-- The predicted residue of a chunk is that of its sum, position by position. -/
theorem predictSum_modEq (ps : List (FV × FV)) (top : Int) : (predictSum ps top : Int) ≡ chunkSum ps top [ZMOD 31] := by
  unfold predictSum chunkSum
  suffices ∀ (r : Nat) (q : Int), (r : Int) ≡ q [ZMOD 31] →
      ((ps.foldl (fun r p => (r + predictRes p.1 p.2 top) % 31) r : Nat) : Int) ≡
        ps.foldl (fun s p => s + alignProduct p.1 p.2 top) q [ZMOD 31] from this 0 0 rfl
  induction ps with
  | nil => exact fun _ _ h => h
  | cons p ps ih =>
    intro r q h
    refine ih _ _ ?_
    push_cast
    exact (Int.mod_modEq _ 31).trans (h.add (predictRes_modEq p.1 p.2 top))

/-- Sum and prediction of a lane, upset by different amounts, differ modulo 31 as the amounts do. -/
theorem res31_ne_iff (ps : List (FV × FV)) (top a b : Int) :
    res31 (chunkSum ps top + a) ≠ res31 ((predictSum ps top : Int) + b) ↔ (a - b) % 31 ≠ 0 := by
  have hp : (predictSum ps top : Int) % 31 = chunkSum ps top % 31 := predictSum_modEq ps top
  have ha := cast_res31 (chunkSum ps top + a)
  have hb := cast_res31 ((predictSum ps top : Int) + b)
  omega

/-- Settles O18: without an upset the checker is not consulted; with one, its three tests are the upset's three effects, the
last of them by `res31_ne_iff`. -/
theorem residueCheckFindsUpsets : Obligations.ResidueCheckFindsUpsets := by
  intro f ps
  refine ⟨rfl, fun u hfin => ?_⟩
  simp [laneRun, hfin, res31_ne_iff, or_assoc]

end Sys2Proof.Machine
end

section
/-!
PROOFS. Byte strings and memory: what a little-endian field of a byte string spells, the round trip of a message header
(R244), and what the near tier holds after stores (R186, R208).
-/
namespace Sys2Proof.Machine

/-! ## Byte strings -/

@[simp] theorem length_leBytes (n v : Nat) : (leBytes n v).length = n := by
  induction n generalizing v with
  | zero => rfl
  | succ n ih => simp [leBytes, ih]

theorem leNat_leBytes (n v : Nat) : leNat (leBytes n v) = v % 256 ^ n := by
  induction n generalizing v with
  | zero => simp [leBytes, leNat, Nat.mod_one]
  | succ n ih =>
    have hdigit : v % 256 ^ (n + 1) = v % 256 + 256 * (v / 256 % 256 ^ n) := by rw [pow_succ', Nat.mod_mul]
    simp [leBytes, leNat, ih, hdigit]

/-- A field at the front of a byte string. -/
theorem natAt_leBytes_append (n v : Nat) (bs : List Byte) : natAt (leBytes n v ++ bs) 0 n = v % 256 ^ n := by
  simp [natAt, bytesAt, zeros, leNat_leBytes]

/-- A field behind another one. -/
theorem natAt_leBytes_append_of_le {k off : Nat} (h : k ≤ off) (v n : Nat) (bs : List Byte) :
    natAt (leBytes k v ++ bs) off n = natAt bs (off - k) n := by
  have hdrop : (leBytes k v ++ bs).drop off = bs.drop (off - k) := by
    rw [List.drop_append, List.drop_eq_nil_of_le (by simpa using h), length_leBytes, List.nil_append]
  rw [natAt, natAt, bytesAt, bytesAt, hdrop]

/-! ## Message headers -/

@[simp] theorem length_msgHeader (m : Msg) : (msgHeader m).length = 48 := by simp [msgHeader]

/-- Settles O9: every field stands behind the ones before it and spells its value modulo its width, which `okMsg` bounds. -/
theorem messageRoundTrip : Obligations.MessageRoundTrip := by
  intro m hm
  simp only [okMsg, Bool.and_eq_true, decide_eq_true_eq] at hm
  obtain ⟨⟨⟨⟨⟨⟨⟨⟨⟨⟨⟨⟨⟨⟨hdst, hsrc⟩, hkind⟩, hhops⟩, hgen⟩, hflags⟩, hlo⟩, hhi⟩, hxfer⟩, hseg⟩, hlen⟩, haddr⟩, hsync⟩, haux⟩, -⟩ := hm
  have hdata : (msgBytes m).drop 48 = m.data := List.drop_left' (length_msgHeader m)
  have hstep : wordStep (BitVec.ofNat 64 ((stepWord m.step).toNat % 256 ^ 8)) = m.step := by
    rw [show 256 ^ 8 = 2 ^ 64 by decide, Nat.mod_eq_of_lt (stepWord m.step).isLt, BitVec.ofNat_toNat, BitVec.setWidth_eq]
    exact wordStep_stepWord hlo hhi
  have hval {w n : Nat} (h : w < 2 ^ (8 * n)) : w % 256 ^ n = w := by
    rw [show 256 = 2 ^ 8 by decide, ← pow_mul]; exact Nat.mod_eq_of_lt h
  rw [msgOf, hdata]
  simp only [msgBytes, msgHeader, List.append_assoc, natAt_leBytes_append_of_le, natAt_leBytes_append, hstep,
    Nat.reduceLeDiff, Nat.reduceSub, hval (n := 1) hkind, hval (n := 1) hhops, hval (n := 1) hgen, hval (n := 1) hflags,
    hval (n := 2) hdst, hval (n := 2) hsrc, hval (n := 4) hseg, hval (n := 4) hlen, hval (n := 4) hsync, hval (n := 4) haux,
    hval (n := 8) hxfer, hval (n := 8) haddr]

/-! ## Register fields -/

/-- Settles O11, by the bits of a written word from the field on, above it and below it. -/
theorem fieldWrites : Obligations.FieldWrites := by
  intro w hi lo v hi' lo' hlo hhi hlo' _
  refine ⟨fld_setFld_self w v hlo hhi, ?_⟩
  rintro (habove | hbelow)
  · exact fld_setFld_of_above w v hlo hhi habove
  · exact fld_setFld_of_below w v hlo hhi hlo' hbelow

/-! ## The near tier -/

/-- Without retired pages every address is served from itself. -/
theorem State.served_of_subst_nil {s : State} (h : s.mem.subst = []) (a : Nat) : s.served a = a := by
  rw [State.served, h]; rfl

/-- A stored byte reads as it was stored. -/
theorem State.ld_st_self {s : State} (h : Memory.wf s.mem.stack = true) (pa : Nat) (b : Byte) : (s.st pa b).ld pa = b :=
  SMap.get_set_self _ b h

theorem State.st_subst (s : State) (pa : Nat) (b : Byte) : (s.st pa b).mem.subst = s.mem.subst := rfl

theorem State.ld_st_ne_of_subst_nil {s : State} (h : s.mem.subst = []) {pa a : Nat} (b : Byte) (hne : a ≠ pa) :
    (s.st pa b).ld a = s.ld a :=
  s.ld_st_ne b (by rwa [State.served_of_subst_nil h, State.served_of_subst_nil h])

/-- A stored run leaves every byte outside it alone. -/
theorem State.ld_stRun_outside {s : State} (h : s.mem.subst = []) {pa a : Nat} (bs : List Byte)
    (ha : a < pa ∨ pa + bs.length ≤ a) : (s.stRun pa bs).ld a = s.ld a := by
  induction bs generalizing s pa with
  | nil => rfl
  | cons b bs ih =>
    rw [List.length_cons] at ha
    rw [State.stRun, ih (s.st_subst pa b ▸ h) (by omega), State.ld_st_ne_of_subst_nil h b (by omega)]

/-- A stored run reads back: its first byte lies outside the rest of it. -/
theorem State.ldN_stRun {s : State} (hs : s.mem.subst = []) (hwf : Memory.wf s.mem.stack = true) (pa : Nat) (bs : List Byte) :
    (s.stRun pa bs).ldN pa bs.length = bs := by
  induction bs generalizing s pa with
  | nil => rfl
  | cons b bs ih =>
    have hs' : (s.st pa b).mem.subst = [] := s.st_subst pa b ▸ hs
    have hrest := ih hs' (SMap.wf_set _ _ hwf) (pa + 1)
    have hfirst : ((s.st pa b).stRun (pa + 1) bs).ld pa = b := by
      rw [State.ld_stRun_outside hs' bs (by omega), State.ld_st_self hwf]
    rw [State.ldN] at hrest
    rw [State.ldN, List.length_cons, List.range_succ_eq_map, List.map_cons, List.map_map, State.stRun]
    exact congrArg₂ List.cons hfirst (by simpa [Function.comp_def, Nat.add_assoc, Nat.add_comm 1] using hrest)

theorem State.ld_stN (s : State) (pa a : Nat) (bs : List Byte) : (s.stN pa bs).ld a = (s.stRun pa bs).ld a := rfl

/-- A key that a canonical map lists first reads as listed, and that is not its default. -/
theorem SMap.get_first_ne {β : Type} [DecidableEq β] {d : Nat → β} {lo : Option Nat} {j : Nat} {v : β} {m : SMap β}
    (h : SMap.wfFrom d lo ((j, v) :: m) = true) : SMap.get d ((j, v) :: m) j ≠ d j := by
  rw [SMap.get, if_pos rfl]
  exact (SMap.wfFrom_cons.1 h).2.1

/-- A key before the first listed one reads as its default. -/
theorem SMap.get_before_first {β : Type} [DecidableEq β] {d : Nat → β} {lo : Option Nat} {i j : Nat} {v : β} {m : SMap β}
    (h : SMap.wfFrom d lo ((j, v) :: m) = true) (hij : i < j) : SMap.get d ((j, v) :: m) i = d i := by
  obtain ⟨-, hv, hm⟩ := SMap.wfFrom_cons.1 h
  exact SMap.get_below (SMap.wfFrom_cons.2 ⟨hij, hv, hm⟩)

/-- Two maps in canonical form that read alike are the same: below the first key of one, the other lists nothing either. -/
theorem SMap.ext_of_wfFrom {β : Type} [DecidableEq β] {d : Nat → β} {lo : Option Nat} {m k : SMap β}
    (hm : SMap.wfFrom d lo m = true) (hk : SMap.wfFrom d lo k = true) (h : ∀ a, SMap.get d m a = SMap.get d k a) : m = k := by
  induction m generalizing lo k with
  | nil =>
    cases k with
    | nil => rfl
    | cons e k => exact absurd (h e.1).symm (SMap.get_first_ne hk)
  | cons e m ih =>
    obtain ⟨i, v⟩ := e
    cases k with
    | nil => exact absurd (h i) (SMap.get_first_ne hm)
    | cons f k =>
      obtain ⟨j, w⟩ := f
      obtain rfl : i = j := by
        rcases Nat.lt_trichotomy i j with hlt | heq | hlt
        · exact absurd ((h i).trans (SMap.get_before_first hk hlt)) (SMap.get_first_ne hm)
        · exact heq
        · exact absurd ((h j).symm.trans (SMap.get_before_first hm hlt)) (SMap.get_first_ne hk)
      obtain ⟨-, -, hm'⟩ := SMap.wfFrom_cons.1 hm
      obtain ⟨-, -, hk'⟩ := SMap.wfFrom_cons.1 hk
      obtain rfl : v = w := by simpa [SMap.get] using h i
      have hrest : ∀ a, SMap.get d m a = SMap.get d k a := by
        intro a
        by_cases ha : i = a
        · rw [← ha, SMap.get_below hm', SMap.get_below hk']
        · simpa [SMap.get, ha] using h a
      rw [ih hm' hk' hrest]

/-- Settles O12, by the laws of sparse maps: a store is a write at the serving address, and a run is its bytes in turn. -/
theorem memoryReadsBack : Obligations.MemoryReadsBack := by
  refine ⟨fun s pa a b hs => ⟨State.ld_st_self hs.stack pa b, s.ld_st_ne b, fun h => State.ld_st_ne_of_subst_nil h b⟩,
    fun s pa bs hs h => ⟨?_, fun a ha => ?_⟩, fun m k hm hk => SMap.ext_of_wfFrom hm hk⟩
  · exact State.ldN_stRun h hs.stack pa bs
  · rw [State.ld_stN, State.ld_stRun_outside h bs ha]

end Sys2Proof.Machine
end

section
/-!
PROOFS. Row reduction ops (R134 to R147): a ready op of class 0x02 starts and is finished within its command.
-/
namespace Sys2Proof.Machine

/-- A ready op is the op of its command, so the command runs on it. -/
theorem State.Ready.rowOp_eq {s : State} {sid op code : Nat} {o : Op} (h : s.Ready sid op 2 code o)
    (f : State → Op → List RowOut) :
    rowOp sid op code f s = (s.started sid o).rowsOut sid o (f (s.started sid o) o) := by
  simp [rowOp, h.here, h.begin_eq]

theorem State.Ready.exec_rowOp {s : State} {sid op code : Nat} {o : Op} (h : s.Ready sid op 2 code o) (hsid : sid < 60)
    (f : State → Op → List RowOut) : onUnit (decide (sid < 60)) (rowOp sid op code f s) =
      .next ((s.started sid o).rowsOut sid o (f (s.started sid o) o)) := by
  rw [onUnit_pos (decide_eq_true hsid), h.rowOp_eq]

theorem meanvarOuts_of_partial {o : Op} (h : o.partialOut = true) (sid : Nat) (t : State) : meanvarOuts sid t o =
    [⟨1, true, (t.rowsOf sid o 0).map (fun xs => let m := meanvarPartial (o.positions xs); [m.n, m.mean, m.m2])⟩] := by
  rw [meanvarOuts, if_pos h, List.map_map]; rfl

theorem meanvarOuts_of_final {o : Op} (h : o.partialOut = false) (sid : Nat) (t : State) : meanvarOuts sid t o =
    [⟨1, false, (t.rowsOf sid o 0).map (fun xs => let m := meanvarPartial (o.positions xs)
      [m.mean, tDiv m.m2 (if o.varDiv then tSub m.n (one64, false) else m.n)])⟩] := by
  rw [meanvarOuts, if_neg (by simp [h]), List.map_map]; rfl

/-- Settles O13: each opcode's command is `rowOp` with the outputs of its own. -/
theorem rowOpsComplete : Obligations.RowOpsComplete := by
  intro s sid op o hsid
  refine ⟨fun h => h.exec_rowOp hsid (sumOuts false sid), fun h => h.exec_rowOp hsid (sumOuts true sid),
    fun h => h.exec_rowOp hsid (dotOuts sid), fun h hp => ?_, fun h hp => ?_, fun h => h.exec_rowOp hsid (mvCombineOuts sid),
    fun h => h.exec_rowOp hsid (smaxOuts sid), fun h => h.exec_rowOp hsid (normFwdOuts sid),
    fun h => h.exec_rowOp hsid (normBwdOuts sid), fun h => h.exec_rowOp hsid (idxOuts false sid),
    fun h => h.exec_rowOp hsid (idxOuts true sid)⟩
  · rw [← meanvarOuts_of_partial hp]; exact h.exec_rowOp hsid (meanvarOuts sid)
  · rw [← meanvarOuts_of_final hp]; exact h.exec_rowOp hsid (meanvarOuts sid)

end Sys2Proof.Machine
end

section
/-!
PROOFS. What the traffic of an op leaves alone: its reads and writes, its tracker entries, the strands and lanes it fills and
the counters it moves change no plan, slot, sync object, fault or sent frame.
-/
namespace Sys2Proof.Machine

/-! ## Loops -/

/-- What every round of a loop keeps, the loop keeps. -/
theorem forEach_keeps {α β : Type} {φ : State → β} {f : α → State → State} (h : ∀ a t, φ (f a t) = φ t) (l : List α) (s : State) :
    φ (forEach l f s) = φ s := by
  unfold forEach
  induction l generalizing s with
  | nil => rfl
  | cons a l ih => rw [List.foldl_cons, ih, h]

theorem forN_keeps {β : Type} {φ : State → β} {f : Nat → State → State} (h : ∀ a t, φ (f a t) = φ t) (n : Nat) (s : State) :
    φ (forN n f s) = φ s :=
  forEach_keeps h _ s

/-! ## The part that stands still -/

/-- A state without the fields that the traffic of an op touches: registers, messages, units, memory, links, power and the
counter of free values. -/
def State.still (s : State) : State :=
  { s with regs := [], net := {}, units := {}, mem := {}, link := {}, pwr := {}, free := 0 }

section
variable {s t : State} (h : t.still = s.still)
include h
theorem State.slots_of_still : t.slots = s.slots := by have e := congrArg State.slots h; exact e
theorem State.syn_of_still : t.syn = s.syn := by have e := congrArg State.syn h; exact e
theorem State.ldg_of_still : t.ldg = s.ldg := by have e := congrArg State.ldg h; exact e
theorem State.sent_of_still : t.sent = s.sent := by have e := congrArg State.sent h; exact e
theorem State.opRun_of_still (sid op : Nat) : t.opRun sid op = s.opRun sid op := State.opRun_congr (State.slots_of_still h) sid op
end

/-! The laws of updates stand in parentheses, so that `simp` rewrites with them and the kernel never unfolds a register write. -/

@[simp] theorem State.wr_still (s : State) (die blk off : Nat) (v : Word) : (s.wr die blk off v).still = s.still := (rfl)
@[simp] theorem State.setField_still (s : State) (die blk off hi lo v : Nat) : (s.setField die blk off hi lo v).still = s.still := (rfl)
@[simp] theorem State.bump_still (s : State) (die blk off n : Nat) : (s.bump die blk off n).still = s.still := (rfl)
@[simp] theorem State.setCore_still (s : State) (c : Nat) (x : CoreState) : (s.setCore c x).still = s.still := (rfl)
@[simp] theorem State.setStrand_still (s : State) (k : Nat) (x : Strand) : (s.setStrand k x).still = s.still := (rfl)
@[simp] theorem State.setPort_still (s : State) (p : Nat) (x : PortState) : (s.setPort p x).still = s.still := (rfl)
@[simp] theorem State.track_still (s : State) (l : List Track) : (s.track l).still = s.still := (rfl)
@[simp] theorem State.setStack_still (s : State) (m : SMap Byte) : (s.setStack m).still = s.still := (rfl)
@[simp] theorem State.relend_still (s : State) (q : Nat) : (s.relend q).still = s.still := (rfl)
@[simp] theorem State.showStrands_still (s : State) (sid u : Nat) : (s.showStrands sid u).still = s.still := by
  simp only [State.showStrands, State.setField_still]

theorem State.still_withMem (s : State) (m : MemState) : ({ s with mem := m } : State).still = s.still := (rfl)
theorem State.still_withUnits (s : State) (u : UnitState) : ({ s with units := u } : State).still = s.still := (rfl)
theorem State.still_withNet (s : State) (n : NetState) : ({ s with net := n } : State).still = s.still := (rfl)
theorem State.still_withLdg (s : State) (l : LedgerState) : ({ s with ldg := l } : State).still = { s.still with ldg := l } := (rfl)
theorem State.still_withPwr (s : State) (p : PowerState) : ({ s with pwr := p } : State).still = s.still := (rfl)
theorem State.still_withFree (s : State) (n : Nat) : ({ s with free := n } : State).still = s.still := (rfl)

/-- Writes of ops go by the part that stands still alone. -/
theorem State.still_setOp (s : State) (sid op : Nat) (r : OpRun) : (s.setOp sid op r).still = s.still.setOp sid op r := (rfl)
theorem State.still_opRun (s : State) (sid op : Nat) : s.still.opRun sid op = s.opRun sid op := (rfl)

@[simp] theorem forEach_still {α : Type} {f : α → State → State} (l : List α) (s : State) (h : ∀ a t, (f a t).still = t.still) :
    (forEach l f s).still = s.still := forEach_keeps h l s
@[simp] theorem forN_still {f : Nat → State → State} (n : Nat) (s : State) (h : ∀ a t, (f a t).still = t.still) :
    (forN n f s).still = s.still := forN_keeps h n s

/-! ## Cores -/

@[simp] theorem State.fillRows_still (s : State) (core : Nat) : (s.fillRows core).still = s.still := by
  unfold State.fillRows
  rw [State.still_withFree, State.bump_still]
  exact forN_keeps (fun a t => by rw [State.bump_still, State.still_withUnits]) 6 s

@[simp] theorem State.stopFill_still (s : State) (core : Nat) : (s.stopFill core).still = s.still := by
  simp only [State.stopFill]
  split_ifs <;> simp only [State.fillRows_still, State.setCore_still]

@[simp] theorem State.setDeclared_still (s : State) (core : Nat) (on : Bool) : (s.setDeclared core on).still = s.still := by
  unfold State.setDeclared
  cases on with
  | false => rw [State.relend_still, State.still_withPwr, State.setCore_still]; rfl
  | true => rw [State.relend_still, State.still_withPwr, State.setCore_still]; exact s.stopFill_still core

/-! ## Memory -/

@[simp] theorem State.wakeStack_still (s : State) (st : Nat) : (s.wakeStack st).still = s.still := by
  simp only [State.wakeStack]
  split_ifs <;> simp only [State.setField_still, State.still_withMem]

/-- A hop of a packet moves counters alone. -/
theorem hop_still (t : State) (c d : Prop) [Decidable c] [Decidable d] (x off y off' n m : Nat) :
    (let u := if c then t else t.bump x 0x10 off n
     if d then u.bump y 0x10 off' m else u).still = t.still := by
  dsimp only
  split_ifs <;> simp only [State.bump_still]

@[simp] theorem State.countFabric_still (s : State) (src dst n : Nat) : (s.countFabric src dst n).still = s.still := by
  unfold State.countFabric
  split
  · rfl
  · split
    · rfl
    · dsimp only
      have hloop {l : List (Nat × Nat)} {lane : Nat} := forEach_keeps (φ := State.still) (l := l) (s := s)
        (f := fun e t =>
          let u := if stepPort e.1 e.2 = 0 then t else t.bump e.1 0x10 (0xC00 + 8 * (stepPort e.1 e.2 - 1)) n
          if lane = 1 then u.bump e.1 0x10 0xC20 (cdiv n 256) else u) (fun _ t => hop_still t _ _ _ _ _ _ _ _)
      split
      · exact hloop
      · exact (hop_still _ _ _ _ _ _ _ _ _).trans hloop

@[simp] theorem State.access_still (s : State) (die a : Nat) (l : Loc) (n : Nat) (w : Bool) : (s.access die a l n w).still = s.still := by
  cases l with
  | near pa =>
    unfold State.access
    cases w <;>
      simp only [if_true, if_false, Bool.false_eq_true, State.countFabric_still, State.still_withFree, State.bump_still, State.wakeStack_still]
  | far p off => exact State.bump_still _ _ _ _ _
  | dsm | none => rfl

@[simp] theorem State.stRun_still (s : State) (pa : Nat) (bs : List Byte) : (s.stRun pa bs).still = s.still := by
  induction bs generalizing s pa with
  | nil => rfl
  | cons b bs ih => exact (ih _ _).trans (s.setStack_still _)

@[simp] theorem State.stN_still (s : State) (pa : Nat) (bs : List Byte) : (s.stN pa bs).still = s.still :=
  (State.still_withMem _ _).trans (s.stRun_still pa bs)

@[simp] theorem State.writeLoc_still (s : State) (l : Loc) (bs : List Byte) : (s.writeLoc l bs).still = s.still := by
  cases l with
  | near pa => exact s.stN_still pa bs
  | dsm d off => exact s.still_withUnits _
  | far p off => exact s.still_withMem _
  | none => rfl

@[simp] theorem State.markLines_still (s : State) (l : Loc) (n : Nat) (d : Bool) : (s.markLines l n d).still = s.still := by
  cases l with
  | dsm d off => exact s.still_withUnits _
  | near | far | none => rfl

@[simp] theorem State.tileSeal_still (s : State) (die : Nat) (st : Step) (t : Tensor) (pp i : Nat) (tag : Step) :
    (s.tileSeal die st t pp i tag).still = s.still := s.writeLoc_still _ _

@[simp] theorem State.sealRange_still (s : State) (die : Nat) (st : Step) (ts : List Tensor) (a n : Nat) :
    (s.sealRange die st ts a n).still = s.still := by
  unfold State.sealRange
  split
  · rfl
  · split <;> simp

@[simp] theorem State.landPut_still (s : State) (sid : Nat) (o : Op) (i off : Nat) (bs : List Byte) :
    (s.landPut sid o i off bs).still = s.still := by
  unfold State.landPut; split <;> simp

@[simp] theorem State.putAt_still (s : State) (sid : Nat) (o : Op) (i off : Nat) (bs : List Byte) :
    (s.putAt sid o i off bs).still = s.still := by
  simp only [State.putAt, State.declareHeld]
  split_ifs
  · exact (State.setDeclared_still _ _ _).trans (s.still_withMem _)
  · exact s.still_withMem _
  · exact s.landPut_still sid o i off bs

/-- A retained input is noted in the ledger. -/
theorem State.retain_still (s : State) (sid : Nat) (n : Step) (op seg kind : Nat) (bs : List Byte) (m : Option Msg)
    (marks : List Nat) : ∃ l, (s.retain sid n op seg kind bs m marks).still = { s.still with ldg := l } := by
  simp only [State.retain, State.still_withLdg, State.stN_still]
  exact ⟨_, rfl⟩

/-! ## Messages -/

@[simp] theorem State.segmentLeaves_still (s : State) (m : Msg) (p : Nat) : (s.segmentLeaves m p).still = s.still := by
  unfold State.segmentLeaves
  split
  · rfl
  · exact s.still_withNet _

@[simp] theorem State.enqueue_still (s : State) (p vc : Nat) (bs : List Byte) : (s.enqueue p vc bs).still = s.still := rfl

@[simp] theorem State.sendMsg_still (s : State) (die : Nat) (m : Msg) : (s.sendMsg die m).still = s.still := by
  unfold State.sendMsg
  split
  · rw [State.enqueue_still, State.segmentLeaves_still]
  · exact s.still_withNet _

@[simp] theorem State.request_still (s : State) (x : Track) (m : Msg) : (s.request x m).still = s.still := by
  unfold State.request
  split
  · rw [State.sendMsg_still, State.track_still]
  · exact s.still_withNet _

@[simp] theorem State.untrack_still (s : State) (f : Track → Bool) : (s.untrack f).still = s.still := by
  simp only [State.untrack]
  rw [forEach_still _ _ fun (q : Track × Msg) u => State.request_still u q.1 q.2, State.still_withNet]

/-! ## The start of an op -/

@[simp] theorem State.readInputs_still (s : State) (sid : Nat) (o : Op) : (s.readInputs sid o).still = s.still := by
  simp [State.readInputs]

theorem State.retainInput_still (s : State) (sid : Nat) (o : Op) :
    ∃ l, (s.retainInput sid o).still = { s.still with ldg := l } := by
  unfold State.retainInput
  split
  · exact s.retain_still _ _ _ _ _ _ _ _
  · exact ⟨s.ldg, rfl⟩

/-- A start changes the op's phase and retains its input, and otherwise changes nothing that stands still. -/
theorem State.started_still (s : State) (sid : Nat) (o : Op) :
    ∃ l, (s.started sid o).still = ({ s.still with ldg := l } : State).setOp sid o.index
      { s.opRun sid o.index with phase := .running } := by
  obtain ⟨l, hl⟩ := (s.readInputs sid o).retainInput_still sid o
  have h : (((s.readInputs sid o).retainInput sid o).track (s.opTracks sid o)).still = { s.still with ldg := l } := by
    rw [State.track_still, hl, State.readInputs_still]
  refine ⟨l, ?_⟩
  simp only [State.started]
  split
  · rw [State.setDeclared_still, State.still_setOp, h]
  · rw [State.still_setOp, h]

section
variable {s : State} {sid op : Nat} {o : Op}

/-- An op that is live stands in a slot that is open. -/
theorem State.phase_of_liveOp (h : s.liveOp sid op = some o) : (s.slot sid).phase = .opened := by
  simp only [State.liveOp] at h
  split at h
  · next hp => exact hp.1
  · cases h

theorem State.liveOp_of_opOf {c k : Nat} (h : s.opOf sid op c k = some o) : s.liveOp sid op = some o := by
  simp only [State.opOf] at h
  split at h
  · cases h
  · next x hx =>
    split at h
    · cases h; exact hx
    · cases h

/-- A run written for a live op, other than the empty run, reads as written. -/
theorem State.opRun_setOp_of_liveOp (h : s.liveOp sid op = some o) {r : OpRun} (hr : r ≠ {}) :
    (s.setOp sid op r).opRun sid op = r :=
  State.opRun_setOp (by rw [State.phase_of_liveOp h]; decide) hr

end

/-- A started op runs, and is otherwise as it was. -/
theorem State.Ready.opRun_started {s : State} {sid op c k : Nat} {o : Op} (h : s.Ready sid op c k o) :
    (s.started sid o).opRun sid op = { s.opRun sid op with phase := .running } := by
  obtain ⟨l, hl⟩ := s.started_still sid o
  have hrun : ({ s.opRun sid op with phase := .running } : OpRun) ≠ {} := fun e => by cases congrArg OpRun.phase e
  rw [← State.still_opRun, hl, h.index]
  exact State.opRun_setOp (s := { s.still with ldg := l }) (by
    show (s.slot sid).phase ≠ .idle
    rw [State.phase_of_liveOp (State.liveOp_of_opOf h.here)]; decide) hrun

/-- A start leaves the sync objects alone. -/
theorem State.started_syn (s : State) (sid : Nat) (o : Op) : (s.started sid o).syn = s.syn := by
  obtain ⟨l, hl⟩ := s.started_still sid o
  have e := congrArg State.syn hl
  exact e

/-- A start sends nothing out of the module. -/
theorem State.started_sent (s : State) (sid : Nat) (o : Op) : (s.started sid o).sent = s.sent := by
  obtain ⟨l, hl⟩ := s.started_still sid o
  have e := congrArg State.sent hl
  exact e

/-- The slot of a started op stays open. -/
theorem State.Ready.phase_started {s : State} {sid op c k : Nat} {o : Op} (h : s.Ready sid op c k o) :
    ((s.started sid o).slot sid).phase = .opened := by
  obtain ⟨l, hl⟩ := s.started_still sid o
  have hopen := State.phase_of_liveOp (State.liveOp_of_opOf h.here)
  have hslot := congrArg (State.slot · sid) hl
  rw [show (s.started sid o).slot sid = _ from hslot, State.slot_setOp_phase (s := { s.still with ldg := l })]
  · exact hopen
  · show (s.slot sid).phase ≠ .idle
    rw [hopen]; decide

end Sys2Proof.Machine
end

section
/-!
PROOFS. Vector ops (R152, R153, R303): how a ready one starts, and what a finished tile row leaves behind.
-/
namespace Sys2Proof.Machine

@[simp] theorem State.takeRow_still (s : State) (sid : Nat) (o : Op) (g i : Nat) : (s.takeRow sid o g i).still = s.still := by
  simp [State.takeRow]

@[simp] theorem State.takeRow_mem (s : State) (sid : Nat) (o : Op) (g i : Nat) : (s.takeRow sid o g i).mem = s.mem := by
  simp only [State.takeRow]
  exact forEach_keeps (φ := State.mem) (fun _ t => t.setStrand_mem _ _) _ s

/-- The items of a vector op that starts: one for each tile row, the first ones in the hands of its groups. -/
def Op.firstItems (o : Op) : List WorkItem :=
  (List.range o.tileRows.length).map (fun i => { index := i, engine := i % o.kp 45 37, taken := decide (i < o.kp 45 37) })

/-- A vector op that has started, with its items and its strands, and its groups at work. -/
def State.vectorStarted (s : State) (sid op : Nat) (o : Op) : State :=
  let t := s.started sid o
  let u := t.setOp sid op { t.opRun sid op with items := o.firstItems, base := s.strandBase sid o }
  let v := forN (Nat.min (o.kp 45 37) o.firstItems.length) (fun g w => w.takeRow sid o g g) u
  let cy := v.issueCycles sid o
  ((v.bump (v.slotDie sid) (0x09 + o.unit) 0xC00 cy.1).bump (v.slotDie sid) (0x09 + o.unit) 0xC08 cy.2).showStrands sid o.unit

section
variable {s : State} {sid op code : Nat} {o : Op} (h : s.Ready sid op 1 code o)
include h

theorem State.Ready.vectorStart_eq (hfits : s.resident sid o.unit + 32 * o.kp 45 37 ≤ s.strandLimit sid o.unit) :
    vectorStart sid op code s = s.vectorStarted sid op o := by
  have hphase := h.index ▸ h.waiting
  simp [vectorStart, h.here, h.issue_eq, h.waiting, hfits, h.begin_eq, State.vectorStarted, Op.firstItems]

theorem State.Ready.vectorStarted_still : (s.vectorStarted sid op o).still =
    ((s.started sid o).setOp sid op
      { s.opRun sid op with phase := .running, base := s.strandBase sid o, items := o.firstItems }).still := by
  simp only [State.vectorStarted, State.showStrands_still, State.bump_still]
  rw [forN_still _ _ fun g w => State.takeRow_still w sid o g g, h.opRun_started]

theorem State.Ready.vectorStarted_opRun : (s.vectorStarted sid op o).opRun sid op =
    { s.opRun sid op with phase := .running, base := s.strandBase sid o, items := o.firstItems } := by
  rw [← State.still_opRun, h.vectorStarted_still, State.still_opRun]
  exact State.opRun_setOp (by rw [h.phase_started]; decide) (fun e => by cases congrArg OpRun.phase e)

end

theorem State.vectorStarted_mem (s : State) (sid op : Nat) (o : Op) : (s.vectorStarted sid op o).mem = (s.started sid o).mem := by
  simp only [State.vectorStarted, State.showStrands, State.setField_mem, State.bump_mem]
  exact forN_keeps (fun g w => State.takeRow_mem w sid o g g) _ _

/-- Settles O14: the four commands are `vectorStart` with their opcodes. -/
theorem vectorOpsStart : Obligations.VectorOpsStart := by
  intro s sid op code c o hsid hc h hfits
  have hrun : exec c s = .next (s.vectorStarted sid op o) := by
    rw [← h.vectorStart_eq hfits]
    simp only [List.mem_cons, Prod.mk.injEq, List.not_mem_nil, or_false] at hc
    obtain ⟨rfl, rfl⟩ | ⟨rfl, rfl⟩ | ⟨rfl, rfl⟩ | ⟨rfl, rfl⟩ := hc <;> exact onUnit_pos (decide_eq_true hsid) _
  have hstill := h.vectorStarted_still
  refine ⟨_, hrun, h.vectorStarted_opRun, s.vectorStarted_mem sid op o, ?_, ?_, ?_⟩
  · exact (State.sent_of_still hstill).trans (State.setOp_sent _ _ _ _)
  · exact (State.ldg_of_still hstill).trans (State.setOp_ldg _ _ _ _)
  · exact (State.syn_of_still hstill).trans (s.started_syn sid o)

end Sys2Proof.Machine
end

section
/-!
PROOFS. Tile rows that finish (R152, R303): the items and the phase that an op's run shows, through the writes of its outputs.
-/
namespace Sys2Proof.Machine

/-- An op of an open slot shows these work items and this phase. -/
structure State.OpAt (s : State) (sid op : Nat) (items : List WorkItem) (phase : OpPhase) : Prop where
  slot : (s.slot sid).phase = .opened
  items : (s.opRun sid op).items = items
  phase : (s.opRun sid op).phase = phase

/-- A state without the slots and without what the traffic of an op touches. -/
def State.rest (s : State) : State := { s.still with slots := [] }

theorem State.rest_of_still {s t : State} (h : t.still = s.still) : t.rest = s.rest := by rw [State.rest, h, State.rest]

@[simp] theorem State.setOp_rest (s : State) (sid op : Nat) (r : OpRun) : (s.setOp sid op r).rest = s.rest := (rfl)

section
variable {s t : State} (h : t.rest = s.rest)
include h
theorem State.plan_of_rest : t.plan = s.plan := by have e := congrArg State.plan h; exact e
theorem State.syn_of_rest : t.syn = s.syn := by have e := congrArg State.syn h; exact e
theorem State.flt_of_rest : t.flt = s.flt := by have e := congrArg State.flt h; exact e
theorem State.ldg_of_rest : t.ldg = s.ldg := by have e := congrArg State.ldg h; exact e
theorem State.sent_of_rest : t.sent = s.sent := by have e := congrArg State.sent h; exact e
end

section
variable {s t : State} {sid op : Nat} {l : List WorkItem} {p : OpPhase}

theorem State.OpAt.of_still (h : s.OpAt sid op l p) (e : t.still = s.still) : t.OpAt sid op l p := by
  have hslot : t.slot sid = s.slot sid := by rw [State.slot, State.slot, State.slots_of_still e]
  have hrun := State.opRun_of_still e sid op
  exact ⟨hslot ▸ h.slot, hrun ▸ h.items, hrun ▸ h.phase⟩

/-- A run that is written shows its own items and phase. -/
theorem State.OpAt.setOp (h : (s.slot sid).phase = .opened) {r : OpRun} (hr : r.phase ≠ .idle) :
    (s.setOp sid op r).OpAt sid op r.items r.phase := by
  have hidle : (s.slot sid).phase ≠ .idle := by rw [h]; decide
  have hrun : (s.setOp sid op r).opRun sid op = r := State.opRun_setOp hidle (fun e => hr (congrArg OpRun.phase e))
  exact ⟨(State.slot_setOp_phase hidle).trans h, congrArg _ hrun, congrArg _ hrun⟩

variable {o : Op}

@[simp] theorem State.finish_rest (s : State) (sid : Nat) (o : Op) (n : Nat) : (s.finish sid o n).rest = s.rest := by
  simp only [State.finish]
  split
  · exact State.setOp_rest _ _ _ _
  · exact (State.setOp_rest _ _ _ _).trans (State.rest_of_still (s.untrack_still _))

/-- The last output of an op leaves it computed, with its items. -/
theorem State.OpAt.finish (h : s.OpAt sid o.index l p) (n : Nat) : (s.finish sid o n).OpAt sid o.index l .computed := by
  have hwrite {t : State} (ht : t.OpAt sid o.index l p) (f : Nat) : (t.setOp sid o.index
      { s.opRun sid o.index with phase := .computed, flags := f }).OpAt sid o.index l .computed := by
    have := State.OpAt.setOp (op := o.index) ht.slot (r := { s.opRun sid o.index with phase := .computed, flags := f }) nofun
    rwa [show ({ s.opRun sid o.index with phase := .computed, flags := f } : OpRun).items = l from h.items] at this
  simp only [State.finish]
  split
  · exact hwrite h _
  · exact hwrite (h.of_still (s.untrack_still _)) _

/-- Flags that an op gathers leave its items and its phase. -/
theorem State.OpAt.addFlags (h : s.OpAt sid op l p) (hp : p ≠ .idle) (f : Nat) :
    (s.setOp sid op { s.opRun sid op with flags := f }).OpAt sid op l p := by
  have := State.OpAt.setOp (op := op) h.slot (r := { s.opRun sid op with flags := f }) (h.phase ▸ hp)
  rwa [show ({ s.opRun sid op with flags := f } : OpRun).items = l from h.items,
    show ({ s.opRun sid op with flags := f } : OpRun).phase = p from h.phase] at this

@[simp] theorem State.writeTile_rest (s : State) (sid : Nat) (o : Op) (i : Nat) : (s.writeTile sid o i).rest = s.rest :=
  (State.setOp_rest _ _ _ _).trans (State.rest_of_still (s.putAt_still sid o _ _ _))

theorem State.OpAt.writeTile (h : s.OpAt sid o.index l p) (hp : p ≠ .idle) (i : Nat) :
    (s.writeTile sid o i).OpAt sid o.index l p :=
  (h.of_still (s.putAt_still sid o _ _ _)).addFlags hp _

@[simp] theorem State.putTensor_still (s : State) (sid : Nat) (o : Op) (i : Nat) (raw : Bool) (v : Nat → Nat → Nat → Word) :
    (s.putTensor sid o i raw v).1.still = s.still := s.putAt_still _ _ _ _ _

@[simp] theorem State.writeFolds_rest (s : State) (sid : Nat) (o : Op) : (s.writeFolds sid o).rest = s.rest :=
  (State.setOp_rest _ _ _ _).trans (State.rest_of_still (s.putTensor_still sid o _ _ _))

theorem State.OpAt.writeFolds (h : s.OpAt sid o.index l p) (hp : p ≠ .idle) : (s.writeFolds sid o).OpAt sid o.index l p :=
  (h.of_still (s.putTensor_still sid o _ _ _)).addFlags hp _

end

/-! ## TILE_ROW_COMPLETE -/

/-- The state in which a finished tile row's items are written and its group has taken the next one. -/
def State.rowTaken (s : State) (sid : Nat) (o : Op) (group : Nat) (next : Option WorkItem) (items : List WorkItem) : State :=
  let t := s.setOp sid o.index { s.opRun sid o.index with items := items }
  match next with
  | some y => t.takeRow sid o group y.index
  | none => t

/-- The state behind a tile row that finished: its tile is written with its last row, and the op's outputs with its last tile. -/
def State.rowDone (s : State) (sid : Nat) (o : Op) (group : Nat) (x : WorkItem) (next : Option WorkItem) (items : List WorkItem) : State :=
  let t := s.rowTaken sid o group next items
  let done (j : Nat) : Bool := items.any (fun y => y.index == j && y.finished)
  let t := if (o.opcode = 1 ∨ o.opcode = 4) ∧ (o.tileMates x.index).all done then t.writeTile sid o x.index else t
  if items.all (fun y => y.finished) then (if o.opcode = 2 ∨ o.opcode = 3 then t.writeFolds sid o else t).finish sid o 0 else t

section
variable (s : State) (sid : Nat) (o : Op) (group : Nat) (x : WorkItem) (next : Option WorkItem) (items : List WorkItem)

@[simp] theorem State.rowTaken_rest : (s.rowTaken sid o group next items).rest = s.rest := by
  cases next with
  | none => exact State.setOp_rest _ _ _ _
  | some y => exact (State.rest_of_still (State.takeRow_still _ sid o group y.index)).trans (State.setOp_rest _ _ _ _)

theorem State.rowDone_rest : (s.rowDone sid o group x next items).rest = s.rest := by
  simp only [State.rowDone]
  split_ifs <;> simp only [State.finish_rest, State.writeFolds_rest, State.writeTile_rest, State.rowTaken_rest]

variable {s sid o} (hs : (s.slot sid).phase = .opened) (hr : (s.opRun sid o.index).phase = .running)
include hs hr

theorem State.rowTaken_opAt : (s.rowTaken sid o group next items).OpAt sid o.index items .running := by
  have hidle : ({ s.opRun sid o.index with items := items } : OpRun).phase ≠ .idle := by rw [hr]; decide
  have hset : (s.setOp sid o.index { s.opRun sid o.index with items := items }).OpAt sid o.index items .running :=
    ⟨(State.OpAt.setOp hs hidle).slot, (State.OpAt.setOp hs hidle).items, (State.OpAt.setOp hs hidle).phase.trans hr⟩
  cases next with
  | none => exact hset
  | some y => exact hset.of_still (State.takeRow_still _ sid o group y.index)

theorem State.rowDone_opAt : (s.rowDone sid o group x next items).OpAt sid o.index items
    (if items.all (fun y => y.finished) then .computed else .running) := by
  have htaken := State.rowTaken_opAt group next items hs hr
  simp only [State.rowDone]
  split_ifs
  · exact ((htaken.writeTile nofun _).writeFolds nofun).finish 0
  · exact (htaken.writeFolds nofun).finish 0
  · exact (htaken.writeTile nofun _).finish 0
  · exact htaken.finish 0
  · exact htaken.writeTile nofun _
  · exact htaken

end

/-- Settles O15: a group's row that finished leads to `State.rowDone`, and one that disagrees for the first time is only
marked. -/
theorem tileRowCompletes : Obligations.TileRowCompletes := by
  intro s sid op group o x hsid hlive hindex hcls hrun hsaved hdue hfind r done items
  subst hindex
  have hexec (d : Bool) : exec (.tileRowComplete sid o.index group d) s = .next (tileRowComplete sid o.index group d s) :=
    onUnit_pos (decide_eq_true hsid) _
  have hcls2 : ¬ o.cls = 2 := by omega
  have hgo : ¬ (o.cls ≠ 1 ∨ (s.opRun sid o.index).phase ≠ .running ∨ s.coreSaved sid o = true) := by simp [hcls, hrun, hsaved]
  refine ⟨⟨s.rowDone sid o group x (done.find? (fun y => !y.taken)) items, ?_, ?_⟩, fun hretried => ?_⟩
  · rw [hexec, tileRowComplete, hlive]
    dsimp only
    rw [if_neg hcls2, if_neg hgo, hfind]
    dsimp only
    rw [if_neg Bool.false_ne_true, hdue, if_neg Bool.false_ne_true]
    rfl
  · have hat := State.rowDone_opAt group x (done.find? (fun y => !y.taken)) items (State.phase_of_liveOp hlive) hrun
    have hrest := s.rowDone_rest sid o group x (done.find? (fun y => !y.taken)) items
    exact ⟨hat.items, hat.phase, State.ldg_of_rest hrest, State.sent_of_rest hrest, State.syn_of_rest hrest,
      State.flt_of_rest hrest, State.plan_of_rest hrest⟩
  · rw [hexec, tileRowComplete, hlive]
    dsimp only
    rw [if_neg hcls2, if_neg hgo, hfind]
    dsimp only
    rw [if_pos rfl, hretried, if_neg Bool.false_ne_true]

end Sys2Proof.Machine
end

section
/-!
PROOFS. Matrix ops (R92 to R113) and chunks (R100, R166, R300, R304).
-/
namespace Sys2Proof.Machine

@[simp] theorem State.stage_still (s : State) (sid : Nat) (o : Op) : (s.stage sid o).still = s.still := s.still_withUnits _

@[simp] theorem State.askGrant_still (s : State) (c : Nat) : (s.askGrant c).still = s.still := s.still_withPwr _

@[simp] theorem State.rampStart_still (s : State) (c : Nat) : (s.rampStart c).still = s.still := by
  simp only [State.rampStart]
  split_ifs <;> simp only [State.bump_still, State.setCore_still, State.askGrant_still]

/-- An op that runs already does not start again. -/
theorem State.begin_eq_of_running {s : State} {sid : Nat} {o : Op} (h : (s.opRun sid o.index).phase = .running) :
    s.begin' sid o = (s, false) := by
  have hissue : s.issue sid o = s := by simp [State.issue, h]
  simp [State.begin', hissue, h]

section
variable {s : State} {sid op : Nat} {o : Op} (hsid : sid < 60)
include hsid

theorem State.Ready.exec_kFold (h : s.Ready sid op 0 2 o) :
    let b := s.started sid o
    let t := b.rampStart (b.coreOf sid o)
    let n := o.nopnd - (if o.keep then 0 else 1)
    let folded (p : Nat × Nat × Nat) : Word × Bool :=
      let vs := (List.range n).map (fun i => t.inVal sid o i p.1 p.2.1 p.2.2)
      if o.accIn = 2 then foldPartials (t.acc (t.laneKey sid o p.1 p.2.1 p.2.2)).val vs
      else foldPartials (vs.headD 0) (vs.drop 1)
    let u := forEach o.matDims.all (fun p v =>
      v.setAcc (t.laneKey sid o p.1 p.2.1 p.2.2) { val := (folded p).1, unwritten := true }) t
    exec (.kFold sid op) s = .next (u.matrixOut sid o (if o.keep then none else some (o.nopnd - 1))
      (if o.matDims.all.any (fun p => (folded p).2) then 32 else 0) (fun x i j => (folded (x, i, j)).1)) := by
  refine (onUnit_pos (decide_eq_true hsid) _).trans (congrArg _ ?_)
  rw [kFold, h.here]
  dsimp only
  rw [h.begin_eq]
  rfl

theorem State.Ready.exec_accWrite (h : s.Ready sid op 0 3 o) :
    let b := s.started sid o
    let t := b.rampStart (b.coreOf sid o)
    exec (.accWrite sid op) s = .next (t.matrixOut sid o (some 0) 0 (fun x i j => (b.acc (b.laneKey sid o x i j)).val)) := by
  refine (onUnit_pos (decide_eq_true hsid) _).trans (congrArg _ ?_)
  rw [accWrite, h.here]
  dsimp only
  rw [h.begin_eq]
  rfl

theorem State.Ready.exec_product (h : s.Ready sid op 0 1 o) :
    let t := ((s.started sid o).stage sid o).rampStart (s.coreOf sid o)
    t.disputed sid op = false → (t.core (t.coreOf sid o)).ctx = none →
    exec (.product sid op) s = .next ((forEach o.units (fun u v => v.runUnit sid o u.1 u.2) t).finish sid o 0) := by
  intro t hdisputed hctx
  have hstart : s.startProduct sid o = t := by rw [State.startProduct, h.begin_eq]; rfl
  have hrun : (t.opRun sid op).phase = .running := by
    rw [State.opRun_of_still (s := s.started sid o) (by simp [t]), h.opRun_started]
  refine (onUnit_pos (decide_eq_true hsid) _).trans (congrArg _ ?_)
  simp [product, h.here, hstart, hrun, hdisputed, hctx]

end

/-- Settles O16: the three commands start the op and run its body. -/
theorem matrixOpsComplete : Obligations.MatrixOpsComplete :=
  fun _ _ _ _ hsid => ⟨State.Ready.exec_kFold hsid, State.Ready.exec_accWrite hsid, State.Ready.exec_product hsid⟩

/-! ## CHUNK -/

theorem State.bufferUpset_none (s : State) (sid : Nat) (o : Op) (core : Nat) {us : List LaneUpset} (c : Cond)
    (h : ∀ u ∈ us, u.buf = 0) : s.bufferUpset sid o core us c = none := by
  have hany : (us.any fun u => decide (2 ≤ u.buf)) = false := by
    rw [List.any_eq_false]
    intro u hu
    simp [h u hu]
  rw [State.bufferUpset]
  simp only [hany]
  rfl

theorem State.bufferUpset_some (s : State) (sid : Nat) (o : Op) (core : Nat) {us : List LaneUpset} (c : Cond)
    (h : ∃ u ∈ us, 2 ≤ u.buf) : s.bufferUpset sid o core us c = some
      (if s.readsDsm sid o then s.raise (core / 4) 0x0506 { typ := 0x01, op := o.index, cond := c }
       else s.raise (core / 4) 0x0507 { typ := 0x02, inst := core % 4, op := o.index, cond := c }) := by
  have hany : (us.any fun u => decide (2 ≤ u.buf)) = true := by simpa using h
  rw [State.bufferUpset]
  simp only [hany]
  cases s.readsDsm sid o <;> rfl

/-- Settles O17: the op runs, so CHUNK takes its turn in the state as it is; then the buffers' upsets, the checker and the
dual run decide in this order. -/
theorem chunkPromotesOrDisputes : Obligations.ChunkPromotesOrDisputes := by
  intro s sid op row slice us c o hsid hof hindex hrun hturn core b a n outs t
  have hexec : exec (.chunk sid op row slice us c) s = .next (chunk sid op row slice us c s) := onUnit_pos (decide_eq_true hsid) _
  have hstart : s.startProduct sid o = s := by
    rw [State.startProduct, State.begin_eq_of_running (by rw [hindex]; exact hrun)]; rfl
  have hquiet (h : ∀ u ∈ us, u.buf = 0) : (us.any fun u => u.buf == 1) = false := by
    rw [List.any_eq_false]
    intro u hu
    simp [h u hu]
  refine ⟨fun hbuf hgood hdual => ?_, fun hbuf hbad hcheck => ?_, fun hbuf => ?_⟩
  · rw [hexec]
    simp only [chunk, hof, hstart, hturn, s.bufferUpset_none sid o _ c hbuf, hquiet hbuf, Bool.false_and, Bool.not_true,
      Bool.false_eq_true, ↓reduceIte]
    rw [if_neg (fun h => Bool.false_ne_true (hgood.symm.trans h.2)),
      if_neg (fun h => Bool.false_ne_true (hdual.symm.trans h))]
  · rw [hexec]
    simp only [chunk, hof, hstart, hturn, s.bufferUpset_none sid o _ c hbuf, hquiet hbuf, Bool.false_and, Bool.not_true,
      Bool.false_eq_true, ↓reduceIte]
    rw [if_pos ⟨hcheck, hbad⟩]
  · rw [hexec, chunk, hof]
    simp only [hstart, hturn, s.bufferUpset_some sid o _ c hbuf]
    rfl

end Sys2Proof.Machine
end

section
/-!
PROOFS. The assays of a disputed chunk (R312, R313), the health of arrays (R315 to R321).
-/
namespace Sys2Proof.Machine

/-- What a command answers, and that answer in other words. -/
theorem exec_of_eq {c : Instr} {s t u : State} (h : exec c s = .next t) (e : t = u) : exec c s = .next u :=
  h.trans (congrArg _ e)

/-- ASSAY on the first standby of the core's die group. -/
theorem assay_eq {s : State} {core sb : Nat} (us : List LaneUpset) (c : Cond) {d : Dispute}
    (hd : s.nextDispute core false = some d) (hsb : (s.standbys core)[0]? = some sb) :
    assay core us c s =
      let o := s.opAt d.sid false d.op
      let run := s.reRun d o us
      let t := (s.aryBump core 0xCC0).countChunk sb 6 (o.newSlice d.chunk) (run.1.any (fun x => x.repeated))
      if run.2.1 then
        let u := t.aryBump core 0xCD8
        { u with units := { u.units with disputes := u.units.disputes.map (fun (x : Dispute) =>
          if x.same d then { x with assay := run.1, second := true, standby := sb } else x) } }
      else if run.1 = d.original then
        let q := t.charge d o core d.array 1 c run.1
        ((q.1.strike core d.array).aryBump core 0xCC8).resolveDispute d o c 1 0x0400 d.original run.2.2 q.2.1 q.2.2
      else
        let q := t.charge d o core d.array 0 c run.1
        ((q.1.confirmFault core d.array c).aryBump core 0xCD0).resolveDispute d o c 2 0x0401 run.1 run.2.2 q.2.1 q.2.2 := by
  rw [assay, hd]
  dsimp only
  rw [hsb]

/-- SECOND_ASSAY on the first standby that did not run the assay. -/
theorem secondAssay_eq {s : State} {core sb : Nat} (us : List LaneUpset) (c : Cond) {d : Dispute}
    (hd : s.nextDispute core true = some d) (hsb : (s.standbys core).find? (fun x => x != d.standby) = some sb) :
    secondAssay core us c s =
      let o := s.opAt d.sid false d.op
      let run := s.reRun d o us
      let t := (s.aryBump core 0xCC0).countChunk sb 6 (o.newSlice d.chunk) (run.1.any (fun x => x.repeated))
      if run.2.1 then t.stepReplay d c
      else if run.1 = d.original then
        let q := t.charge d o core d.array 1 c run.1
        let u := ((q.1.strike core d.array).charge d o d.standby 6 1 c run.1).1
        ((u.strike d.standby 6).suspectDie (core / 4)).resolveDispute d o c 3 0x0402 d.original run.2.2 q.2.1 q.2.2
      else if run.1 = d.assay then
        let q := t.charge d o core d.array 0 c run.1
        let u := ((q.1.confirmFault core d.array c).charge d o d.standby 6 1 c run.1).1
        ((u.strike d.standby 6).suspectDie (core / 4)).resolveDispute d o c 3 0x0402 run.1 run.2.2 q.2.1 q.2.2
      else
        let q := t.charge d o core d.array 0 c run.1
        let u := ((q.1.confirmFault core d.array c).charge d o d.standby 6 0 c run.1).1
        ((u.confirmFault d.standby 6 c).suspectDie (core / 4)).resolveDispute d o c 3 0x0402 run.1 run.2.2 q.2.1 q.2.2 := by
  rw [secondAssay, hd]
  dsimp only
  rw [hsb]
  rfl

/-- Settles O19: the check of the second run and its comparison with the values at hand pick the branch. -/
theorem assaysDecide : Obligations.AssaysDecide := by
  refine ⟨fun s core sb us c d hcore hd hsb => ?_, fun s core us c d hcore hd => ?_⟩
  · have hexec : exec (.assay core us c) s = .next (assay core us c s) := onUnit_pos (decide_eq_true hcore) _
    rw [hexec, assay_eq us c hd hsb]
    refine ⟨fun hbad heq => ?_, fun hbad hne => ?_, fun hbad => ?_⟩
    · simp only [hbad, heq, Bool.false_eq_true, ↓reduceIte]
    · simp only [hbad, hne, Bool.false_eq_true, ↓reduceIte]
    · simp only [hbad, ↓reduceIte]
  · have hexec : exec (.secondAssay core us c) s = .next (secondAssay core us c s) := onUnit_pos (decide_eq_true hcore) _
    rw [hexec]
    refine ⟨fun hsb => ?_, fun sb hsb => ?_⟩
    · rw [secondAssay, hd]
      dsimp only
      rw [hsb]
    · rw [secondAssay_eq us c hd hsb]
      refine ⟨fun hbad => ?_, fun hbad heq => ?_, fun hbad hne heq => ?_, fun hbad hne hne' => ?_⟩
      · simp only [hbad, ↓reduceIte]
      · simp only [hbad, heq, Bool.false_eq_true, ↓reduceIte]
      · rw [if_neg (by simp [hbad]), if_neg hne, if_pos heq]
      · rw [if_neg (by simp [hbad]), if_neg hne, if_neg hne']

/-! ## The health of arrays -/

/-- The number of a core from its die and its place there. -/
theorem core_of_die (core : Nat) : 4 * (core / 4) + core % 4 = core := Nat.div_add_mod core 4

/-- Settles O20. -/
theorem arrayHealthCommands : Obligations.ArrayHealthCommands := by
  intro s core a hcore ha
  refine ⟨fun i us c e hidle hrun => ?_, fun p v hok hdie hc hav hout hst hrel => ?_, fun v hrel => ?_, fun hst => ?_, fun b => ?_⟩
  · refine (onUnit_pos (by simp [hcore, ha]) _).trans (congrArg _ ?_)
    cases hslot : s.dieSlot (core / 4) with
    | none => simp [touchstoneRun, arrDie, hslot, hrun]
    | some sid => simp [touchstoneRun, arrDie, hslot, hidle sid hslot, hrun]
  · refine exec_of_eq (t := fltAryRel p v s) rfl ?_
    have hfew : ¬ (48 ≤ core / 4 ∨ 6 < a ∨ s.stu.outDies.contains (core / 4) = true) := by
      rw [hout]; simp; omega
    simp only [fltAryRel, hok, hdie, hc, hav, core_of_die]
    rw [if_neg hfew, if_neg (by simp [hst, hrel])]
  · refine (onUnit_pos (by simp [hcore, ha]) _).trans (congrArg _ ?_)
    rw [State.releaseEvent, hrel]
    rfl
  · refine (onUnit_pos (by simp [hcore]; omega) _).trans (congrArg _ ?_)
    simp [faultWindowExpiry, hst, Nat.ne_of_lt ha]
  · refine (onUnit_pos (by simp [hcore]) _).trans (congrArg _ ?_)
    rfl

end Sys2Proof.Machine
end

section
/-!
PROOFS. Contexts and tapers of the cores (R118 to R122), the engine cluster (R168 to R183).
-/
namespace Sys2Proof.Machine

/-- Settles O21. -/
theorem contextAndTaper : Obligations.ContextAndTaper := by
  intro s core hcore
  refine ⟨fun hctx hwait => ?_, fun sid hslot hsid hctx hwait => ?_, fun c hctx => ?_, fun hslot => ?_⟩
  · refine exec_of_eq (onUnit_pos (decide_eq_true hcore) _) ?_
    simp only [contextSave, hctx, hwait, Option.isSome_none, Bool.false_eq_true, ↓reduceIte]
    rfl
  · refine exec_of_eq (onUnit_pos (decide_eq_true hcore) _) ?_
    simp only [contextSave, hctx, hwait, Option.isSome_none, Bool.false_eq_true, ↓reduceIte]
    simp only [State.saveNow, arrDie, hslot, Option.getD_some, if_pos hsid]
    rfl
  · refine exec_of_eq (onUnit_pos (decide_eq_true hcore) _) ?_
    rw [contextRestore, hctx]
    rfl
  · have hexec : exec (.idleTaper core) s = .next (idleTaper core s) := onUnit_pos (decide_eq_true hcore) _
    refine ⟨fun hramp hmode => exec_of_eq hexec ?_, fun hramp => exec_of_eq hexec ?_⟩
    · simp [idleTaper, arrDie, hslot, hramp, hmode]
    · simp [idleTaper, arrDie, hslot, hramp]

end Sys2Proof.Machine
end

section
/-!
PROOFS. The engine cluster (R168 to R183): the items that engines take, the items of an op that starts, an item that finishes.
-/
namespace Sys2Proof.Machine

/-! ## Takes of items -/

/-- What every round of a loop passes on, the loop passes on. -/
theorem forEach_passes {α : Type} {P : State → Prop} {f : α → State → State} (h : ∀ a t, P t → P (f a t)) (l : List α)
    {s : State} (hs : P s) : P (forEach l f s) := by
  unfold forEach
  induction l generalizing s with
  | nil => exact hs
  | cons a l ih => exact ih (h a s hs)

/-- What holds of an op's items keeps as engines take them: no take of an item that is not taken yet breaks it. -/
def KeptByTakes (Q : List WorkItem → Prop) : Prop :=
  ∀ (l : List WorkItem) (i : WorkItem) (e : Nat), i ∈ l → i.taken = false → Q l → Q (setItem l { i with taken := true, engine := e })

/-- An open slot's op in a phase of its own, with items of which something holds. -/
structure State.OpShows (s : State) (sid op : Nat) (p : OpPhase) (Q : List WorkItem → Prop) : Prop where
  slot : (s.slot sid).phase = .opened
  phase : (s.opRun sid op).phase = p
  items : Q (s.opRun sid op).items

/-- A write of one op leaves the runs of the others alone. -/
theorem State.opRun_setOp_ne {s : State} {sid op k : Nat} (h : (s.slot sid).phase = .opened) (r : OpRun) (hk : k ≠ op) :
    (s.setOp sid op r).opRun sid k = s.opRun sid k := by
  have hne : ({ s.slot sid with ops := SMap.set (fun _ => {}) (s.slot sid).ops op r } : SlotRun) ≠ {} := fun e => by
    have hphase := congrArg SlotRun.phase e
    rw [show _ = (s.slot sid).phase from rfl, h] at hphase
    cases hphase
  unfold State.setOp State.opRun State.slot State.setSlot
  dsimp only
  rw [SMap.get_set_new hne]
  exact SMap.get_set_ne _ _ hk

theorem mem_sortBy {α : Type} {le : α → α → Bool} {l : List α} {x : α} (h : x ∈ sortBy le l) : x ∈ l :=
  (sortBy_perm le l).mem_iff.mp h

/-- An untaken item of a sublist is an item of its op. -/
theorem State.mem_sublist {s : State} {sid cls e : Nat} {x : Nat × WorkItem} (h : x ∈ s.sublist sid cls e) :
    x.2 ∈ (s.opRun sid x.1).items ∧ x.2.taken = false := by
  obtain ⟨hwork, hfree⟩ := List.mem_filter.mp (mem_sortBy h)
  simp only [State.work, List.mem_flatMap, List.mem_map] at hwork
  obtain ⟨o, -, i, hi, rfl⟩ := hwork
  simp only [Bool.and_eq_true, Bool.not_eq_true'] at hfree
  exact ⟨hi, hfree.1⟩

section
variable {s : State} {sid op : Nat} {p : OpPhase} {Q : List WorkItem → Prop}

theorem State.OpShows.of_still (h : s.OpShows sid op p Q) {t : State} (e : t.still = s.still) : t.OpShows sid op p Q := by
  have hslot : t.slot sid = s.slot sid := by rw [State.slot, State.slot, State.slots_of_still e]
  have hrun := State.opRun_of_still e sid op
  exact ⟨hslot ▸ h.slot, hrun ▸ h.phase, hrun ▸ h.items⟩

variable (hp : p ≠ .idle) (hQ : KeptByTakes Q)
include hp hQ

theorem State.OpShows.takeItem (h : s.OpShows sid op p Q) (e : Nat) {x : Nat × WorkItem}
    (hx : x.2 ∈ (s.opRun sid x.1).items ∧ x.2.taken = false) : (s.takeItem sid e x).OpShows sid op p Q := by
  have hslot : (s.slot sid).phase ≠ .idle := by rw [h.slot]; decide
  have hopen := (State.slot_setOp_phase (op := x.1) (r := { s.opRun sid x.1 with
    items := setItem (s.opRun sid x.1).items { x.2 with taken := true, engine := e } }) hslot).trans h.slot
  obtain ⟨k, i⟩ := x
  by_cases hk : op = k
  · subst hk
    have hrun := State.opRun_setOp (op := op) (r := { s.opRun sid op with
      items := setItem (s.opRun sid op).items { i with taken := true, engine := e } }) hslot
      (fun c => hp (h.phase.symm.trans (congrArg OpRun.phase c)))
    exact ⟨hopen, (congrArg OpRun.phase hrun).trans h.phase,
      (congrArg OpRun.items hrun).symm ▸ hQ _ i e hx.1 hx.2 h.items⟩
  · have hrun := State.opRun_setOp_ne h.slot { s.opRun sid k with
      items := setItem (s.opRun sid k).items { i with taken := true, engine := e } } hk
    exact ⟨hopen, (congrArg OpRun.phase hrun).trans h.phase, (congrArg OpRun.items hrun).symm ▸ h.items⟩

theorem State.OpShows.ownTake (h : s.OpShows sid op p Q) (cls e : Nat) : (s.ownTake sid cls e).OpShows sid op p Q := by
  unfold State.ownTake
  split
  · exact h
  · split
    · exact h
    · next x l hl =>
      split
      · exact h
      · exact h.takeItem hp hQ e (State.mem_sublist (hl ▸ List.mem_cons_self))

theorem State.OpShows.steal (h : s.OpShows sid op p Q) (cls e : Nat) : (s.steal sid cls e).OpShows sid op p Q := by
  unfold State.steal
  dsimp only
  split
  · exact h
  · split
    · exact h
    · split
      · exact h
      · next x hl =>
        have htake := h.takeItem hp hQ e (State.mem_sublist (List.mem_of_getLast? hl))
        split
        · exact h
        · split
          · exact htake.of_still (State.bump_still _ _ _ _ _)
          · exact htake

theorem State.OpShows.engineRound (h : s.OpShows sid op p Q) (cls : Nat) : (s.engineRound sid cls).OpShows sid op p Q :=
  forEach_passes (P := (State.OpShows · sid op p Q)) (fun e _ ht => ht.steal hp hQ cls e) _
    (forEach_passes (P := (State.OpShows · sid op p Q)) (fun e _ ht => ht.ownTake hp hQ cls e) _ h)

end

/-- What the writes of ops and of counters keep, a round of takes keeps. -/
theorem State.engineRound_keeps {β : Type} {φ : State → β} (hset : ∀ (t : State) (sid op : Nat) (r : OpRun), φ (t.setOp sid op r) = φ t)
    (hbump : ∀ (t : State) (die blk off n : Nat), φ (t.bump die blk off n) = φ t) (s : State) (sid cls : Nat) :
    φ (s.engineRound sid cls) = φ s := by
  have hown (e : Nat) (t : State) : φ (t.ownTake sid cls e) = φ t := by
    unfold State.ownTake
    split
    · rfl
    · split
      · rfl
      · split
        · rfl
        · exact hset _ _ _ _
  have hsteal (e : Nat) (t : State) : φ (t.steal sid cls e) = φ t := by
    unfold State.steal
    dsimp only
    split
    · rfl
    · split
      · rfl
      · split
        · rfl
        · split
          · rfl
          · split
            · exact (hbump _ _ _ _ _).trans (hset _ _ _ _)
            · exact hset _ _ _ _
  exact (forEach_keeps hsteal _ _).trans (forEach_keeps hown _ _)

@[simp] theorem State.engineRound_rest (s : State) (sid cls : Nat) : (s.engineRound sid cls).rest = s.rest :=
  s.engineRound_keeps State.setOp_rest (fun t _ _ _ _ => State.rest_of_still (t.bump_still _ _ _ _)) sid cls

@[simp] theorem State.engineRound_mem (s : State) (sid cls : Nat) : (s.engineRound sid cls).mem = s.mem :=
  s.engineRound_keeps State.setOp_mem State.bump_mem sid cls

/-! ## The start of an engine op -/

theorem State.cls_of_opOf {s : State} {sid op c k : Nat} {o : Op} (h : s.opOf sid op c k = some o) : o.cls = c := by
  simp only [State.opOf] at h
  split at h
  · cases h
  · split at h
    · next hc => cases h; exact hc.1
    · cases h

theorem setItem_indices (l : List WorkItem) (x : WorkItem) : (setItem l x).map (fun y => y.index) = l.map (fun y => y.index) := by
  simp only [setItem, List.map_map]
  refine List.map_congr_left fun y _ => ?_
  dsimp only [Function.comp]
  split
  · next h => exact h.symm
  · rfl

theorem mem_setItem {l : List WorkItem} {x y : WorkItem} (h : y ∈ setItem l x) : y = x ∨ y ∈ l ∧ y.index ≠ x.index := by
  obtain ⟨z, hz, rfl⟩ := List.mem_map.mp h
  split
  · exact .inl rfl
  · next hne => exact .inr ⟨hz, hne⟩

/-- Items of these numbers, none of them finished. -/
def Unfinished (n : Nat) (l : List WorkItem) : Prop :=
  l.map (fun x => x.index) = List.range n ∧ ∀ x ∈ l, x.finished = false

theorem keptByTakes_unfinished (n : Nat) : KeptByTakes (Unfinished n) := fun l i e hi _ h =>
  ⟨(setItem_indices l _).trans h.1, fun y hy => by
    obtain rfl | ⟨hy, -⟩ := mem_setItem hy
    · exact h.2 i hi
    · exact h.2 y hy⟩

/-- The items that an op is cut into. -/
def State.dealt (s : State) (sid : Nat) (o : Op) : List WorkItem :=
  let es := s.engines sid o.cls
  (List.range o.itemCount).map (fun i =>
    { index := i, engine := es.getD (i % Nat.max 1 es.length) 0, ord := s.nextOrd sid o.cls + i, taken := o.cls == 0x0D })

theorem State.unfinished_dealt (s : State) (sid : Nat) (o : Op) : Unfinished o.itemCount (s.dealt sid o) := by
  simp [Unfinished, State.dealt, Function.comp_def]

/-- An engine op of the die that has started: its items are dealt and the engines take. -/
def State.engineStarted (s : State) (sid op : Nat) (o : Op) : State :=
  let t := s.started sid o
  (t.setOp sid op { t.opRun sid op with items := t.dealt sid o }).engineRound sid o.cls

section
variable {s : State} {sid op cls code : Nat} {o : Op} (h : s.Ready sid op cls code o)
include h

theorem State.Ready.engineStart_eq (hcls : cls ≠ 0x0D) : engineStart sid op cls code s = s.engineStarted sid op o := by
  have hne : ¬ o.cls = 0x0D := fun e => hcls ((State.cls_of_opOf h.here).symm.trans e)
  have hindex := h.index
  simp only [engineStart, h.here, h.begin_eq, State.deal, if_neg hne, if_true]
  subst hindex
  rfl

/-- An op whose items are written runs with them. -/
theorem State.Ready.opShows_dealt : ((s.started sid o).setOp sid op { (s.started sid o).opRun sid op with
    items := (s.started sid o).dealt sid o }).OpShows sid op .running (Unfinished o.itemCount) := by
  have hrun : ((s.started sid o).opRun sid op).phase = .running := by rw [h.opRun_started]
  have hat := State.OpAt.setOp (op := op) h.phase_started (r := { (s.started sid o).opRun sid op with
    items := (s.started sid o).dealt sid o }) (by rw [hrun]; decide)
  exact ⟨hat.slot, hat.phase.trans hrun, hat.items.symm ▸ (s.started sid o).unfinished_dealt sid o⟩

theorem State.Ready.engineStarted_shows :
    (s.engineStarted sid op o).OpShows sid op .running (Unfinished o.itemCount) :=
  State.OpShows.engineRound (p := .running) nofun (keptByTakes_unfinished _) h.opShows_dealt _

end

theorem State.engineStarted_sent (s : State) (sid op : Nat) (o : Op) : (s.engineStarted sid op o).sent = s.sent :=
  (State.sent_of_rest (State.engineRound_rest _ _ _)).trans ((State.setOp_sent _ _ _ _).trans (s.started_sent sid o))

theorem State.engineStarted_mem (s : State) (sid op : Nat) (o : Op) : (s.engineStarted sid op o).mem = (s.started sid o).mem :=
  (State.engineRound_mem _ _ _).trans (State.setOp_mem _ _ _ _)

/-- Settles O22: each of the commands is `engineStart` of its class, and no class of them is the far tier's. -/
theorem engineOpsStart : Obligations.EngineOpsStart := by
  intro s sid op cls code c o hsid hc h
  have hrun : exec c s = .next (engineStart sid op cls code s) ∧ cls ≠ 0x0D := by
    simp only [List.mem_cons, Prod.mk.injEq, List.not_mem_nil, or_false] at hc
    obtain ⟨rfl, rfl, rfl⟩ | ⟨rfl, rfl, rfl⟩ | ⟨rfl, rfl, rfl⟩ | ⟨rfl, rfl, rfl⟩ | ⟨rfl, rfl, rfl⟩ | ⟨rfl, rfl, rfl⟩ |
      ⟨rfl, rfl, rfl⟩ | ⟨rfl, rfl, rfl⟩ | ⟨rfl, rfl, rfl⟩ | ⟨rfl, rfl, rfl⟩ | ⟨rfl, rfl, rfl⟩ | ⟨rfl, rfl, rfl⟩ |
      ⟨rfl, rfl, rfl⟩ | ⟨rfl, rfl, rfl⟩ | ⟨rfl, rfl, rfl⟩ := hc <;>
      exact ⟨onUnit_pos (decide_eq_true hsid) _, by decide⟩
  have hshows := h.engineStarted_shows
  refine ⟨_, exec_of_eq hrun.1 (h.engineStart_eq hrun.2), hshows.phase, hshows.items.1, ?_, s.engineStarted_mem sid op o,
    s.engineStarted_sent sid op o⟩
  exact List.all_eq_true.mpr fun x hx => by rw [hshows.items.2 x hx]; rfl

end Sys2Proof.Machine
end

section
/-!
PROOFS. Items that finish and engines that leave service (R175, R177, R183, R303); the start of transfers (R44, R214, R254).
-/
namespace Sys2Proof.Machine

@[simp] theorem State.writeItem_still (s : State) (sid : Nat) (o : Op) (i : Nat) : (s.writeItem sid o i).1.still = s.still := by
  have hput (l : List (Nat × Nat × List Byte)) : (forEach l (fun w u => u.putAt sid o w.1 w.2.1 w.2.2) s).still = s.still :=
    forEach_still l s fun w u => u.putAt_still sid o w.1 w.2.1 w.2.2
  have hmark (l : List (Loc × Nat)) (t : State) : (forEach l (fun l u => u.markLines l.1 l.2 false) t).still = t.still :=
    forEach_still l t fun w u => u.markLines_still w.1 w.2 false
  simp only [State.writeItem]
  split
  · rw [hmark, hput]
  · rw [hput]

/-- The items of a number are taken and finished. -/
def ItemDone (item : Nat) (l : List WorkItem) : Prop := ∀ y ∈ l, y.index = item → y.taken = true ∧ y.finished = true

theorem keptByTakes_itemDone (item : Nat) : KeptByTakes (ItemDone item) := fun l i e hi hfree h y hy heq => by
  obtain rfl | ⟨hy, -⟩ := mem_setItem hy
  · exact absurd (h i hi heq).1 (by simp [hfree])
  · exact h y hy heq

theorem itemDone_setItem (l : List WorkItem) {x : WorkItem} (h : x.taken = true) :
    ItemDone x.index (setItem l { x with finished := true }) := fun y hy heq => by
  obtain rfl | ⟨-, hne⟩ := mem_setItem hy
  · exact ⟨h, rfl⟩
  · exact absurd heq hne

/-- With one item finished the rest decides whether all are. -/
theorem all_finished_setItem (l : List WorkItem) (x : WorkItem) :
    (setItem l { x with finished := true }).all (fun y => y.finished) = true ↔ ∀ y ∈ l, y.index ≠ x.index → y.finished = true := by
  simp only [setItem, List.all_map, List.all_eq_true, Function.comp]
  refine forall₂_congr fun y _ => ?_
  split
  · next h => simp [h]
  · next h => simp [h]

/-- The state behind an item that finished, with its output and its flags written. -/
def State.itemWritten (s : State) (sid : Nat) (o : Op) (x : WorkItem) : State :=
  let w := s.writeItem sid o x.index
  let r := w.1.opRun sid o.index
  w.1.setOp sid o.index { r with
    items := setItem r.items { x with finished := true },
    flags := Nat.lor r.flags (Nat.lor w.2 (flagBit (o.cls == 0x0D && s.mem.farOps.contains (sid, o.index, true)) 0)) }

/-- The state behind an item that finished: the op's end with its last item, and the engines at the next ones. -/
def State.itemDone (s : State) (sid : Nat) (o : Op) (x : WorkItem) : State :=
  let t := s.itemWritten sid o x
  let last := (setItem (s.opRun sid o.index).items { x with finished := true }).all (fun y => y.finished)
  let t := if last then (t.finish sid o 0).engineRound sid o.cls
    else if o.cls = 0x0D then t
    else t.engineRound sid o.cls
  if o.cls = 0x0D ∧ last then
    { t with mem := { t.mem with farOps := t.mem.farOps.filter (fun f => !(f.1 == sid && f.2.1 == o.index)) } }
  else t

section
variable (s : State) (sid : Nat) (o : Op) (x : WorkItem)

theorem State.itemDone_rest : (s.itemDone sid o x).rest = s.rest := by
  have hwritten : (s.itemWritten sid o x).rest = s.rest :=
    (State.setOp_rest _ _ _ _).trans (State.rest_of_still (s.writeItem_still sid o x.index))
  have hmem (t : State) (m : MemState) : ({ t with mem := m } : State).rest = t.rest := State.rest_of_still (t.still_withMem m)
  simp only [State.itemDone]
  split_ifs <;> simp only [hmem, State.engineRound_rest, State.finish_rest, hwritten]

variable {s sid o x} (hs : (s.slot sid).phase = .opened) (hr : (s.opRun sid o.index).phase = .running)
include hs hr

theorem State.itemWritten_opAt : (s.itemWritten sid o x).OpAt sid o.index
    (setItem (s.opRun sid o.index).items { x with finished := true }) .running := by
  have hstill := s.writeItem_still sid o x.index
  have hrun := State.opRun_of_still hstill sid o.index
  have hslot : ((s.writeItem sid o x.index).1.slot sid).phase = .opened := by
    rw [State.slot, State.slots_of_still hstill]; exact hs
  have hat := State.OpAt.setOp hslot (op := o.index)
    (r := { (s.writeItem sid o x.index).1.opRun sid o.index with
      items := setItem ((s.writeItem sid o x.index).1.opRun sid o.index).items { x with finished := true },
      flags := Nat.lor ((s.writeItem sid o x.index).1.opRun sid o.index).flags (Nat.lor (s.writeItem sid o x.index).2
        (flagBit (o.cls == 0x0D && s.mem.farOps.contains (sid, o.index, true)) 0)) }) (by rw [hrun, hr]; decide)
  exact ⟨hat.slot, hat.items.trans (by rw [hrun]), hat.phase.trans (by rw [hrun, hr])⟩

theorem State.itemDone_shows (htaken : x.taken = true) : (s.itemDone sid o x).OpShows sid o.index
    (if (setItem (s.opRun sid o.index).items { x with finished := true }).all (fun y => y.finished) then .computed else .running)
    (ItemDone x.index) := by
  have hat := State.itemWritten_opAt (x := x) hs hr
  have hdone := itemDone_setItem (s.opRun sid o.index).items htaken
  have hshow {t : State} {p : OpPhase} (h : t.OpAt sid o.index (setItem (s.opRun sid o.index).items { x with finished := true }) p) :
      t.OpShows sid o.index p (ItemDone x.index) := ⟨h.slot, h.phase, h.items.symm ▸ hdone⟩
  have hmem {t : State} {p : OpPhase} (m : MemState) (h : t.OpShows sid o.index p (ItemDone x.index)) :
      ({ t with mem := m } : State).OpShows sid o.index p (ItemDone x.index) := h.of_still (t.still_withMem m)
  have hkept := keptByTakes_itemDone x.index
  have hend := State.OpShows.engineRound (p := .computed) nofun hkept (hshow (hat.finish 0)) o.cls
  have hgoes := State.OpShows.engineRound (p := .running) nofun hkept (hshow hat) o.cls
  simp only [State.itemDone]
  cases (setItem (s.opRun sid o.index).items { x with finished := true }).all (fun y => y.finished) with
  | true =>
    simp only [if_true, and_true]
    split
    · exact hmem _ hend
    · exact hend
  | false =>
    simp only [Bool.false_eq_true, if_false, and_false]
    split
    · exact hshow hat
    · exact hgoes

end

/-- A run of which an item is executed again. -/
def OpRun.redo (r : OpRun) (x : WorkItem) : OpRun :=
  { r with items := setItem r.items { x with retried := true }, flags := Nat.lor r.flags 1, reexec := r.reexec + 1 }

/-! ## ENG_SVC -/

/-- The register ENG_SVC. -/
def engSvcRow : RegRow := { off := 0x040, writer := .firmware, fields :=
  [fRw 43 42 3 1, fRw 41 40 3 1, fRw 39 36 0xF 1, fRw 35 32 0xF 1, fRw 31 24 0xFF 1, fRw 23 16 0xFF 1, fRw 15 0 0xFFFF 1] }

theorem rowOf_engSvc {die : Nat} (h : die < 48) : rowOf die 0x0D 0x040 = some engSvcRow := by
  have hblk : blockType die 0x0D = some 0x05 := by simp [blockType, h]
  rw [rowOf, hblk]
  rfl

/-- An accepted write keeps each field within its range. -/
theorem State.rangeBad_of_checkWrite {s : State} {p : Path} {die blk off : Nat} {v : Word} {r : RegRow}
    (hrow : rowOf die blk off = some r) (h : s.checkWrite p die blk off v = none) : rangeBad r v = false := by
  rw [State.checkWrite, hrow] at h
  dsimp only at h
  split_ifs at h with h1 h2 h3 h4 h5
  simpa using h4

/-- An accepted value of ENG_SVC keeps an engine of each kind. -/
theorem State.engines_of_checkWrite {s : State} {p : Path} {die : Nat} {v : Word} (hdie : die < 48)
    (h : s.checkWrite p die 0x0D 0x040 v = none) :
    [(15, 0), (23, 16), (31, 24), (35, 32), (39, 36), (41, 40), (43, 42)].all (fun f => fld v f.1 f.2 != 0) = true := by
  have hrange := State.rangeBad_of_checkWrite (rowOf_engSvc hdie) h
  simp [rangeBad, engSvcRow, fRw] at hrange
  simp
  omega

/-- Settles O23. -/
theorem enginesComplete : Obligations.EnginesComplete := by
  refine ⟨fun s sid op item e o x hsid hlive hindex hxrep hfar hrun hfind => ?_, fun s p die v hdie hgone => ?_⟩
  · subst hindex
    have hexec (d : Bool) : exec (.engineItemComplete sid o.index item e d) s = .next (engineItemComplete sid o.index item e d s) :=
      onUnit_pos (decide_eq_true hsid) _
    have hopen := State.phase_of_liveOp hlive
    have hx : x.index = item ∧ x.taken = true := by
      have := List.find?_some hfind
      simp only [Bool.and_eq_true, beq_iff_eq] at this
      exact ⟨this.1.1.1, this.1.1.2⟩
    obtain ⟨rfl, htaken⟩ := hx
    refine ⟨⟨s.itemDone sid o x, exec_of_eq (hexec false) ?_, ?_⟩, fun hretried => ?_⟩
    · have hnot : ¬ (o.cls = 0x0D ∧ s.mem.farLost.contains o.farPort = true) := fun h => by
        have := hfar h.1; rw [h.2] at this; cases this
      have hsame : (s.writeItem sid o x.index).1.opRun sid o.index = s.opRun sid o.index :=
        State.opRun_of_still (s.writeItem_still sid o x.index) sid o.index
      rw [engineItemComplete, hlive]
      dsimp only
      rw [if_neg (fun h => h hrun), hfind]
      dsimp only
      rw [if_neg Bool.false_ne_true, if_neg hnot, hxrep, if_neg Bool.false_ne_true, State.itemDone, State.itemWritten]
      simp only [hsame]
    · have hshows := State.itemDone_shows (x := x) hopen hrun htaken
      have hrest := s.itemDone_rest sid o x
      refine ⟨fun y hy hindex => (hshows.items y hy hindex).2, ?_, State.ldg_of_rest hrest, State.sent_of_rest hrest,
        State.plan_of_rest hrest⟩
      rw [hshows.phase, ← all_finished_setItem]
      split
      · next h => simp [h]
      · next h => simp [h]
    · have hset : (s.setOp sid o.index ((s.opRun sid o.index).redo x)).opRun sid o.index = (s.opRun sid o.index).redo x :=
        State.opRun_setOp_of_liveOp hlive fun h => by
          have hphase := congrArg OpRun.phase h
          rw [show ((s.opRun sid o.index).redo x).phase = _ from hrun] at hphase
          cases hphase
      have hgoes : engineItemComplete sid o.index x.index e true s =
          if sid < 48 then (s.setOp sid o.index ((s.opRun sid o.index).redo x)).bump (s.slotDie sid) 0x0D 0xC40
          else s.setOp sid o.index ((s.opRun sid o.index).redo x) := by
        rw [engineItemComplete, hlive]
        dsimp only
        rw [if_neg (fun h => h hrun), hfind]
        dsimp only
        rw [if_pos rfl, hretried, if_neg Bool.false_ne_true]
        rfl
      refine ⟨_, exec_of_eq (hexec true) hgoes, ?_⟩
      split
      · exact ⟨(State.opRun_of_still (State.bump_still _ _ _ _ _) _ _).trans hset, State.bump_mem _ _ _ _ _, State.bump_units _ _ _ _ _⟩
      · exact ⟨hset, State.setOp_mem _ _ _ _, State.setOp_units _ _ _ _⟩
  · have hexec (q : Path) : exec (.engSvcWrite q die v) s = .next (engSvcWrite q die v s) :=
      (onUnit_pos (decide_eq_true hdie) _).trans (congrArg _ (if_neg (by simp [hgone])))
    refine ⟨fun hok hslot => ?_, fun hbad hempty => ?_, fun hp r hbad => ?_⟩
    · have hall := State.engines_of_checkWrite hdie hok
      refine ⟨fun f hf => by simpa using List.all_eq_true.mp hall f hf, exec_of_eq (hexec p) ?_⟩
      have hany : [3, 4, 5, 6, 7, 8, 9].any (fun c => fld v (svcField c).1 (svcField c).2 == 0) = false := by
        simp at hall
        simp [svcField, hall]
      rw [engSvcWrite, hok]
      dsimp only
      rw [hany, if_neg Bool.false_ne_true, hslot]
    · have hany : [3, 4, 5, 6, 7, 8, 9].any (fun c => fld v (svcField c).1 (svcField c).2 == 0) = true := by
        simp [svcField]
        simpa using hempty
      refine exec_of_eq (hexec .firmware) ?_
      rw [engSvcWrite, hbad]
      dsimp only
      rw [if_pos ⟨rfl, rfl, hany⟩]
    · refine exec_of_eq (hexec p) ?_
      rw [engSvcWrite, hbad]
      dsimp only
      rw [if_neg (fun h => hp h.2.1)]

/-! ## Transfers -/

/-- A far-tier op that has started: its items are all in flight. -/
def State.farStarted (s : State) (sid op : Nat) (o : Op) : State :=
  let t := s.started sid o
  let u := t.setOp sid op { t.opRun sid op with items := t.dealt sid o }
  { u with mem := { u.mem with farOps := u.mem.farOps ++ [(sid, op, false)] } }

theorem State.dealt_far (s : State) (sid : Nat) {o : Op} (h : o.cls = 0x0D) :
    (s.dealt sid o).length = o.itemCount ∧ (s.dealt sid o).all (fun x => x.taken && !x.finished) = true := by
  simp [State.dealt, h]

section
variable {s : State} {sid op code : Nat} {o : Op} (h : s.Ready sid op 0x0D code o)
include h

theorem State.Ready.dealt_opAt :
    ((s.started sid o).setOp sid op { (s.started sid o).opRun sid op with items := (s.started sid o).dealt sid o }).OpAt sid op
      ((s.started sid o).dealt sid o) .running := by
  have hrun : ((s.started sid o).opRun sid op).phase = .running := by rw [h.opRun_started]
  have hat := State.OpAt.setOp (op := op) h.phase_started (r := { (s.started sid o).opRun sid op with
    items := (s.started sid o).dealt sid o }) (by rw [hrun]; decide)
  exact ⟨hat.slot, hat.items, hat.phase.trans hrun⟩

theorem State.Ready.farStart_eq (hport : (s.started sid o).mem.farLost.contains o.farPort = false) :
    farStart sid op code s = s.farStarted sid op o := by
  have hcls := State.cls_of_opOf h.here
  have hstart : engineStart sid op 0x0D code s = (s.started sid o).setOp sid op
      { (s.started sid o).opRun sid op with items := (s.started sid o).dealt sid o } := by
    have hindex := h.index
    simp only [engineStart, h.here, h.begin_eq, State.deal, if_pos hcls, if_true]
    subst hindex
    rfl
  have hwaiting : (s.opRun sid op).started = false := by simp [OpRun.started, h.waiting]
  have hgoes : (((s.started sid o).setOp sid op { (s.started sid o).opRun sid op with
      items := (s.started sid o).dealt sid o }).opRun sid op).started = true := by
    simp [OpRun.started, h.dealt_opAt.phase]
  rw [farStart, h.here]
  dsimp only
  rw [hstart, hwaiting, hgoes, if_neg (by simp), State.setOp_mem, hport, if_neg Bool.false_ne_true]
  rfl

end

/-- Settles O24: a start, and then what the transfer sends. -/
theorem transfersStart : Obligations.TransfersStart := by
  intro s sid op o hsid
  refine ⟨fun h => ?_, fun h => ?_, fun c code hc h hport => ?_⟩
  · intro t hdefer
    refine exec_of_eq (onUnit_pos (decide_eq_true hsid) _) ?_
    rw [Machine.put, h.here]
    dsimp only
    rw [h.begin_eq]
    dsimp only
    rw [hdefer]
    rfl
  · refine exec_of_eq (t := Machine.get sid op s) (onUnit_pos (decide_eq_true hsid) _) ?_
    rw [Machine.get, h.here]
    dsimp only
    rw [h.begin_eq]
    rfl
  · have hexec : exec c s = .next (farStart sid op code s) := by
      simp only [List.mem_cons, Prod.mk.injEq, List.not_mem_nil, or_false] at hc
      obtain ⟨rfl, rfl⟩ | ⟨rfl, rfl⟩ := hc <;> exact onUnit_pos (decide_eq_true hsid) _
    have hat : (s.farStarted sid op o).OpAt sid op _ _ := h.dealt_opAt.of_still (State.still_withMem _ _)
    have hfar := (s.started sid o).dealt_far sid (State.cls_of_opOf h.here)
    exact ⟨_, exec_of_eq hexec (h.farStart_eq hport), hat.phase, hat.items ▸ hfar.1, hat.items ▸ hfar.2, rfl⟩

/-! ## RESLICE -/

theorem forN_congr {f g : Nat → State → State} (h : ∀ i v, f i v = g i v) (n : Nat) (s : State) : forN n f s = forN n g s :=
  congrArg (forN n · s) (funext fun i => funext (h i))

theorem State.finish_resliced_congr {w u : State} {used : List Nat} {sid : Nat} {o : Op} (h : w = u) :
    (w.resliced used).finish sid o 0 = (u.resliced used).finish sid o 0 := h ▸ rfl

/-- The tiles of the destination in the order of its grid. -/
def State.resliceTiles (t : State) (o : Op) : List (Option (ResliceSrc × Nat × List Byte)) :=
  let d := (o.opnd 0).shape
  let grid := (List.range (shBatch d)).flatMap (fun b => (List.range (cdiv (shRows d) 32)).flatMap (fun r =>
    (List.range (shTc d)).map (fun c => (b, r, c))))
  grid.map (fun g => t.resliceTile o (t.resliceSrcs o) g.1 g.2.1 g.2.2)

/-- The tile of a place copied there, when an ingot supplies it. -/
def State.tileCopied (t : State) (sid : Nat) (o : Op) (i : Nat) (v : State) : State :=
  ((t.resliceTiles o).getD i none).elim v fun x => v.writeLoc
    ((v.resolve (t.slotDie sid) (t.slot sid).step (o.opnd 0).addr).add (i * tileBytes (shFmt (o.opnd 0).shape))) x.2.2

/-- All tiles copied, and the hallmarks of the destination written with tag step M. -/
def State.tilesCopied (t : State) (sid : Nat) (o : Op) : State :=
  let u := forN (t.resliceTiles o).length (t.tileCopied sid o) t
  (findTensor (u.tensors sid false) (o.opnd 0).addr (o.bytes 0)).elim u fun x =>
    forEach (x.touched (aPlain (o.opnd 0).addr) (o.bytes 0))
      (fun i v => v.tileSeal (t.slotDie sid) (t.slot sid).step x (ppOf (o.opnd 0).addr) i (wordStep (o.pword 2))) u

/-- Settles O25: RESLICE starts, looks for a source tile that fails, and copies when there is none. The copy of the model and
that of the statement are compared by the two parts of `State.tilesCopied`. -/
theorem resliceCopies : Obligations.ResliceCopies := by
  intro s sid op o hsid h
  have hexec : exec (.reslice sid op) s = .next (reslice sid op s) := onUnit_pos (decide_eq_true hsid) _
  refine ⟨fun hgood => exec_of_eq hexec ?_, fun pa hbad => exec_of_eq hexec ?_⟩
  · rw [reslice, h.here]
    dsimp only
    rw [h.begin_eq, if_neg (by simp)]
    dsimp only
    split
    · next pa hx => cases hgood.symm.trans hx
    · refine State.finish_resliced_congr ?_
      refine Eq.trans (b := (s.started sid o).tilesCopied sid o) ?_ (Eq.symm ?_)
      all_goals
        rw [forN_congr (g := (s.started sid o).tileCopied sid o), State.tilesCopied, State.resliceTiles]
        · generalize forN _ ((s.started sid o).tileCopied sid o) _ = u
          cases findTensor (u.tensors sid false) (o.opnd 0).addr (o.bytes 0) <;> rfl
        · intro i v
          rw [State.tileCopied, State.resliceTiles]
          generalize List.getD _ i none = x
          cases x <;> rfl
  · rw [reslice, h.here]
    dsimp only
    rw [h.begin_eq, if_neg (by simp)]
    dsimp only
    split
    · next q hx =>
      cases hbad.symm.trans hx
      rfl
    · next hx => cases hbad.symm.trans hx

end Sys2Proof.Machine
end

section
/-!
PROOFS. The instructions of strands (R63, R156 to R159, R162).
-/
namespace Sys2Proof.Machine

/-- What an instruction writes: its result to DST, and its flags to those of the strand. -/
def State.putStrand (s : State) (core n d : Nat) (r : FRes) : State :=
  let x := s.strand (core * 8192 + n)
  s.setStrand (core * 8192 + n) { x.setReg d r.val with flags := Nat.lor x.flags r.bits }

theorem strandInstr_eq (opc core n d a b c : Nat) (s : State) : strandInstr opc core n d a b c s =
    s.putStrand core n d (vinstr opc ((s.strand (core * 8192 + n)).reg a) ((s.strand (core * 8192 + n)).reg b)
      ((s.strand (core * 8192 + n)).reg c)) := rfl

theorem strandOk_iff {core n : Nat} {rs : List Nat} : strandOk core n rs = true ↔ core < 192 ∧ n < 8192 ∧ ∀ r ∈ rs, r < 16 := by
  simp [strandOk, and_assoc]

/-! ## Results -/

theorem bits_ofPair (p : Word × Bool) : (ofPair p).bits = flagBit p.2 0 := Nat.zero_add _

theorem maxW_of_num {a b : Word} (ha : isNan64 a = false) (hb : isNan64 b = false) :
    maxW a b = if ordKey b ≤ ordKey a then a else b := by
  rw [maxW, ha, hb, Bool.or_self, if_neg Bool.false_ne_true]
  by_cases h : ordKey b ≤ ordKey a
  · rw [if_pos h, if_neg (by omega)]
  · rw [if_neg h, if_pos (by omega)]

theorem minW_of_num {a b : Word} (ha : isNan64 a = false) (hb : isNan64 b = false) :
    minW a b = if ordKey a ≤ ordKey b then a else b := by
  rw [minW, ha, hb, Bool.or_self, if_neg Bool.false_ne_true]
  by_cases h : ordKey a ≤ ordKey b
  · rw [if_pos h, if_neg (by omega)]
  · rw [if_neg h, if_pos (by omega)]

theorem cmpW_eq (f : Int → Int → Bool) (a b : Word) :
    cmpW f a b = if isNan64 a || isNan64 b then 0 else if f (cmpKey a) (cmpKey b) then one64 else 0 := by
  cases ha : isNan64 a <;> cases hb : isNan64 b <;> simp [cmpW, boolW, ha, hb]

/-- Settles O26: every instruction puts its result, and the result is the model's by definition but for the wording of the
comparisons, of MAX and MIN, and of the flags. -/
theorem strandInstructionsComplete : Obligations.StrandInstructionsComplete := by
  intro s core n d a b c seq hcore hn hd ha hb hc k x va vb vc put fn cmp
  have ok3 : strandOk core n [d, a, b] = true := strandOk_iff.mpr ⟨hcore, hn, by simp [hd, ha, hb]⟩
  have ok4 : strandOk core n [d, a, b, c] = true := strandOk_iff.mpr ⟨hcore, hn, by simp [hd, ha, hb, hc]⟩
  have ok2 : strandOk core n [d, a] = true := strandOk_iff.mpr ⟨hcore, hn, by simp [hd, ha]⟩
  have ok1 : strandOk core n [d] = true := strandOk_iff.mpr ⟨hcore, hn, by simp [hd]⟩
  have hpair (p : Word × Bool) : s.putStrand core n d (ofPair p) = put p.1 (flagBit p.2 0) := by
    rw [State.putStrand, bits_ofPair]; rfl
  have hword (w : Word) : s.putStrand core n d (ofWord w) = put w 0 := rfl
  have hcmp (f : Int → Int → Bool) : s.putStrand core n d (ofWord (cmpW f va vb)) = put (cmp f) 0 := by
    rw [cmpW_eq]; rfl
  refine ⟨exec_of_eq (onUnit_pos ok3 _) (hpair _), exec_of_eq (onUnit_pos ok3 _) (hpair _), exec_of_eq (onUnit_pos ok3 _) (hpair _),
    exec_of_eq (onUnit_pos ok4 _) (hpair _), onUnit_pos ok3 _, onUnit_pos ok2 _, onUnit_pos ok2 _, fun hnan => ?_, fun hnan => ?_,
    fun hna hnb => ⟨?_, ?_⟩, exec_of_eq (onUnit_pos ok3 _) (hcmp _), exec_of_eq (onUnit_pos ok3 _) (hcmp _),
    exec_of_eq (onUnit_pos ok3 _) (hcmp _), ?_, onUnit_pos ok2 _, onUnit_pos ok2 _, onUnit_pos ok2 _, onUnit_pos ok2 _,
    onUnit_pos ok2 _, onUnit_pos ok2 _, onUnit_pos ok2 _, onUnit_pos ok2 _, fun hnan => ?_, onUnit_pos ok1 _⟩
  · refine exec_of_eq (onUnit_pos ok2 _) ?_
    rw [strandInstr_eq, show vinstr 0x08 va _ _ = ofWord (neg64 va) from congrArg ofWord (if_neg (by simp [hnan]))]
    rfl
  · refine exec_of_eq (onUnit_pos ok2 _) ?_
    rw [strandInstr_eq, show vinstr 0x09 va _ _ = ofWord (va &&& 0x7FFF_FFFF_FFFF_FFFF) from congrArg ofWord (if_neg (by simp [hnan]))]
    rfl
  · exact exec_of_eq (onUnit_pos ok3 _) ((congrArg (fun w => s.putStrand core n d (ofWord w)) (maxW_of_num hna hnb)).trans (hword _))
  · exact exec_of_eq (onUnit_pos ok3 _) ((congrArg (fun w => s.putStrand core n d (ofWord w)) (minW_of_num hna hnb)).trans (hword _))
  · have hsel : movW (if !isNan64 vc && cmpKey vc != 0 then va else vb) =
        (let v := if isNan64 vc = false ∧ cmpKey vc ≠ 0 then va else vb; if isNan64 v then nan64 else v) := by
      rw [movW]
      simp
    exact exec_of_eq (onUnit_pos ok4 _) ((congrArg (fun w => s.putStrand core n d (ofWord w)) hsel).trans (hword _))
  · refine exec_of_eq (onUnit_pos ok2 _) ?_
    rw [strandInstr_eq, show vinstr 0x19 va _ _ = ofWord va from congrArg ofWord (if_neg (by simp [hnan]))]
    rfl

/-! ## What an instruction leaves alone, and NaN -/

theorem listSet_getD {l : List Word} {i : Nat} (v : Word) (h : i < l.length) : (listSet l i v).getD i 0 = v := by
  simp [listSet, List.getD, h]

theorem listSet_getD_ne (l : List Word) {i j : Nat} (v : Word) (h : j ≠ i) : (listSet l i v).getD j 0 = l.getD j 0 := by
  simp [listSet, List.getD, Ne.symm h]

theorem Strand.reg_setReg (x : Strand) {d : Nat} (hd : d < 16) (v : Word) : (x.setReg d v).reg d = v :=
  listSet_getD v (by simp; omega)

theorem Strand.reg_setReg_ne (x : Strand) {d j : Nat} (v : Word) (h : j ≠ d) : (x.setReg d v).reg j = x.reg j := by
  refine (listSet_getD_ne _ v h).trans ?_
  simp only [Strand.reg, List.getD, List.getElem?_append]
  split
  · rfl
  · next hlt =>
    rw [List.getElem?_eq_none (l := x.regs) (by omega), List.getElem?_replicate]
    split <;> rfl

/-- A strand with a register written is not the empty one. -/
theorem Strand.setReg_ne (x : Strand) (d : Nat) (v : Word) (f : Nat) : ({ x.setReg d v with flags := f } : Strand) ≠ strandDflt 0 := by
  intro h
  have hlen : 16 ≤ (x.setReg d v).regs.length := by simp [Strand.setReg, listSet]; omega
  have hnil : (x.setReg d v).regs = [] := congrArg Strand.regs h
  rw [hnil] at hlen
  exact absurd hlen (by decide)

/-- A strand written reads as written. -/
theorem State.strand_setStrand_reg (s : State) (k d : Nat) (v : Word) (f : Nat) (x : Strand) :
    (s.setStrand k { x.setReg d v with flags := f }).strand k = { x.setReg d v with flags := f } :=
  SMap.get_set_new (x.setReg_ne d v f)

/-- The state behind a strand's instruction differs from the one before in that strand alone, and there in DST and flags. -/
structure StrandStep (s t : State) (core n d : Nat) (v : Word) : Prop where
  inRange : d < 16
  result : (t.strand (core * 8192 + n)).reg d = v
  others : ∀ k, k ≠ core * 8192 + n → t.strand k = s.strand k
  regs : ∀ j, j ≠ d → (t.strand (core * 8192 + n)).reg j = (s.strand (core * 8192 + n)).reg j
  row : (t.strand (core * 8192 + n)).row = (s.strand (core * 8192 + n)).row
  col : (t.strand (core * 8192 + n)).col = (s.strand (core * 8192 + n)).col
  frame : { t with units := { t.units with strands := s.units.strands } } = s

theorem strandStep_set (s : State) (core n : Nat) {d : Nat} (hd : d < 16) (v : Word) (f : Nat) :
    StrandStep s (s.setStrand (core * 8192 + n) { (s.strand (core * 8192 + n)).setReg d v with flags := f }) core n d v := by
  have hread := s.strand_setStrand_reg (core * 8192 + n) d v f (s.strand (core * 8192 + n))
  refine ⟨hd, ?_, fun k hk => State.strand_setStrand_ne s _ hk, fun j hj => ?_, ?_, ?_, rfl⟩
  · rw [hread]; exact Strand.reg_setReg _ hd v
  · rw [hread]; exact Strand.reg_setReg_ne _ v hj
  · rw [hread]; rfl
  · rw [hread]; rfl

/-- An instruction that takes effect makes such a step. -/
theorem strandStep_of_exec {s t : State} {core n d : Nat} {rs : List Nat} {opc a b c : Nat}
    (h : onUnit (strandOk core n (d :: rs)) (strandInstr opc core n d a b c s) = .next t) :
    StrandStep s t core n d (vinstr opc ((s.strand (core * 8192 + n)).reg a) ((s.strand (core * 8192 + n)).reg b)
      ((s.strand (core * 8192 + n)).reg c)).val := by
  cases hok : strandOk core n (d :: rs) with
  | true =>
    rw [onUnit_pos hok] at h
    cases h
    exact strandStep_set s core n ((strandOk_iff.mp hok).2.2 d (by simp)) _ _
  | false =>
    rw [hok] at h
    cases h

theorem strandStep_of_rand {s t : State} {core n d seq : Nat} (h : exec (.rand core n d seq) s = .next t) :
    ∃ v, StrandStep s t core n d v := by
  cases hok : strandOk core n [d] with
  | true =>
    rw [show exec (.rand core n d seq) s = _ from onUnit_pos hok _] at h
    cases h
    exact ⟨_, strandStep_set s core n ((strandOk_iff.mp hok).2.2 d (by simp)) _ _⟩
  | false =>
    rw [show exec (.rand core n d seq) s = onUnit false _ from congrArg (onUnit · _) hok] at h
    cases h

theorem val64_of_isNan {a : Word} (h : isNan64 a = true) : val64 a = .nan := by simpa [isNan64] using h

theorem add64f_nan {a b : Word} (h : val64 a = .nan ∨ val64 b = .nan) : (add64f a b).1 = nan64 := by
  obtain h | h := h
  · simp [add64f, h]
  · cases ha : val64 a <;> simp [add64f, h, ha]

theorem mul64f_nan {a b : Word} (h : val64 a = .nan ∨ val64 b = .nan) : (mul64f a b).1 = nan64 := by
  obtain h | h := h
  · simp [mul64f, h]
  · cases ha : val64 a <;> simp [mul64f, h, ha]

/-- The exact sum with a NaN addend is NaN, whether the product is valid or not. -/
theorem fmaExact_nan (x y : FV) : ∃ i, fmaExact x y .nan = .nan i := by
  cases x with
  | nan => exact ⟨false, rfl⟩
  | inf n => 
    cases y with
    | nan | inf => exact ⟨false, rfl⟩
    | fin n m e => by_cases hm : m = 0 <;> simp [fmaExact, hm, fmaExact.addInf]
  | fin n m e =>
    cases y with
    | nan | fin => exact ⟨false, rfl⟩
    | inf => by_cases hm : m = 0 <;> simp [fmaExact, hm, fmaExact.addInf]

/-- Two-operand arithmetic, MAX and MIN give the canonical NaN for a NaN operand. -/
theorem vinstr_nan_two {opc : Nat} (h : opc ∈ [0x01, 0x02, 0x03, 0x05, 0x0A, 0x0B]) {a b : Word} (c : Word)
    (hnan : isNan64 a = true ∨ isNan64 b = true) : (vinstr opc a b c).val = nan64 := by
  have hval : val64 a = .nan ∨ val64 b = .nan := hnan.imp val64_of_isNan val64_of_isNan
  simp only [List.mem_cons, List.not_mem_nil, or_false] at h
  obtain rfl | rfl | rfl | rfl | rfl | rfl := h
  · show (add64f a b).1 = nan64
    exact add64f_nan hval
  · show (sub64f a b).1 = nan64
    rw [sub64f]
    split
    · rfl
    · next hb => exact add64f_nan (.inl (val64_of_isNan (hnan.resolve_right hb)))
  · show (mul64f a b).1 = nan64
    exact mul64f_nan hval
  · show (div64 a b).val = nan64
    obtain h | h := hval
    · simp [div64, h]
    · cases ha : val64 a <;> simp [div64, h, ha]
  · exact if_pos (by simpa using hnan)
  · exact if_pos (by simpa using hnan)

theorem vinstr_nan_fma {a b c : Word} (hnan : isNan64 a = true ∨ isNan64 b = true ∨ isNan64 c = true) :
    (vinstr 0x04 a b c).val = nan64 := by
  show (fma64f a b c).1 = nan64
  have hexact : ∃ i, fmaExact (val64 a) (val64 b) (val64 c) = .nan i := by
    obtain h | h | h := hnan
    · exact ⟨false, by simp [fmaExact, val64_of_isNan h]⟩
    · exact ⟨false, by cases val64 a <;> simp [fmaExact, val64_of_isNan h]⟩
    · rw [val64_of_isNan h]
      exact fmaExact_nan _ _
  obtain ⟨i, hi⟩ := hexact
  rw [fma64f, hi]

/-- One-operand instructions give the canonical NaN for a NaN operand. -/
theorem vinstr_nan_one {opc : Nat} (h : opc ∈ [0x06, 0x07, 0x08, 0x09, 0x10, 0x11, 0x12, 0x13, 0x14, 0x15, 0x16, 0x17, 0x19])
    {a : Word} (b c : Word) (hnan : isNan64 a = true) : (vinstr opc a b c).val = nan64 := by
  have hval := val64_of_isNan hnan
  simp only [List.mem_cons, List.not_mem_nil, or_false] at h
  obtain rfl | rfl | rfl | rfl | rfl | rfl | rfl | rfl | rfl | rfl | rfl | rfl | rfl := h
  · simp [vinstr, sqrt64, hval]
  · simp [vinstr, rsqrt64, hval]
  · exact if_pos hnan
  · exact if_pos hnan
  · simp [vinstr, exp64, hval]
  · simp [vinstr, expm164, hval]
  · simp [vinstr, log64, hval]
  · simp [vinstr, log1p64, hval]
  · simp [vinstr, tanh64, hval]
  · simp [vinstr, sigmoid64, hval]
  · simp [vinstr, erf64, hval]
  · show (mul64f (mul64f _ a).1 _).1 = nan64
    rw [mul64f_nan (.inr hval)]
    exact mul64f_nan (.inl (by decide))
  · exact if_pos hnan

/-- Settles O27. -/
theorem strandNanAndFrame : Obligations.StrandNanAndFrame := by
  refine ⟨fun s t core n d a b c _ _ _ _ _ _ => ⟨fun hnan i hi h => ?_, fun hnan h => ?_, fun hnan i hi h => ?_⟩,
    fun s t core n d a b c seq i hi h => ?_⟩
  · simp only [List.mem_cons, List.not_mem_nil, or_false] at hi
    obtain rfl | rfl | rfl | rfl | rfl | rfl := hi <;>
      exact (strandStep_of_exec h).result.trans (vinstr_nan_two (by decide) _ hnan)
  · exact (strandStep_of_exec h).result.trans (vinstr_nan_fma hnan)
  · simp only [List.mem_cons, List.not_mem_nil, or_false] at hi
    obtain rfl | rfl | rfl | rfl | rfl | rfl | rfl | rfl | rfl | rfl | rfl | rfl | rfl := hi <;>
      exact (strandStep_of_exec h).result.trans (vinstr_nan_one (by decide) _ _ hnan)
  · have hstep : ∃ v, StrandStep s t core n d v := by
      simp only [List.mem_cons, List.not_mem_nil, or_false] at hi
      obtain rfl | rfl | rfl | rfl | rfl | rfl | rfl | rfl | rfl | rfl | rfl | rfl | rfl | rfl | rfl | rfl | rfl | rfl | rfl |
        rfl | rfl | rfl | rfl | rfl | rfl := hi
      iterate 24 exact ⟨_, strandStep_of_exec h⟩
      exact strandStep_of_rand h
    obtain ⟨v, hstep⟩ := hstep
    exact ⟨hstep.others, hstep.regs, hstep.row, hstep.col, hstep.frame⟩

end Sys2Proof.Machine
end

section
/-!
PROOFS. Step boundaries (R42, R332, R430, R431), waits and suspects (R41, R271, R272, R403).
-/
namespace Sys2Proof.Machine

/-! ## STEP_OPEN -/

theorem exec_stepOpen {sid : Nat} (h : sid < 60) (s : State) : exec (.stepOpen sid) s = .next (stepOpen sid s) :=
  onUnit_pos (decide_eq_true h) _

/-- A slot that may act, with its step in the window, its swap announced, its image there and not being loaded again: it opens
if it may, and is refitted otherwise. -/
theorem stepOpen_eq {s : State} {sid : Nat} (hready : s.slotReady sid = true)
    (hwindow : s.opensAgain sid = true ∨ s.windowOpen (s.nextStep sid) = true ∨ s.ckp.restoring = 2)
    (hswap : s.opensAgain sid = true ∨ s.swapUnannounced (s.nextStep sid) = false)
    (himage : (s.swapDue (s.nextStep sid)).isSome = true ∨ s.genHeld (s.nextGen sid) = true)
    (hreload : (s.plan.reload.contains sid && s.plan.reloadGen == s.nextGen sid) = false) :
    stepOpen sid s =
      let g := s.nextGen sid
      let t := if s.opensAgain sid = true then s else s.boundary sid (s.nextStep sid)
      if t.openable sid g (s.opensAgain sid) = true then
        (let c := ((t.atBin sid g).withGen sid g).checkAllFrozen sid (s.nextStep sid)
         if c.2 = true then c.1.enterStep sid g (s.nextStep sid) else c.1)
      else t.refit sid g := by
  have hwindow' : ¬ (!s.opensAgain sid && !s.windowOpen (s.nextStep sid) && s.ckp.restoring != 2) = true := by
    rcases hwindow with h | h | h <;> simp [h]
  have hswap' : ¬ (!s.opensAgain sid && s.swapUnannounced (s.nextStep sid)) = true := by
    rcases hswap with h | h <;> simp [h]
  have himage' : ¬ (!(s.swapDue (s.nextStep sid)).isSome && !s.genHeld (s.nextGen sid)) = true := by
    rcases himage with h | h <;> simp [h]
  simp only [stepOpen]
  rw [if_neg (by simp [hready]), if_neg hwindow', if_neg hswap', if_neg himage',
    if_neg (fun h => Bool.false_ne_true (hreload.symm.trans h))]

/-- A slot opens in the state `t` at its boundary when nothing forbids it. -/
theorem State.openable_of {t : State} {sid g : Nat} {again : Bool} (hused : t.slotUsed sid = true)
    (halive : t.dieGone (t.slotDie sid) = false)
    (hbin : sid < 48 → t.dieBin (t.slotDie sid) = t.openBin sid g ∧ (t.atBin sid g).binAllowed (t.slotDie sid) (t.openBin sid g) = true)
    (hmove : again = true ∨ ((t.atBin sid g).slot sid).moveDue = false) : t.openable sid g again = true := by
  simp only [State.openable, hused, halive, Bool.not_false, Bool.and_true, Bool.true_and, Bool.and_eq_true, Bool.or_eq_true,
    decide_eq_true_eq, beq_iff_eq, Bool.not_eq_true']
  refine ⟨?_, hmove⟩
  by_cases h : sid < 48
  · exact .inr (hbin h)
  · exact .inl (by omega)

theorem State.newestOpened_recordOpen (s : State) (sid gen : Nat) (n : Step) : n ≤ (s.recordOpen sid gen n).ldg.newestOpened := by
  simp only [State.recordOpen]
  split
  · split
    · exact le_refl n
    · next h => exact Int.not_lt.mp h
  · split
    · exact le_refl n
    · next h => exact Int.not_lt.mp h

/-- Settles O28. -/
theorem stepOpens : Obligations.StepOpens := by
  intro s sid hsid n g again hready hwindow hswap himage hreload t die bin u hused halive hbin hmove c hgood
  have hopen : t.openable sid g again = true := State.openable_of hused halive hbin hmove
  refine ⟨exec_of_eq (exec_stepOpen hsid s) ?_, fun hnot => ⟨?_, State.newestOpened_recordOpen _ _ _ _⟩⟩
  · rw [stepOpen_eq hready hwindow hswap himage hreload]
    exact (if_pos hopen).trans (if_pos hgood)
  · simp only [State.enterStep, hnot, Bool.false_and, Bool.false_eq_true, if_false, and_true]

/-! ## Cores that declare their waits -/

theorem State.core_setCore_self (s : State) (c : Nat) {x : CoreState} (h : x ≠ {}) : (s.setCore c x).core c = x :=
  SMap.get_set_new h

theorem State.core_setCore_ne (s : State) {c k : Nat} (x : CoreState) (h : k ≠ c) : (s.setCore c x).core k = s.core k :=
  SMap.get_set_ne _ _ h

theorem State.bump_core (s : State) (die blk off n k : Nat) : (s.bump die blk off n).core k = s.core k :=
  congrArg (fun u : UnitState => SMap.get coreDflt u.cores k) (s.bump_units die blk off n)
theorem State.core_withFree (s : State) (n k : Nat) : ({ s with free := n } : State).core k = s.core k := (rfl)
theorem State.core_withLfsr (s : State) (m : SMap Nat) (k : Nat) :
    ({ s with units := { s.units with lfsr := m } } : State).core k = s.core k := (rfl)

theorem State.fillRows_core (s : State) (c k : Nat) : (s.fillRows c).core k = s.core k := by
  unfold State.fillRows
  rw [State.core_withFree, State.bump_core]
  exact forN_keeps (φ := (State.core · k)) (fun _ _ => by rw [State.bump_core, State.core_withLfsr]) 6 s

theorem State.stopFill_core_ne (s : State) {c k : Nat} (h : k ≠ c) : (s.stopFill c).core k = s.core k := by
  simp only [State.stopFill]
  split_ifs
  · rfl
  · rw [State.fillRows_core, State.core_setCore_ne _ _ h]
  · exact State.core_setCore_ne _ _ h

theorem State.declared_setDeclared (s : State) (c : Nat) : ((s.setDeclared c true).core c).declared = true :=
  congrArg CoreState.declared (State.core_setCore_self (s.stopFill c) c (x := { (s.stopFill c).core c with declared := true })
    (fun h => by cases congrArg CoreState.declared h))

theorem State.core_setDeclared_ne (s : State) {c k : Nat} (h : k ≠ c) : (s.setDeclared c true).core k = s.core k :=
  (State.core_setCore_ne (s.stopFill c) _ h).trans (s.stopFill_core_ne h)

/-- A die that declares its wait declares that of each of its cores. -/
theorem State.declared_declareDie (s : State) {die c : Nat} (hdie : die < 48) (hc : c < 4) :
    ((s.declareDie die true).core (4 * die + c)).declared = true := by
  have hloop (n : Nat) : c < n → ((forN n (fun c t => t.setDeclared (4 * die + c) true) s).core (4 * die + c)).declared = true := by
    induction n with
    | zero => nofun
    | succ n ih =>
      intro h
      have hstep : forN (n + 1) (fun c t => t.setDeclared (4 * die + c) true) s =
          (forN n (fun c t => t.setDeclared (4 * die + c) true) s).setDeclared (4 * die + n) true := by
        simp [forN, forEach, List.range_succ]
      rw [hstep]
      rcases Nat.lt_succ_iff_lt_or_eq.mp h with hlt | rfl
      · rw [State.core_setDeclared_ne _ (by omega)]
        exact ih hlt
      · exact State.declared_setDeclared _ _
  rw [State.declareDie, if_pos hdie]
  exact hloop 4 hc

/-! ## The arrays at a boundary move no bin -/

theorem State.setArray_pwr (s : State) (core a : Nat) (r : ArrayRec) : (s.setArray core a r).pwr = s.pwr := (rfl)
theorem State.setAryState_pwr (s : State) (core a v : Nat) : (s.setAryState core a v).pwr = s.pwr := (rfl)
theorem State.setPhys_pwr (s : State) (core l a : Nat) : (s.setPhys core l a).pwr = s.pwr := (rfl)

theorem State.moveSlot_pwr (s : State) (die : Nat) : (s.moveSlot die).pwr = s.pwr := by
  unfold State.moveSlot
  split <;> rfl

theorem State.dualLost_pwr (s : State) (core : Nat) : (s.dualLost core).pwr = s.pwr := by
  simp only [State.dualLost]
  split
  · exact s.moveSlot_pwr _
  · rfl

theorem State.mapBack_pwr (s : State) (core a : Nat) : (s.mapBack core a).pwr = s.pwr := by
  unfold State.mapBack
  split
  · split
    · rw [State.setArray_pwr, State.setAryState_pwr, State.setPhys_pwr]
    · rfl
  · rfl

theorem State.mapToStandby_pwr (s : State) (core a : Nat) : (s.mapToStandby core a).pwr = s.pwr := by
  unfold State.mapToStandby
  split
  · rfl
  · split
    · exact s.moveSlot_pwr _
    · rw [State.dualLost_pwr, State.setAryState_pwr, State.setPhys_pwr, State.setArray_pwr]

theorem State.excludeBin_bins (s : State) (die bin : Nat) : (s.excludeBin die bin).pwr.bins = s.pwr.bins := by
  simp only [State.excludeBin]
  split
  · split <;> rfl
  · rfl

theorem State.arraysAtBoundary_bins (s : State) (die bin : Nat) : (s.arraysAtBoundary die bin).pwr.bins = s.pwr.bins := by
  unfold State.arraysAtBoundary
  refine forN_keeps (φ := fun t => t.pwr.bins) (fun c t => ?_) 4 s
  dsimp only
  refine (forN_keeps (φ := fun t => t.pwr.bins) (fun a u => ?_) 6 _).trans
    (forN_keeps (φ := fun t => t.pwr.bins) (fun a u => ?_) 6 _)
  · split
    · split
      · rw [State.setArray_pwr, State.mapToStandby_pwr]
      · exact u.excludeBin_bins _ _
    · rfl
  · split
    · rw [State.mapBack_pwr]
    · rfl

theorem State.arraysAtBoundary_dieBin (s : State) (die bin d : Nat) : (s.arraysAtBoundary die bin).dieBin d = s.dieBin d :=
  congrArg (SMap.get (fun _ => 2) · d) (s.arraysAtBoundary_bins die bin)

/-- Settles O29. -/
theorem stepHoldsAtBoundary : Obligations.StepHoldsAtBoundary := by
  intro s sid hsid n die
  refine ⟨fun hready => exec_of_eq (exec_stepOpen hsid s) ?_, fun hready hfirst hrest hwait =>
    ⟨exec_of_eq (exec_stepOpen hsid s) ?_, fun _ hdie c hc => s.declared_declareDie hdie hc⟩,
    fun hready hagain himage => ⟨fun hreload => exec_of_eq (exec_stepOpen hsid s) ?_, fun hreload hcompute hbin =>
      exec_of_eq (exec_stepOpen hsid s) ?_⟩, fun d hd hslot hcompute hready => ?_⟩
  · exact if_pos (by simp [hready])
  · simp only [stepOpen, hready, hfirst, Bool.not_true, Bool.not_false, Bool.true_and, Bool.false_eq_true, if_false]
    rcases hwait with h | h
    · rw [if_pos (by simp [n] at h; simp [h, hrest])]
    · by_cases hw : (!s.windowOpen (s.nextStep sid) && s.ckp.restoring != 2) = true
      · rw [if_pos hw]
      · rw [if_neg hw, if_pos h]
  · have himage' : ¬ (!(s.swapDue (s.nextStep sid)).isSome && !s.genHeld (s.nextGen sid)) = true := by
      rcases himage with h | h
      · simp [show (s.swapDue (s.nextStep sid)).isSome = true from h]
      · simp [h]
    simp only [stepOpen, hready, hagain, Bool.not_true, Bool.false_and, Bool.false_eq_true, if_false]
    rw [if_neg himage', if_pos hreload]
  · rw [stepOpen_eq hready (.inl hagain) (.inl hagain) himage hreload]
    dsimp only
    rw [if_pos hagain]
    have hshut : ¬ s.openable sid (s.nextGen sid) (s.opensAgain sid) = true := by
      have hne : (s.dieBin (s.slotDie sid) == s.openBin sid (s.nextGen sid)) = false := beq_false_of_ne hbin
      simp [State.openable, hcompute, hne]
    have hat : s.atBin sid (s.nextGen sid) = s.arraysAtBoundary die (s.openBin sid (s.nextGen sid)) := if_pos hcompute
    rw [if_neg hshut]
    simp only [State.refit]
    rw [hat, if_neg]
    rintro ⟨-, -, h, -⟩
    exact hbin ((s.arraysAtBoundary_dieBin _ _ _).symm.trans h)
  · intro bin hne hin
    have hexec : exec (.binChange d) s = .next (binChange d s) := onUnit_pos (decide_eq_true hd) _
    have hgo : ¬ (48 ≤ sid ∨ (!s.slotReady sid) = true ∨ s.nextBin sid = s.dieBin d ∨
        s.pwr.excluded.contains (4 * d + s.nextBin sid) = true) := by
      rintro (h | h | h | h)
      · omega
      · simp [hready] at h
      · exact hne h
      · exact Bool.false_ne_true (hin.symm.trans h)
    have heq : binChange d s = if 850 < s.binMv d bin then s.excludeBin d bin
        else if bin < s.dieBin d then (s.command d (s.binMv d bin)).setBin d bin
        else (s.setBin d bin).command d (s.binMv d bin) := by
      rw [binChange, hslot]
      exact if_neg hgo
    refine ⟨fun h => ?_, fun h hlt => ?_, fun h hlt => ?_⟩
    · exact exec_of_eq hexec (heq.trans (if_pos h))
    · exact exec_of_eq hexec (heq.trans ((if_neg (by omega)).trans (if_pos hlt)))
    · exact exec_of_eq hexec (heq.trans ((if_neg (by omega)).trans (if_neg (by omega))))

/-! ## Waits and suspects -/

/-- Settles O30. -/
theorem waitsAndSuspects : Obligations.WaitsAndSuspects := by
  intro s sid op core o hsid
  refine ⟨fun h => ?_, fun h => ?_, fun hof hindex hwait hheld hunit hcompute => ?_,
    fun hcore hslot hopen hwaits hruns => ?_, fun hlive hrun hover hpulls => ?_, fun hlive hwait hnew => ?_⟩
  · refine exec_of_eq (onUnit_pos (decide_eq_true hsid) _) ?_
    rw [syncOp, h.here]
    dsimp only
    rw [h.begin_eq]
    rfl
  · refine exec_of_eq (onUnit_pos (decide_eq_true hsid) _) ?_
    rw [waitDeclared, h.here]
    dsimp only
    rw [h.begin_eq]
    rfl
  · refine exec_of_eq (onUnit_pos (decide_eq_true hsid) _) ?_
    have hbegin : s.begin' sid o = (s, false) := by
      have hissue : s.issue sid o = s := by simp [State.issue, hindex, hwait]
      simp [State.begin', hissue, hindex, hheld]
    rw [waitDeclared, hof]
    dsimp only
    rw [hbegin]
    dsimp only
    rw [if_neg Bool.false_ne_true, if_pos ⟨hwait, hunit, hcompute⟩]
  · refine exec_of_eq (onUnit_pos (decide_eq_true hcore) _) ?_
    rw [undeclaredLimit, hslot]
    refine if_pos ⟨hopen, ?_, ?_⟩
    · obtain ⟨x, hx, hunit, hphase⟩ := hwaits
      exact List.any_eq_true.mpr ⟨x, List.mem_filter.mpr ⟨hx, by simpa using hunit⟩, by simpa using hphase⟩
    · rw [Bool.not_eq_true', List.any_eq_false]
      intro x hx
      obtain ⟨hx, hunit⟩ := List.mem_filter.mp hx
      simpa using hruns x hx (by simpa using hunit)
  · refine exec_of_eq (onUnit_pos (decide_eq_true hsid) _) ?_
    have hfixing : (s.ctl.pulls.any fun p => p.sid == sid && p.op == op && p.stage == .faulted) = false := by
      rw [List.any_eq_false]
      intro p hp
      have := hpulls p hp
      simp
      exact this
    rw [budgetOverrun, hlive]
    dsimp only
    rw [if_neg]
    rintro (h | h | h)
    · exact h.1 hrun
    · exact Bool.false_ne_true (hover.symm.trans h)
    · exact Bool.false_ne_true (hfixing.symm.trans h)
  · refine exec_of_eq (onUnit_pos (decide_eq_true hsid) _) ?_
    rw [waitExpiry, hlive]
    dsimp only
    rw [if_pos hwait, State.addSuspect, if_neg (by simpa using hnew)]

end Sys2Proof.Machine
end

section
/-!
PROOFS. Ops that complete, the step-end audit, and tiles that are read again (R41, R46, R47, R270, R309).
-/
namespace Sys2Proof.Machine

@[simp] theorem State.raiseFlags_still (s : State) (sid : Nat) (o : Op) (f : Nat) : (s.raiseFlags sid o f).still = s.still := by
  unfold State.raiseFlags
  split
  · rfl
  · dsimp only
    split
    · rw [State.wr_still, State.wr_still]
    · rw [State.wr_still]

@[simp] theorem State.flagWord_still (s : State) (sid : Nat) (o : Op) (f : Nat) : (s.flagWord sid o f).still = s.still := by
  unfold State.flagWord
  split
  · rfl
  · exact s.writeLoc_still _ _

/-- A core's ramp waits for matrix ops alone. -/
theorem State.rampGap_eq (s : State) (sid : Nat) {o : Op} (h : o.cls ≠ 0) : s.rampGap sid o = s := by
  simp [State.rampGap, h]

theorem exec_hallmarkReread {s : State} {sid op i tile : Nat} (second : List Byte) {o : Op} {t : Tensor} (hsid : sid < 60)
    (hlive : s.liveOp sid op = some o) (hbad : s.badTile sid o i tile = some t) :
    let die := s.slotDie sid
    let r := s.slot sid
    let bs := bytesAt second 0 (tileBytes t.fmt)
    let kept := if o.retain ∧ i = 0 then s.keptInput sid o else none
    let place := s.tilePlace sid o i t tile
    exec (.hallmarkReread sid op i tile second) s = .next
      (if place.2 = hallmark bs t.id tile (t.tagRead r.step) then (s.writeLoc place.1 bs).raise die 0x0410 (opSite sid o)
      else if kept.isSome = true then
        (s.raiseAs die 0x0411 2 { opSite sid o with detail := BitVec.ofNat 64 (t.base + tile * tileBytes t.fmt) }).refetch
          ((kept.map (fun x => x.off)).getD 0 + (tile - (aPlain (o.opnd i).addr - t.base) / tileBytes t.fmt) * tileBytes t.fmt)
      else if 0 < r.replays ∧ (List.range 8).any (fun k => place.2 == hallmark bs t.id tile (r.step + 1 + (k : Int))) then
        (s.raise die 0x0201 (opSite sid o)).rung7 0x0201 s.flt.nextSeq
      else s.hallmarkFail sid o t tile) := by
  refine exec_of_eq (onUnit_pos (decide_eq_true hsid) _) ?_
  rw [hallmarkReread, hlive]
  dsimp only
  rw [hbad]

/-- Settles O31. -/
theorem opsAndHallmarksComplete : Obligations.OpsAndHallmarksComplete := by
  refine ⟨fun s sid op o hsid => ⟨fun hlive hcomputed hended hholds haudit hmatrix hvector => ?_, fun h hdone => ?_, fun h hopen => ?_⟩,
    fun s sid op i tile second o t hsid hlive hbad => ?_⟩
  · intro r t u
    have hstill : ((s.raiseFlags sid o r.flags).flagWord sid o r.flags).still = s.still := by simp
    have hslot : (((s.raiseFlags sid o r.flags).flagWord sid o r.flags).slot sid).phase = .opened := by
      rw [State.slot, State.slots_of_still hstill]; exact State.phase_of_liveOp hlive
    refine ⟨exec_of_eq (onUnit_pos (decide_eq_true hsid) _) ?_, (State.OpAt.setOp hslot (op := op) (r := { r with phase := .done }) nofun).phase⟩
    rw [opComplete, hlive]
    dsimp only
    rw [if_neg (by simp [hcomputed, hended, haudit, hholds]), State.rampGap_eq _ _ hmatrix, if_neg hvector]
  · intro t hobjs hclean
    refine exec_of_eq (onUnit_pos (decide_eq_true hsid) _) ?_
    have hall : (s.ops sid false).all (fun x => x.index == op || (s.opRun sid x.index).phase == .done) = true := by
      rw [List.all_eq_true]
      intro x hx
      by_cases hi : x.index = op
      · simp [hi]
      · simp [hdone x hx hi]
    rw [stepEndAudit, h.here]
    dsimp only
    rw [h.issue_eq, hall, h.begin_eq]
    dsimp only
    rw [if_neg (by simp), if_neg (by simp), hobjs]
    refine if_neg ?_
    rintro ⟨hdie, hres⟩
    exact Bool.false_ne_true ((hclean hdie).symm.trans hres)
  · refine exec_of_eq (onUnit_pos (decide_eq_true hsid) _) ?_
    have hall : (s.ops sid false).all (fun x => x.index == op || (s.opRun sid x.index).phase == .done) = false := by
      obtain ⟨x, hx, hi, hphase⟩ := hopen
      rw [List.all_eq_false]
      exact ⟨x, hx, by simp [hi, hphase]⟩
    rw [stepEndAudit, h.here]
    dsimp only
    rw [h.issue_eq, hall]
    rfl
  · intro die r bs place x
    have hexec := exec_hallmarkReread second hsid hlive hbad
    refine ⟨fun hmatch => hexec.trans (congrArg _ (if_pos hmatch)), fun hmiss hkept hfirst => ?_⟩
    have hnone : ¬ (if o.retain = true ∧ i = 0 then s.keptInput sid o else none).isSome = true := by
      rw [if_neg (by rcases hkept with h | h <;> simp [h])]; nofun
    have hfail : exec (.hallmarkReread sid op i tile second) s = .next (s.hallmarkFail sid o t tile) :=
      hexec.trans (congrArg _ ((if_neg hmiss).trans ((if_neg hnone).trans (if_neg (fun h => by
        have h1 : 0 < r.replays := h.1
        omega)))))
    refine ⟨fun hnear hmode => hfail.trans (congrArg _ ?_), fun hfar => hfail.trans (congrArg _ ?_)⟩
    · exact (if_neg hnear).trans (if_pos hmode)
    · exact if_pos hfar

end Sys2Proof.Machine
end

section
/-!
PROOFS. Flits of a port (R225 to R230): what goes out, the retry buffer, what arrives.
-/
namespace Sys2Proof.Machine

/-! ## What goes out -/

section
variable {s : State} {p : Nat} (h : s.portPhase p = 5)
include h

theorem transmit_up : transmit p s =
    let x := s.port p
    match x.resend with
    | f :: fs => (((s.setPort p { x with resend := fs }).portBump p 0xC18).txFlit p f).raise (brzDie p) 0x0600 (brzSite p)
    | [] =>
      if 2048 ≤ x.retry.length then s.txFlit p (s.idleFlit p)
      else match s.pickVc p with
      | none => s.txFlit p (s.idleFlit p)
      | some vc =>
        match x.ready.getD vc [] with
        | [] => s.txFlit p (s.idleFlit p)
        | f :: fs =>
          let wrap := decide (x.slot + 1 = 1024)
          let f := { f with seq := x.txSeq }
          let x' := { x with
            ready := listSet x.ready vc fs, txSeq := (x.txSeq + 1) % 4096, retry := x.retry ++ [f],
            sent := listSet x.sent vc (x.sent.getD vc 0 + 1),
            slot := if wrap then 0 else x.slot + 1,
            slotSent := if wrap then [0, 0, 0, 0, 0] else listSet x.slotSent vc (x.slotSent.getD vc 0 + 1) }
          ((s.setPort p x').portBump p (0xC38 + 8 * vc)).txFlit p f := by
  unfold transmit
  dsimp only
  rw [if_neg (by simp [h]), if_neg (by simp [h]), if_neg (by simp [h]), if_neg (by simp [h])] <;> rfl

end

/-- A VC that is picked has a ready flit and a credit. -/
theorem State.pickVc_can {s : State} {p vc : Nat} (h : s.pickVc p = some vc) :
    vc < 5 ∧ (s.port p).ready.getD vc [] ≠ [] ∧ 0 < (s.port p).credits p vc := by
  have hcan {vc : Nat} (hvc : vc < 5) (h : ((s.port p).ready.getD vc [] != [] && decide (0 < (s.port p).credits p vc)) = true) :
      vc < 5 ∧ (s.port p).ready.getD vc [] ≠ [] ∧ 0 < (s.port p).credits p vc := by
    simp only [Bool.and_eq_true, bne_iff_ne, decide_eq_true_eq] at h
    exact ⟨hvc, h⟩
  simp only [State.pickVc] at h
  split at h
  · next h3 =>
    cases h
    exact hcan (by decide) (Bool.and_eq_true_iff.mp h3).1
  · split at h
    · next v hv =>
      cases h
      have hmem : vc ∈ [1, 0, 2, 4] := List.mem_of_find?_eq_some hv
      have hfound := List.find?_some hv
      simp only [Bool.and_eq_true] at hfound
      refine hcan ?_ (Bool.and_eq_true_iff.mpr hfound.1)
      simp at hmem
      omega
    · have hmem : vc ∈ vcOrder := List.mem_of_find?_eq_some h
      refine hcan ?_ (List.find?_some (p := fun vc => (s.port p).ready.getD vc [] != [] && decide (0 < (s.port p).credits p vc)) h)
      simp [vcOrder] at hmem
      omega

/-! ## The retry buffer -/

section
variable {x : PortState} {a b : List Flit} {g : Flit} (ha : ∀ f ∈ a, f.seq ≠ g.seq) (hx : x.retry = a ++ g :: b)
include ha hx

theorem PortState.retry_takeWhile : x.retry.takeWhile (fun f => f.seq != g.seq) = a := by
  rw [hx, List.takeWhile_append_of_pos (by simpa using ha)]
  simp

omit ha in
theorem PortState.retry_any : x.retry.any (fun f => f.seq == g.seq) = true := by
  rw [hx]; simp

theorem PortState.acked_retry : (x.acked g.seq).retry = b ∧
    ∀ f ∈ (x.acked g.seq).resend, f.seq ≠ g.seq ∧ f ∈ x.resend := by
  have hdrop : x.retry.drop a.length = g :: b := by rw [hx]; simp
  have hacked : x.acked g.seq = { x with
      retry := x.retry.drop (a ++ [g]).length, resend := x.resend.filter (fun f => !(a ++ [g]).any (fun k => k.seq == f.seq)),
      inFlight := dropInFlight (a ++ [g]) x.inFlight } := by
    simp only [PortState.acked, PortState.retry_any hx, PortState.retry_takeWhile ha hx, hdrop, if_true]
    rfl
  rw [hacked]
  refine ⟨?_, fun f hf => ?_⟩
  · show x.retry.drop (a ++ [g]).length = b
    rw [hx]; simp
  · obtain ⟨hmem, hno⟩ := List.mem_filter.mp hf
    simp at hno
    exact ⟨fun e => hno.2 e.symm, hmem⟩

theorem PortState.naked_retry (hnext : g.seq ≠ x.txSeq) (hresend : ∀ f ∈ x.resend, f.seq ≠ g.seq) :
    (x.naked g.seq).retry = g :: b ∧ (x.naked g.seq).resend = g :: b := by
  have hdrop : x.retry.drop a.length = g :: b := by rw [hx]; simp
  have hnone : x.resend.any (fun f => f.seq == g.seq) = false := by
    rw [List.any_eq_false]; simpa using hresend
  simp only [PortState.naked, if_neg hnext, PortState.retry_any hx, PortState.retry_takeWhile ha hx, hnone, hdrop,
    Bool.not_false, Bool.and_true, if_true, and_self]

end

/-- Settles O32. -/
theorem flitsAndRetryBuffer : Obligations.FlitsAndRetryBuffer := by
  refine ⟨fun s p hp hup => ?_, fun x a b g n ha hx => ?_⟩
  · intro x
    have hexec : exec (.flitTransmit p) s = .next (transmit p s) := onUnit_pos (decide_eq_true hp) _
    refine ⟨fun f fs hre => exec_of_eq hexec ?_, fun vc f fs hre hroom hpick hready => exec_of_eq hexec ?_,
      fun hre hidle => exec_of_eq hexec ?_, fun vc hpick => State.pickVc_can hpick, fun hready hcredit hcap => ?_⟩
    · simp only [transmit_up hup, show (s.port p).resend = f :: fs from hre]
      rfl
    · rw [transmit_up hup]
      dsimp only
      split
      · next h => cases hre.symm.trans h
      · rw [if_neg (Nat.not_le.mpr hroom), hpick]
        dsimp only
        split
        · next h => cases hready.symm.trans h
        · next h => cases hready.symm.trans h; rfl
    · simp only [transmit_up hup, show (s.port p).resend = [] from hre]
      rcases hidle with hfull | hnone
      · exact if_pos hfull
      · rw [hnone]; exact ite_self _
    · have hcan : ((s.port p).ready.getD 3 [] != [] && decide (0 < (s.port p).credits p 3) &&
          decide ((s.port p).slotSent.getD 3 0 < s.vcShare p 3)) = true := by
        simp only [Bool.and_eq_true, bne_iff_ne, decide_eq_true_eq]
        exact ⟨⟨hready, hcredit⟩, hcap⟩
      exact if_pos hcan
  · refine ⟨(PortState.acked_retry ha hx).1, (PortState.acked_retry ha hx).2, PortState.naked_retry ha hx, ⟨?_, ?_⟩, fun hn => ?_⟩
    · simp [PortState.naked]
    · simp [PortState.naked]
    · have hnone : x.retry.any (fun f => f.seq == n) = false := by
        rw [List.any_eq_false]; simpa using hn
      refine ⟨?_, fun hne => ?_⟩
      · simp [PortState.acked, hnone]
      · simp [PortState.naked, hnone, hne]

/-! ## What arrives -/

theorem State.port_setPort_self (s : State) (p : Nat) {x : PortState} (h : x ≠ {}) : (s.setPort p x).port p = x :=
  SMap.get_set_new h

theorem State.portBump_port (s : State) (p off n q : Nat) : (s.portBump p off n).port q = s.port q := by
  unfold State.portBump
  split
  · exact congrArg (fun l : LinkState => SMap.get (fun _ => ({} : PortState)) l.ports q) (s.bump_link _ _ _ _)
  · rfl

@[simp] theorem State.countFec_port (s : State) (p q : Nat) (f : Flit) : (s.countFec p f).port q = s.port q := by
  rw [State.countFec, State.portBump_port, State.portBump_port]

theorem State.flitBad_port (s : State) (p : Nat) :
    (s.flitBad p).port p = { s.port p with discarding := true, pendAck := (2, (s.port p).rxSeq) } := by
  rw [State.flitBad, State.portBump_port]
  exact s.port_setPort_self p fun h => by cases congrArg PortState.discarding h

theorem State.acceptFlit_rxSeq (s : State) (p : Nat) (f : Flit) : ((s.acceptFlit p f).port p).rxSeq = ((s.port p).rxSeq + 1) % 4096 := by
  have hport (t : State) {x : PortState} (h : x.rxAny = true) : (t.setPort p x).port p = x :=
    t.port_setPort_self p fun e => by rw [e] at h; cases h
  unfold State.acceptFlit
  dsimp only
  split
  · exact congrArg PortState.rxSeq (hport s rfl)
  · exact congrArg PortState.rxSeq (hport s rfl)

/-- Settles O33. -/
theorem flitReception : Obligations.FlitReception := by
  intro s p f hp hup b bad t y
  have hexec : exec (.dataFlit p f) s = .next (receive p f s) := onUnit_pos (decide_eq_true hp) _
  have hup' : ¬ s.portPhase p ≠ 5 := fun h => h hup
  have hgood (he : portError p f = false) (hepoch : f.epoch = b.epoch p) : receive p f s =
      if f.typ ≠ 1 then t else if f.seq = y.rxSeq then t.acceptFlit p f else t.outOfOrder p := by
    rw [receive, if_neg hup', he, if_neg Bool.false_ne_true]
    exact if_neg (fun h => h hepoch)
  refine ⟨fun he => ⟨exec_of_eq hexec ?_, ?_, ?_⟩, fun he hepoch => exec_of_eq hexec ?_, fun he hepoch =>
    ⟨fun htyp hseq => ⟨exec_of_eq hexec ?_, State.acceptFlit_rxSeq t p f⟩, fun htyp hseq => exec_of_eq hexec ?_,
      fun htyp => ⟨exec_of_eq hexec ?_, fun hack => ?_, fun hnak => ?_⟩⟩, fun hwait => ?_⟩
  · rw [receive, if_neg hup', if_pos he]
  · rw [State.flitBad_port]
  · rw [State.flitBad_port, State.countFec_port]
  · rw [receive, if_neg hup', he, if_neg Bool.false_ne_true]
    exact if_pos hepoch
  · rw [hgood he hepoch, if_neg (fun h => h htyp), if_pos hseq]
  · rw [hgood he hepoch, if_neg (fun h => h htyp), if_neg hseq]
    rfl
  · rw [hgood he hepoch, if_pos htyp]
  · refine (onUnit_pos (decide_eq_true hp) _).trans (congrArg _ ?_)
    rw [if_pos hack, hgood he hepoch, if_pos htyp]
  · refine (onUnit_pos (decide_eq_true hp) _).trans (congrArg _ ?_)
    rw [if_pos hnak, hgood he hepoch, if_pos htyp]
  · exact (onUnit_pos (decide_eq_true hp) _).trans (congrArg _ (if_pos ⟨hwait, hup⟩))

end Sys2Proof.Machine
end

section
/-!
PROOFS. Messages that arrive at a link die (R245 to R254, R264 to R268, R340, R351).
-/
namespace Sys2Proof.Machine

/-! ## Delivery -/

theorem exec_onMsg {s : State} {kind die : Nat} {m : Msg} (hdie : 48 ≤ die ∧ die < 56) (hk : m.kind = kind) :
    onMsg kind die m s = .next (s.deliver die m) :=
  (onUnit_pos (decide_eq_true hdie) _).trans (congrArg _ (if_pos (.inl hk)))

theorem State.deliver_away {s : State} {m : Msg} (die : Nat) (h : m.dst ≠ s.moduleId) : s.deliver die m = s.forward die m :=
  if_pos h

theorem State.deliver_wrongVc {s : State} {m : Msg} (die : Nat) (h : m.dst = s.moduleId) (hvc : m.vc ∉ kindVcs m.kind) :
    s.deliver die m = s.answer die m 3 :=
  (if_neg (fun c => c h)).trans (if_pos (by simpa using hvc))

theorem State.deliver_resend {s : State} {m : Msg} (die : Nat) (h : m.dst = s.moduleId) (hvc : m.vc ∈ kindVcs m.kind)
    (hflag : m.flags % 2 = 1) (h3 : m.vc ≠ 3) : s.deliver die m =
      match s.downList (origPort m) with
      | some l => s.judgeResend die m l
      | none => { s with net := { s.net with held := s.net.held ++ [(die, m)] } } :=
  (if_neg (fun c => c h)).trans ((if_neg (by simpa using hvc)).trans (if_pos ⟨hflag, h3⟩))

theorem State.deliver_here {s : State} {m : Msg} (die : Nat) (h : m.dst = s.moduleId) (hvc : m.vc ∈ kindVcs m.kind)
    (hflag : m.flags % 2 = 0 ∨ m.vc = 3) : s.deliver die m = s.accept die m :=
  (if_neg (fun c => c h)).trans ((if_neg (by simpa using hvc)).trans (if_neg (by rintro ⟨h1, h3⟩; omega)))

/-- A message past the sequence rule goes by its kind. -/
theorem State.accept_data {s : State} {m : Msg} (die : Nat) (h3 : m.vc ≠ 3) (hdross : s.isDross m = false) :
    s.accept die m = if m.kind = 1 then s.takeWrite die m else if m.kind = 2 then s.takeFetch die m
      else if m.kind = 3 then s.takeFetchData die m else s.takeComplete die m :=
  (if_neg h3).trans (if_neg (by simp [hdross]))

/-! ## WRITE, FETCH, FETCH_DATA and COMPLETE -/

section
variable {s : State} {die : Nat} {m : Msg}

/-- A WRITE at the slot that it is for, past mirrors and overlong segments. -/
theorem State.takeWrite_eq (hmirror : (if aSlot m.addr < 48 then s.wakeModule else s).inMirror m = false) (hlen : m.len ≤ 65536) :
    s.takeWrite die m =
      let sid := aSlot m.addr
      let u := if sid < 48 then s.wakeModule else s
      if aSpace m.addr = 1 ∧ u.slotUsed sid ∧ sid < 48 ∧ !u.slotReach sid then u.answer die m 1
      else if (u.slot sid).phase = .replaying then u.answer die m 1
      else if u.net.seen.contains (m.src, m.xfer, sid * 2 ^ 32 + m.seg, m.step) then u.answer die m 0
      else if m.sync = 0 then (if u.canLand m then (u.land m).landed die m else u.answer die m 3)
      else
        let k := u.msgKey die m
        let o := u.obj k
        let open_ := o.sid != 64 && decide ((u.slot o.sid).step = m.step)
        let zero := m.aux % 2 == 1
        if open_ && o.deferral == 2 && !zero then u.answer die m 1
        else if open_ && o.deferral == 1 && !zero then u.answer die m 2
        else if !u.canLand m ∧ u.classify k m.step (SyncRef.mk m.sync).gen ≠ .unarmed then u.answer die m 3
        else u.sync [.arrive
          { key := k, step := m.step, gen := (SyncRef.mk m.sync).gen, amount := m.len, isData := true, first := m.seg == 0,
            msg := some m, die := die }] := by
  unfold State.takeWrite
  dsimp only
  rw [if_neg (by simp [hmirror]), if_neg (by omega)]

theorem State.takeWrite_replays (hmirror : (if aSlot m.addr < 48 then s.wakeModule else s).inMirror m = false) (hlen : m.len ≤ 65536)
    (h : let u := if aSlot m.addr < 48 then s.wakeModule else s
      (u.slot (aSlot m.addr)).phase = .replaying ∨
        (aSpace m.addr = 1 ∧ u.slotUsed (aSlot m.addr) = true ∧ aSlot m.addr < 48 ∧ u.slotReach (aSlot m.addr) = false)) :
    s.takeWrite die m = (if aSlot m.addr < 48 then s.wakeModule else s).answer die m 1 := by
  rw [State.takeWrite_eq hmirror hlen]
  dsimp only at h ⊢
  rcases h with h | ⟨h1, h2, h3, h4⟩
  · rw [if_pos h, ite_self]
  · rw [if_pos ⟨h1, h2, h3, by simp [h4]⟩]

theorem State.takeWrite_goes (hmirror : (if aSlot m.addr < 48 then s.wakeModule else s).inMirror m = false) (hlen : m.len ≤ 65536)
    (h : let u := if aSlot m.addr < 48 then s.wakeModule else s
      ¬ ((u.slot (aSlot m.addr)).phase = .replaying ∨
        (aSpace m.addr = 1 ∧ u.slotUsed (aSlot m.addr) = true ∧ aSlot m.addr < 48 ∧ u.slotReach (aSlot m.addr) = false))) :
    s.takeWrite die m =
      let sid := aSlot m.addr
      let u := if sid < 48 then s.wakeModule else s
      if u.net.seen.contains (m.src, m.xfer, sid * 2 ^ 32 + m.seg, m.step) then u.answer die m 0
      else if m.sync = 0 then (if u.canLand m then (u.land m).landed die m else u.answer die m 3)
      else
        let k := u.msgKey die m
        let o := u.obj k
        let open_ := o.sid != 64 && decide ((u.slot o.sid).step = m.step)
        let zero := m.aux % 2 == 1
        if open_ && o.deferral == 2 && !zero then u.answer die m 1
        else if open_ && o.deferral == 1 && !zero then u.answer die m 2
        else if !u.canLand m ∧ u.classify k m.step (SyncRef.mk m.sync).gen ≠ .unarmed then u.answer die m 3
        else u.sync [.arrive
          { key := k, step := m.step, gen := (SyncRef.mk m.sync).gen, amount := m.len, isData := true, first := m.seg == 0,
            msg := some m, die := die }] := by
  rw [State.takeWrite_eq hmirror hlen]
  dsimp only at h ⊢
  obtain ⟨hphase, hreach⟩ := not_or.mp h
  rw [if_neg (fun c => hreach ⟨c.1, c.2.1, c.2.2.1, by simpa using c.2.2.2⟩), if_neg hphase]

theorem State.takeFetch_eq (hn : 0 < m.aux) (hmax : m.aux ≤ 65536) (hlen : m.len = 8) (hspace : aSpace m.addr = 1)
    (hslot : aSlot m.addr < 48) (hx : xValid (s.xlat (aSlot m.addr)) = true) (hreach : s.slotReach (aSlot m.addr) = true)
    (hpoison : s.poisonLoc (s.resolve die m.step m.addr) m.aux = false) :
    s.takeFetch die m = (s.access die m.addr (s.resolve die m.step m.addr) m.aux false).sendMsg die
      { dst := m.src, src := s.moduleId, kind := 3, gen := s.dieTag die, step := m.step, xfer := m.xfer, seg := m.seg,
        len := m.aux, addr := natAt m.data 0 8, sync := m.sync, data := s.readLoc (s.resolve die m.step m.addr) m.aux, vc := 1 } := by
  unfold State.takeFetch
  dsimp only
  rw [if_neg, if_neg, if_neg]
  · simp [hpoison]
  · simp [hreach]
  · simp [hspace, hslot, hx, hlen]; omega

theorem State.takeFetchData_eq (hsync : m.sync ≠ 0) : s.takeFetchData die m =
    let lsid := xferSid m.xfer
    let waits := s.net.fetches.any (fun f => f.1 == lsid && f.2.1 == xferOp m.xfer && decide (m.len ≤ f.2.2.2) && f.2.2.2 != 0)
    let r : SyncRef := ⟨m.sync⟩
    if !waits || !s.canLand m then s.countDross die
    else s.sync [.arrive
      { key := if r.scope = 2 then objKey (s.slotDie lsid) 2 0 r.obj else s.msgKey die m, step := m.step, gen := r.gen,
        amount := m.len, isData := true, first := m.seg == 0, msg := some m, die := die, op := xferOp m.xfer }] := by
  unfold State.takeFetchData
  dsimp only
  rw [if_neg (fun c => hsync c.2.1), if_neg (fun c => hsync c.2.1), if_neg hsync]

end

/-- Settles O36: a message for this module goes by its kind to the four functions above. -/
theorem dataMessages : Obligations.DataMessages := by
  intro s die m hlo hhi hdst hflag hdross
  have hdie : 48 ≤ die ∧ die < 56 := ⟨hlo, hhi⟩
  refine ⟨fun hk hvc => ?_, fun hk hvc hn hmax hlen hspace hslot hx hreach hpoison => ?_, fun hk hvc hsync => ?_, fun hk hvc => ?_⟩
  · have hmem : m.vc ∈ kindVcs m.kind := by rw [hk]; simpa [kindVcs] using hvc
    have hexec : exec (.write die m) s = .next (s.takeWrite die m) := by
      refine exec_of_eq (exec_onMsg hdie hk) ?_
      rw [State.deliver_here die hdst hmem (.inl hflag), State.accept_data die (by omega) hdross, if_pos hk]
    intro sid u hmirror hlen replays
    refine ⟨fun h => exec_of_eq hexec (State.takeWrite_replays hmirror hlen h), fun h hseen => exec_of_eq hexec ?_,
      fun h hseen hland => ⟨fun hsync => exec_of_eq hexec ?_, fun hsync hdefer => exec_of_eq hexec ?_⟩⟩
    · rw [State.takeWrite_goes hmirror hlen h]
      exact if_pos hseen
    · rw [State.takeWrite_goes hmirror hlen h]
      exact (if_neg (fun c => Bool.false_ne_true (hseen.symm.trans c))).trans ((if_pos hsync).trans (if_pos hland))
    · rw [State.takeWrite_goes hmirror hlen h]
      refine (if_neg (fun c => Bool.false_ne_true (hseen.symm.trans c))).trans ((if_neg hsync).trans ?_)
      have hdefer' : ((if aSlot m.addr < 48 then s.wakeModule else s).obj
        ((if aSlot m.addr < 48 then s.wakeModule else s).msgKey die m)).deferral = 0 := hdefer
      have hland' : (if aSlot m.addr < 48 then s.wakeModule else s).canLand m = true := hland
      dsimp only
      rw [hdefer', hland', if_neg (by simp), if_neg (by simp), if_neg (by simp)]
  · have hmem : m.vc ∈ kindVcs m.kind := by rw [hk, hvc]; decide
    refine exec_of_eq (exec_onMsg hdie hk) ?_
    rw [State.deliver_here die hdst hmem (.inl hflag), State.accept_data die (by omega) hdross, if_neg (by omega), if_pos hk]
    exact State.takeFetch_eq hn hmax hlen hspace hslot hx hreach hpoison
  · have hmem : m.vc ∈ kindVcs m.kind := by rw [hk, hvc]; decide
    have hexec : exec (.fetchData die m) s = .next (s.takeFetchData die m) := by
      refine exec_of_eq (exec_onMsg hdie hk) ?_
      rw [State.deliver_here die hdst hmem (.inl hflag), State.accept_data die (by omega) hdross, if_neg (by omega),
        if_neg (by omega), if_pos hk]
    intro lsid r waits
    have hany : (s.net.fetches.any fun f => f.1 == lsid && f.2.1 == xferOp m.xfer && decide (m.len ≤ f.2.2.2) && f.2.2.2 != 0) = true
        ↔ waits := by
      simp only [List.any_eq_true, Bool.and_eq_true, beq_iff_eq, decide_eq_true_eq, bne_iff_ne, and_assoc, waits]
    refine ⟨fun hnot => exec_of_eq hexec ?_, fun hwaits hland => exec_of_eq hexec ?_⟩
    · rw [State.takeFetchData_eq hsync]
      refine if_pos ?_
      rw [Bool.or_eq_true, Bool.not_eq_true', ← Bool.not_eq_true]
      exact .inl (fun c => hnot (hany.mp c))
    · rw [State.takeFetchData_eq hsync]
      refine if_neg ?_
      rw [Bool.or_eq_true, Bool.not_eq_true', Bool.not_eq_true', ← Bool.not_eq_true]
      rintro (c | c)
      · exact c (hany.mpr hwaits)
      · exact Bool.false_ne_true (c.symm.trans hland)
  · have hmem : m.vc ∈ kindVcs m.kind := by rw [hk, hvc]; decide
    have hexec : exec (.complete die m) s = .next (s.takeComplete die m) := by
      refine exec_of_eq (exec_onMsg hdie hk) ?_
      rw [State.deliver_here die hdst hmem (.inl hflag), State.accept_data die (by omega) hdross, if_neg (by omega),
        if_neg (by omega), if_neg (by omega)]
    intro hit rest ended
    refine ⟨fun hnone => exec_of_eq hexec ?_, fun g hfind hg htag => ?_⟩
    · unfold State.takeComplete
      dsimp only
      rw [hnone]
    · have hsid : g.sid ≠ 63 := by omega
      have hcomplete : s.takeComplete die m =
          if m.aux % 256 = 1 then { s with net := { s.net with segments := rest ++ [{ g with retry := true }] } }
          else if m.aux % 256 = 0 ∨ m.aux % 256 = 2 then (ended g rest).putAnswered g.sid g.op m.step
          else ended g (rest ++ [{ g with done := true }]) := by
        unfold State.takeComplete
        dsimp only
        rw [hfind]
        dsimp only
        rw [if_neg (fun c => c.2 htag), if_neg hsid]
      refine ⟨fun h => exec_of_eq hexec (hcomplete.trans (if_pos h)), fun h => exec_of_eq hexec ?_, fun h => exec_of_eq hexec ?_⟩
      · exact hcomplete.trans ((if_neg (by omega)).trans (if_pos h))
      · exact hcomplete.trans ((if_neg (by omega)).trans (if_neg (by omega)))

/-- Settles O37. -/
theorem messagesRoutedAndTimed : Obligations.MessagesRoutedAndTimed := by
  refine ⟨fun s die k m c hlo hhi hc hk => ?_, fun s die hlo hhi => ⟨fun xfer seg g => ?_, fun hwait => ?_, fun src e l hearly => ?_,
    fun p hp hdown halive => ?_, fun k m hfind => ?_, fun p v hok => ?_⟩⟩
  · have hdie : 48 ≤ die ∧ die < 56 := ⟨hlo, hhi⟩
    have hexec : exec c s = .next (s.deliver die m) := by
      simp only [List.mem_cons, Prod.mk.injEq, List.not_mem_nil, or_false] at hc
      obtain ⟨rfl, rfl⟩ | ⟨rfl, rfl⟩ | ⟨rfl, rfl⟩ | ⟨rfl, rfl⟩ | ⟨rfl, rfl⟩ | ⟨rfl, rfl⟩ := hc <;> exact exec_onMsg hdie hk
    have hkind : 1 ≤ k ∧ k ≤ 6 := by
      simp only [List.mem_cons, Prod.mk.injEq, List.not_mem_nil, or_false] at hc
      omega
    refine ⟨fun haway hhops => exec_of_eq hexec ?_, fun haway hhops => exec_of_eq hexec ?_, fun hdst hvc => exec_of_eq hexec ?_,
      fun hdst hvc hflag => ?_⟩
    · rw [State.deliver_away die haway]
      exact if_pos hhops
    · rw [State.deliver_away die haway]
      exact if_neg hhops
    · refine State.deliver_wrongVc die hdst ?_
      subst hk
      simp [kindVcs] at hvc ⊢
      split_ifs <;> simp <;> omega
    · have hmem : m.vc ∈ kindVcs m.kind ∧ m.vc ≠ 3 := by
        simp only [List.mem_cons, Prod.mk.injEq, List.not_mem_nil, or_false] at hvc
        obtain ⟨rfl, hv⟩ | ⟨rfl, hv⟩ | ⟨rfl, hv⟩ | ⟨rfl, hv⟩ | ⟨rfl, hv⟩ | ⟨rfl, hv⟩ := hvc <;> rw [hk, hv] <;> decide
      have hresend := State.deliver_resend die hdst hmem.1 hflag hmem.2
      refine ⟨fun hnone => exec_of_eq hexec ?_, fun l hl => ?_⟩
      · rw [hresend, show s.downList (origPort m) = none from hnone]
      · have hjudge : s.deliver die m = s.judgeResend die m l := by
          rw [hresend, show s.downList (origPort m) = some l from hl]
        refine ⟨fun hin => exec_of_eq hexec ?_, fun hout => exec_of_eq hexec ?_⟩
        · rw [hjudge, State.judgeResend, if_pos (List.contains_iff_mem.mpr hin), hk]
        · rw [hjudge, State.judgeResend, if_neg (fun c => hout (List.contains_iff_mem.mp c))]
  · intro hit hfind hg
    refine exec_of_eq (t := segmentResend xfer seg s) rfl ?_
    unfold segmentResend
    dsimp only
    rw [hfind]
    dsimp only
    rw [if_neg (by omega)]
  · refine exec_of_eq (onUnit_pos (decide_eq_true ⟨hlo, hhi⟩) _) ?_
    exact if_pos hwait
  · refine exec_of_eq (t := vc3Gap src s) rfl ?_
    rw [vc3Gap, hearly]
  · exact exec_of_eq (onUnit_pos (decide_eq_true hp) _) (if_neg (by simp [hdown, halive]))
  · intro t
    have heq : resendHold die s = match destSlot m with
        | some sid => t.replayShare sid m.step
        | none => t := by
      rw [resendHold, hfind] <;> rfl
    have hexec : exec (.resendHoldTimeout die) s = .next (resendHold die s) := onUnit_pos (decide_eq_true ⟨hlo, hhi⟩) _
    refine ⟨fun hk => exec_of_eq hexec ?_, fun hk hspace => exec_of_eq hexec ?_, fun hk hspace => exec_of_eq hexec ?_⟩
    · rw [heq, show destSlot m = some (xferSid m.xfer) from if_pos hk]
    · rw [heq, show destSlot m = some (aSlot m.addr) from (if_neg hk).trans (if_pos hspace)]
    · rw [heq, show destSlot m = none from (if_neg hk).trans (if_neg hspace)]
  · refine exec_of_eq (onUnit_pos (decide_eq_true ⟨hlo, hhi⟩) _) ?_
    rw [routeWrite, hok]

/-! ## VC.3 (R252) -/

section
variable {s : State} {die : Nat} {m : Msg} {p : PairState} (hheard : (s.pair m.src).heard (m.seg / 2 ^ 24 % 256) = some p)
include hheard

theorem State.vc3_eq : s.vc3 die m =
    let v := s.setPair m.src p
    let d := (m.seg % 2 ^ 24 + 2 ^ 24 - p.next) % 2 ^ 24
    if d = 0 then vc3Run 65 die m v
    else if d < 2 ^ 23 ∧ p.early.length < 64 ∧ !p.early.any (fun e => e.2.seg % 2 ^ 24 == m.seg % 2 ^ 24) then
      v.setPair m.src { p with early := p.early ++ [(die, m)] }
    else v := by
  unfold State.vc3
  rw [hheard]

/-- A message whose turn it is, with none held behind it. -/
theorem State.vc3_inTurn (hnext : m.seg % 2 ^ 24 = p.next) :
    let v := s.setPair m.src p
    let u := v.setPair m.src { v.pair m.src with next := ((v.pair m.src).next + 1) % 2 ^ 24 }
    ((u.vc3Deliver die m).pair m.src).early = [] → s.vc3 die m = u.vc3Deliver die m := by
  intro v u hearly
  rw [State.vc3_eq hheard]
  refine (if_pos (by omega)).trans ?_
  show (match ((u.vc3Deliver die m).pair m.src).early.find? _ with | none => _ | some e => _) = _
  rw [hearly]
  rfl

end

/-- Settles O38. -/
theorem vc3InTurn : Obligations.Vc3InTurn := by
  intro s die m p hlo hhi hdst hvc hheard v q u r
  have hdie : 48 ≤ die ∧ die < 56 := ⟨hlo, hhi⟩
  have hdeliver (hk : m.kind = 5 ∨ m.kind = 6 ∨ m.kind = 7) : s.deliver die m = s.vc3 die m := by
    have hmem : m.vc ∈ kindVcs m.kind := by
      rcases hk with hk | hk | hk <;> rw [hk, hvc] <;> decide
    exact (State.deliver_here die hdst hmem (.inr hvc)).trans (if_pos hvc)
  have hclean (hk : m.kind = 6 ∨ m.kind = 7) : u.isDross m = false := by
    have hnone : issuerKey m = none := by
      rw [issuerKey, if_neg (by omega), if_neg (by omega)]
    rw [State.isDross, hnone]
  have hturn {t : State} (hk : m.kind = 5 ∨ m.kind = 6 ∨ m.kind = 7) (hnext : m.seg % 2 ^ 24 = p.next)
      (ht : u.vc3Deliver die m = t) (hearly : (t.pair m.src).early = []) : s.deliver die m = t := by
    subst ht
    rw [hdeliver hk]
    exact State.vc3_inTurn hheard hnext hearly
  refine ⟨fun hnext => ⟨fun hk hdross => ?_, fun hk hscope => ?_, fun hk hscope => ?_, fun hk h48 c n t hc haux hearly => ?_⟩,
    fun hk hnext => ?_⟩
  · intro child t hearly
    refine exec_of_eq (exec_onMsg hdie hk) (hturn (.inl hk) hnext ?_ hearly)
    rw [State.vc3Deliver, hdross, if_neg Bool.false_ne_true, if_pos hk]
    rfl
  · intro t hearly
    refine exec_of_eq (exec_onMsg hdie hk) (hturn (.inr (.inl hk)) hnext ?_ hearly)
    rw [State.vc3Deliver, hclean (.inl hk), if_neg Bool.false_ne_true, if_neg (by omega), if_pos hk]
    exact if_pos hscope
  · intro t hearly
    refine exec_of_eq (exec_onMsg hdie hk) (hturn (.inr (.inl hk)) hnext ?_ hearly)
    rw [State.vc3Deliver, hclean (.inl hk), if_neg Bool.false_ne_true, if_neg (by omega), if_pos hk]
    exact if_neg hscope
  · have hledger : exec c s = .next (s.deliver die m) ∧ u.takeLedger m = t := by
      subst h48
      simp only [List.mem_cons, Prod.mk.injEq, List.not_mem_nil, or_false] at hc
      obtain ⟨rfl, rfl, rfl⟩ | ⟨rfl, rfl, rfl⟩ | ⟨rfl, rfl, rfl⟩ | ⟨rfl, rfl, rfl⟩ | ⟨rfl, rfl, rfl⟩ | ⟨rfl, rfl, rfl⟩ |
        ⟨rfl, rfl, rfl⟩ | ⟨rfl, rfl, rfl⟩ | ⟨rfl, rfl, rfl⟩ := hc <;>
        exact ⟨congrArg _ (if_pos ⟨hk, by rw [haux]⟩), by unfold State.takeLedger; rw [haux]; rfl⟩
    refine exec_of_eq hledger.1 (hturn (.inr (.inr hk)) hnext ?_ hearly)
    rw [State.vc3Deliver, hclean (.inr hk), if_neg Bool.false_ne_true, if_neg (by omega), if_neg (by omega)]
    exact hledger.2
  · intro d
    have hexec : exec (.arrive die m) s = .next (s.vc3 die m) := exec_of_eq (exec_onMsg hdie hk) (hdeliver (.inl hk))
    refine ⟨fun hold => exec_of_eq hexec ?_, fun hd hearly hroom hnew => exec_of_eq hexec ?_⟩
    · rw [State.vc3_eq hheard]
      exact (if_neg (by omega)).trans (if_neg (fun c => by omega))
    · rw [State.vc3_eq hheard]
      refine (if_neg hd).trans (if_pos ⟨hearly, hroom, ?_⟩)
      rw [Bool.not_eq_true', List.any_eq_false]
      intro e he
      simpa using hnew e he

end Sys2Proof.Machine
end

section
/-!
PROOFS. Memory maintenance (R202, R206 to R208, R211, R214, R499).
-/
namespace Sys2Proof.Machine

/-! ## Records and events leave the memory alone -/

/-- A fault below PARTITION_FATAL is recorded and does nothing else. -/
theorem State.raiseAs_eq_collect (s : State) (die code : Nat) {cls : Nat} (x : Site) (h : cls ≤ 2) :
    s.raiseAs die code cls x = s.collect (s.mkRec die code cls x) :=
  (if_neg (by omega)).trans (if_neg (by omega))

@[simp] theorem State.collect_mem (s : State) (r : FaultRec) : (s.collect r).mem = s.mem := rfl
@[simp] theorem State.collect_ckp (s : State) (r : FaultRec) : (s.collect r).ckp = s.ckp := rfl

theorem State.stackFault_mem (s : State) (stack : Nat) {code : Nat} (detail : Word) (h : codeClass code ≤ 2) :
    (s.stackFault stack code detail).mem = s.mem :=
  (congrArg State.mem (s.raiseAs_eq_collect stack code _ h)).trans (s.collect_mem _)

theorem State.stackFault_ckp (s : State) (stack : Nat) {code : Nat} (detail : Word) (h : codeClass code ≤ 2) :
    (s.stackFault stack code detail).ckp = s.ckp :=
  (congrArg State.ckp (s.raiseAs_eq_collect stack code _ h)).trans (s.collect_ckp _)

/-- What frames, counters and the session leave alone, an event leaves alone. -/
theorem State.event_keeps {β : Type} {φ : State → β} (hsend : ∀ (t : State) (x : Sent), φ (t.send x) = φ t)
    (hwr : ∀ (t : State) (die blk off : Nat) (v : Word), φ (t.wr die blk off v) = φ t)
    (hctl : ∀ (t : State) (c : CtlState), φ { t with ctl := c } = φ t) (s : State) (typ subject : Nat) (step arg : Word)
    (body : List Byte) : φ (s.event typ subject step arg body) = φ s := by
  have hframe (t : State) (p : Path) (f : Frame) : φ (t.sendFrame p f) = φ t := by
    unfold State.sendFrame
    split
    · exact hsend _ _
    · rfl
    · split
      · split
        · rfl
        · exact (hwr _ _ _ _ _).trans ((hsend _ _).trans (hctl _ _))
      · exact (hwr _ _ _ _ _).trans (hsend _ _)
  have hevent (t : State) (e : Event) : φ (t.sendEvent e) = φ t := by
    unfold State.sendEvent
    dsimp only
    split_ifs
    · exact (hframe _ _ _).trans (hframe _ _ _)
    · exact hframe _ _ _
    · exact hframe _ _ _
    · rfl
  unfold State.event
  dsimp only
  rw [hevent, hwr, hwr, hctl]

theorem State.event_mem (s : State) (typ subject : Nat) (step arg : Word) (body : List Byte) :
    (s.event typ subject step arg body).mem = s.mem :=
  s.event_keeps State.send_mem State.wr_mem (fun _ _ => rfl) typ subject step arg body

theorem State.event_ckp (s : State) (typ subject : Nat) (step arg : Word) (body : List Byte) :
    (s.event typ subject step arg body).ckp = s.ckp :=
  s.event_keeps State.send_ckp State.wr_ckp (fun _ _ => rfl) typ subject step arg body

/-! ## Rows -/

theorem State.rowState_congr {s t : State} (h : t.mem = s.mem) (stack page sel : Nat) :
    t.rowState stack page sel = s.rowState stack page sel := by
  unfold State.rowState State.row State.pageRetired
  rw [h]

theorem State.rowState_countCorrected (s : State) (stack k page sel : Nat) :
    (s.countCorrected stack).rowState k page sel = s.rowState k page sel :=
  State.rowState_congr ((State.stackFault_mem _ _ _ (by decide)).trans (State.bump_mem _ _ _ _ _)) k page sel

section
variable {s : State} {stack page sel : Nat} (hawake : s.mem.asleep.contains stack = false) {x : Nat}
include hawake

theorem verifyRead_watched (h : s.rowState stack page sel = .watched x) (y : Option Nat) :
    verifyRead stack page sel y s = match y with
      | none => s.setRow (rowKey stack page sel) .clean
      | some y =>
        let t := s.countCorrected stack
        if x = y then (if t.remapFree stack sel then t.remapRow stack page sel else t.retireRow stack page sel)
        else t.setRow (rowKey stack page sel) (.watched y) := by
  have h' := (s.rowState_countCorrected stack stack page sel).trans h
  unfold verifyRead
  dsimp only
  rw [hawake, if_neg Bool.false_ne_true, h]
  cases y with
  | none => rfl
  | some y =>
    dsimp only
    rw [State.rowFailed, State.rowCorrected, h']

theorem verifyRead_remappedWatched (h : s.rowState stack page sel = .remappedWatched x) (y : Option Nat) :
    verifyRead stack page sel y s = match y with
      | none => s.setRow (rowKey stack page sel) .remapped
      | some y =>
        let t := s.countCorrected stack
        if x = y then t.retireRow stack page sel else t.setRow (rowKey stack page sel) (.remappedWatched y) := by
  have h' := (s.rowState_countCorrected stack stack page sel).trans h
  unfold verifyRead
  dsimp only
  rw [hawake, if_neg Bool.false_ne_true, h]
  cases y with
  | none => rfl
  | some y =>
    dsimp only
    rw [State.rowFailed, State.rowCorrected, h']

end

/-! ## Pages -/

theorem State.mem_poolFree {s : State} {stack pool : Nat} (h : pool ∈ s.poolFree stack) : 24512 ≤ pool ∧ pool < 24576 := by
  obtain ⟨k, hk, rfl⟩ := List.mem_map.mp (List.mem_filter.mp h).1
  have := List.mem_range.mp hk
  simp only [poolFirst]
  omega

theorem SMap.find?_put {β : Type} (m : SMap β) (k : Nat) (v : β) : (SMap.put m k v).find? (fun e => e.1 == k) = some (k, v) := by
  induction m with
  | nil => simp [SMap.put]
  | cons e m ih =>
    obtain ⟨j, w⟩ := e
    simp only [SMap.put]
    split_ifs with hlt heq
    · simp
    · simp
    · rw [List.find?_cons_of_neg (by simpa using fun e => heq e.symm), ih]

theorem State.substPage_mem (s : State) (stack page pool : Nat) : ∃ m po,
    (s.substPage stack page pool).mem = { s.mem with
      stack := m, poison := po, copying := NSet.del s.mem.copying (stack * 2 ^ 15 + page),
      subst := SMap.put s.mem.subst (stack * 2 ^ 15 + page) pool } := by
  unfold State.substPage
  dsimp only
  rw [State.event_mem, State.stackFault_mem _ _ _ (by decide), State.setField_mem]
  exact ⟨_, _, rfl⟩

theorem State.substPage_ckp (s : State) (stack page pool : Nat) : (s.substPage stack page pool).ckp = s.ckp := by
  unfold State.substPage
  dsimp only
  rw [State.event_ckp, State.stackFault_ckp _ _ _ (by decide), State.setField_ckp,
    State.bgBytes, State.bump_ckp, State.msbBump, State.bump_ckp]
  have hset (x : SMap Byte) (m : MemState) : ({ s.setStack x with mem := m } : State).ckp = s.ckp := rfl
  exact hset _ _

section
variable {s : State} {stack page : Nat}

theorem pageCopyDone_eq (hcopy : s.mem.copying.contains (stack * 2 ^ 15 + page) = true) {pool : Nat}
    (hpool : (s.poolFree stack).head? = some pool) (hguard : s.ckp.guardDue.contains (stack * 2 ^ 15 + page) = false)
    (hsleep : s.mem.sleepDue.contains stack = false) : pageCopyDone stack page s = s.substPage stack page pool := by
  obtain ⟨m, po, hmem⟩ := s.substPage_mem stack page pool
  obtain ⟨l, hl⟩ : ∃ l, s.poolFree stack = pool :: l := List.head?_eq_some_iff.mp hpool
  have hsleep' : (s.substPage stack page pool).mem.sleepDue.contains stack = false := by rw [hmem]; exact hsleep
  unfold pageCopyDone
  dsimp only
  rw [hcopy, if_neg (by simp), hl]
  dsimp only
  rw [State.substPage_ckp, hguard, if_neg Bool.false_ne_true, hsleep', if_neg Bool.false_ne_true]

end

/-- Settles O39. -/
theorem memoryMaintenance : Obligations.MemoryMaintenance := by
  refine ⟨fun s stack page sel hstack hpage hsel => ?_, fun s stack xp hstack hxp => ?_⟩
  · intro k pk
    have hverify (y : Option Nat) : exec (.verifyRead stack page sel y) s = .next (verifyRead stack page sel y s) :=
      onUnit_pos (decide_eq_true ⟨hstack, hpage, hsel⟩) _
    have hcopied : exec (.pageCopyDone stack page) s = .next (pageCopyDone stack page s) :=
      onUnit_pos (decide_eq_true ⟨hstack, hpage⟩) _
    refine ⟨fun hawake => ?_, fun pa y hpa hlast hawake => ?_, fun hcopy => exec_of_eq hcopied ?_, fun hcopy =>
      ⟨fun hpool => exec_of_eq hcopied ?_, fun pool hpool hguard hsleep => ?_⟩⟩
    · intro t
      refine ⟨fun x hx => ⟨?_, ?_, fun y hy => ?_⟩, fun x hx => ⟨?_, ?_, fun y hy => ?_⟩⟩
      · exact exec_of_eq (hverify none) (verifyRead_watched hawake hx none)
      · exact exec_of_eq (hverify (some x)) ((verifyRead_watched hawake hx (some x)).trans (if_pos rfl))
      · exact exec_of_eq (hverify (some y)) ((verifyRead_watched hawake hx (some y)).trans (if_neg (Ne.symm hy)))
      · exact exec_of_eq (hverify none) (verifyRead_remappedWatched hawake hx none)
      · exact exec_of_eq (hverify (some x)) ((verifyRead_remappedWatched hawake hx (some x)).trans (if_pos rfl))
      · exact exec_of_eq (hverify (some y)) ((verifyRead_remappedWatched hawake hx (some y)).trans (if_neg (Ne.symm hy)))
    · intro st off b
      have hread (z : Option Nat) (bad : Bool) : exec (.burnishRead pa z bad) s = .next (burnishRead pa z bad s) :=
        onUnit_pos (decide_eq_true hpa) _
      have hstay : ¬ (pa % stackBytes % pageBytes / 256 = pageBytes / 256 - 1 ∧
          (b.rd st 0x0F 0xC28).toNat = pa % stackBytes / pageBytes) := fun c => hlast c.1
      have hpast {bad : Bool} {z : Option Nat} {u : State} (h : (if bad then b.uncorrectable (pa / 256 * 256)
          else if b.mem.poison.contains (pa / 256) then (b.stackFault st 0x0501 (b.logicalOf pa)).poisonRecovery (pa / 256 * 256)
          else z.elim b fun y => (b.countCorrected st).rowCorrected st (off / pageBytes) (rowSel off) y) = u) :
          burnishRead pa z bad s = u := by
        rw [← h]
        unfold burnishRead
        dsimp only
        rw [hawake, if_neg Bool.false_ne_true, if_neg hstay]
        cases z <;> rfl
      refine ⟨fun hclean => ?_, exec_of_eq (hread none true) (hpast (if_pos rfl))⟩
      have hclean' : ¬ b.mem.poison.contains (pa / 256) = true := by
        rw [show b.mem = s.mem from State.bump_mem _ _ _ _ _, hclean]
        exact Bool.false_ne_true
      exact ⟨exec_of_eq (hread none false) (hpast ((if_neg Bool.false_ne_true).trans (if_neg hclean'))),
        exec_of_eq (hread (some y) false) (hpast ((if_neg Bool.false_ne_true).trans (if_neg hclean')))⟩
    · exact if_pos (by rw [hcopy]; rfl)
    · unfold pageCopyDone
      dsimp only
      rw [hcopy, if_neg (by simp), hpool]
    · obtain ⟨m, po, hmem⟩ := s.substPage_mem stack page pool
      refine ⟨exec_of_eq hcopied (pageCopyDone_eq hcopy hpool hguard hsleep), (State.mem_poolFree (List.mem_of_head? hpool)).1,
        (State.mem_poolFree (List.mem_of_head? hpool)).2, ?_, ?_⟩
      · rw [hmem]; exact SMap.find?_put _ _ _
      · rw [hmem]
  · have hentry : exec (.selfRefreshEntry stack) s = .next (s.sleepStack stack) := onUnit_pos (decide_eq_true hstack) _
    have hwake : exec (.selfRefreshWake stack) s = .next (s.wakeStack stack) := onUnit_pos (decide_eq_true hstack) _
    refine ⟨fun hon hquiet => ⟨fun hfree => exec_of_eq hentry ?_, fun hcopy => exec_of_eq hentry ?_⟩, fun hoff => exec_of_eq hentry ?_,
      fun hdue => ⟨fun hasleep => exec_of_eq hwake ?_, fun hawake => exec_of_eq hwake ?_⟩, fun c t hc => ?_,
      fun hthere => ?_, fun p hp => ?_⟩
    · have hgo : ¬ (s.field stack 0x0E 0x040 0 0 ≠ 1 ∨ (!s.stackQuiet stack) = true) := by simp [hon, hquiet]
      exact (if_neg hgo).trans (if_neg (fun h => Bool.false_ne_true (hfree.symm.trans h)))
    · have hgo : ¬ (s.field stack 0x0E 0x040 0 0 ≠ 1 ∨ (!s.stackQuiet stack) = true) := by simp [hon, hquiet]
      exact (if_neg hgo).trans (if_pos hcopy)
    · exact if_pos (.inl (by rw [hoff]; decide))
    · unfold State.wakeStack
      rw [hdue, if_neg Bool.false_ne_true]
      exact if_pos hasleep
    · unfold State.wakeStack
      rw [hdue, if_neg Bool.false_ne_true]
      exact if_neg (fun h => Bool.false_ne_true (hawake.symm.trans h))
    · intro u hthere
      have hexec : exec c s = .next (t.farFail xp) := by
        simp only [List.mem_cons, Prod.mk.injEq, List.not_mem_nil, or_false] at hc
        obtain ⟨rfl, rfl⟩ | ⟨rfl, rfl⟩ := hc <;> exact onUnit_pos (decide_eq_true hxp) _
      have hgo : ¬ t.mem.farLost.contains xp = true := fun h => Bool.false_ne_true (hthere.symm.trans h)
      refine ⟨fun hfirst => exec_of_eq hexec ?_, fun hsecond => exec_of_eq hexec ?_⟩
      · exact (if_neg hgo).trans (if_neg (fun h => Bool.false_ne_true (hfirst.symm.trans h)))
      · exact (if_neg hgo).trans (if_pos hsecond)
    · refine exec_of_eq (onUnit_pos (decide_eq_true hxp) _) ?_
      unfold cxlRetrain
      dsimp only
      rw [if_neg (fun h => h rfl), hthere, if_neg Bool.false_ne_true]
      rfl
    · exact exec_of_eq (onUnit_pos (decide_eq_true hxp) _) (if_pos hp)

end Sys2Proof.Machine
end

section
/-!
PROOFS. Checkpoints, restores and spares (R365, R370 to R372, R377 to R381, R384, R385).
-/
namespace Sys2Proof.Machine

/-! ## The boundary that a restore leads to -/

/-- A slot at the boundary of a step. -/
def boundarySlot (st : Step) (gen : Nat) (migrated : Bool) : SlotRun :=
  { phase := .computed, step := st, passed := st, gen := gen, migrated := migrated }

/-- Every slot in use stands at the boundary of a step. -/
def State.slotsAt (s : State) (st : Step) (gen : Nat) : State :=
  forEach s.usedSlots (fun n u => u.setSlot n (boundarySlot st gen (u.slot n).migrated)) s

/-- The ledger and the slots behind a placement: the step is released, and every slot stands at its boundary. -/
def State.placed (s : State) (st : Step) : State :=
  let gen := s.genOf st
  let r : StepRec := { step := st, gen := gen, phase := .released, sent := true }
  ({ s with ldg := { s.ldg with
    recs := [r], base := st, newestReleased := st, newestSealed := st, newestOpened := st,
    defers := s.ldg.defers.filter (fun d => decide (d.step ≤ st)) } }).slotsAt st gen

/-- The restore report of a placement. -/
def State.restoreStat (s : State) : Nat :=
  inFld 63 63 1 + inFld 62 62 (if s.ckp.narrowUsed then 1 else 0) + inFld 55 48 (Nat.min 255 s.ckp.refused)
    + inFld 2 0 s.ckp.tiersUsed

/-- The state in which a placement has been reported. -/
def State.placementTold (s : State) (st : Step) : State :=
  let stat := s.restoreStat
  let t := ((s.wr 62 0x20 0x240 (stepWord st)).wr 62 0x20 0x248 (BitVec.ofNat 64 stat)).wr 62 0x20 0x078 (stepWord st)
  let t := t.wr 62 0x20 0x0A8 (BitVec.ofNat 64 t.ldg.defers.length)
  ({ t with ckp := { t.ckp with
    restoring := 0, narrowStep := if t.ckp.narrowUsed then some st else none } }).event 0x0013 0 (stepWord st) (BitVec.ofNat 64 stat)

theorem placementDone_eq {s : State} (h : s.ckp.restoring = 2) (hsrc : s.ckpSrc = none) :
    placementDone s = (s.placed s.ckp.pick).placementTold s.ckp.pick := by
  have hwant : s.compSlots.filter (fun n => s.ckpSrc.isSome && s.sameShape n s.ckp.pick) = [] := by
    simp [hsrc]
  have hall : ¬ (!(s.compSlots.filter (fun n => s.ckpSrc.isSome && s.sameShape n s.ckp.pick)).all
      (fun n => (s.bestCopy n s.ckp.pick).isSome)) = true := by rw [hwant]; simp
  refine (if_neg (show ¬ s.ckp.restoring ≠ 2 from fun c => c h)).trans ((if_neg hall).trans ?_)
  rw [hwant]
  rfl

theorem State.event_ldg (s : State) (typ subject : Nat) (step arg : Word) (body : List Byte) :
    (s.event typ subject step arg body).ldg = s.ldg :=
  s.event_keeps State.send_ldg State.wr_ldg (fun _ _ => rfl) typ subject step arg body

theorem State.event_slots (s : State) (typ subject : Nat) (step arg : Word) (body : List Byte) :
    (s.event typ subject step arg body).slots = s.slots :=
  s.event_keeps State.send_slots State.wr_slots (fun _ _ => rfl) typ subject step arg body

theorem State.ldg_withCkp (s : State) (c : CkpState) : ({ s with ckp := c } : State).ldg = s.ldg := rfl
theorem State.slots_withCkp (s : State) (c : CkpState) : ({ s with ckp := c } : State).slots = s.slots := rfl

theorem State.placementTold_ldg (s : State) (st : Step) : (s.placementTold st).ldg = s.ldg := by
  unfold State.placementTold
  rw [State.event_ldg, State.ldg_withCkp, State.wr_ldg, State.wr_ldg, State.wr_ldg, State.wr_ldg]

theorem State.placementTold_slots (s : State) (st : Step) : (s.placementTold st).slots = s.slots := by
  unfold State.placementTold
  rw [State.event_slots, State.slots_withCkp, State.wr_slots, State.wr_slots, State.wr_slots, State.wr_slots]

theorem State.placementTold_restoring (s : State) (st : Step) : (s.placementTold st).ckp.restoring = 0 := by
  unfold State.placementTold
  rw [State.event_ckp]

theorem State.slot_setSlot_self (s : State) (k : Nat) {r : SlotRun} (h : r ≠ {}) : (s.setSlot k r).slot k = r :=
  SMap.get_set_new h

theorem State.slotsAt_ldg (s : State) (st : Step) (gen : Nat) : (s.slotsAt st gen).ldg = s.ldg :=
  forEach_keeps (φ := State.ldg) (fun n u => u.setSlot_ldg n _) _ s

/-- A slot written stands at its boundary, and stays there when others are written. -/
theorem State.slotsAt_slot (s : State) (st : Step) (gen : Nat) {n : Nat} (h : n ∈ s.usedSlots) :
    ((s.slotsAt st gen).slot n).phase = .computed ∧ ((s.slotsAt st gen).slot n).step = st ∧ ((s.slotsAt st gen).slot n).passed = st := by
  have hwrite (u : State) (k : Nat) (m : Bool) : (u.setSlot k (boundarySlot st gen m)).slot k = boundarySlot st gen m :=
    u.slot_setSlot_self k fun e => by cases congrArg SlotRun.phase e
  have hloop (l : List Nat) (u : State) (hu : n ∈ l ∨ ((u.slot n).phase = .computed ∧ (u.slot n).step = st ∧ (u.slot n).passed = st)) :
      let t := forEach l (fun n u => u.setSlot n (boundarySlot st gen (u.slot n).migrated)) u
      (t.slot n).phase = .computed ∧ (t.slot n).step = st ∧ (t.slot n).passed = st := by
    induction l generalizing u with
    | nil => exact hu.resolve_left (List.not_mem_nil)
    | cons k l ih =>
      refine ih _ ?_
      by_cases hk : n = k
      · subst hk
        exact .inr (by rw [hwrite]; exact ⟨rfl, rfl, rfl⟩)
      · rw [State.slot_setSlot_ne u _ hk]
        exact hu.imp_left fun hm => (List.mem_cons.mp hm).resolve_left hk
  exact hloop s.usedSlots s (.inl h)

/-! ## A tier-0 copy -/

/-- A tile of a slot's protected generation is poisoned or fails its hallmark. -/
def State.copyBad (s : State) (sid : Nat) (st : Step) : Bool :=
  let v := s.asProtected
  let die := s.slotDie sid
  let pp (t : Tensor) : Nat := if aSpace t.base = 1 then 2 else 0
  (s.carried sid).any (fun t => (List.range t.tiles).any (fun i =>
    v.poisonLoc (v.tileLoc die st t (pp t) i) (tileBytes t.fmt) || v.poisonLoc (v.hmLoc die st t (pp t) i) 4
      || !v.tileOk die st t (pp t) i st))

/-- The ingot of a slot stands in its bay. -/
def State.copyLaid (s : State) (sid : Nat) (st : Step) (b : Nat) : State :=
  let bs := s.asProtected.ingot sid st 0
  let a := s.bayPa (s.slotStack sid) b + 2 ^ 20
  ((s.stN a bs).ingotPoison s.asProtected sid st (.near a)).bgBytes (s.slotStack sid) bs.length

/-- The bay of a laid ingot is marked as its check found it, and a failure is recorded. -/
def State.copyMarked (s : State) (die x b : Nat) (bad : Bool) : State :=
  let t := s.setBay x b { s.bay x b with st := if bad then 3 else 2 }
  if bad then t.raiseAs die 0x0411 2 { typ := 0x07, inst := x } else t

theorem State.sealCopy_eq (s : State) (sid : Nat) (st : Step) (b : Nat) :
    let t := (s.copyLaid sid st b).copyMarked (s.slotDie sid) (s.slotStack sid) b (s.copyBad sid st)
    s.sealCopy sid st b = ({ t with ckp := { t.ckp with copiedSlots := NSet.add t.ckp.copiedSlots sid } }).landHeld := by
  have hbad : ((s.carried sid).any fun t => (List.range t.tiles).any fun i =>
      s.asProtected.poisonLoc (s.asProtected.tileLoc (s.slotDie sid) st t (if aSpace t.base = 1 then 2 else 0) i) (tileBytes t.fmt)
        || s.asProtected.poisonLoc (s.asProtected.hmLoc (s.slotDie sid) st t (if aSpace t.base = 1 then 2 else 0) i) 4
        || !s.asProtected.tileOk (s.slotDie sid) st t (if aSpace t.base = 1 then 2 else 0) i st) = s.copyBad sid st := rfl
  have hlaid : ((s.stN (s.bayPa (s.slotStack sid) b + 2 ^ 20) (s.asProtected.ingot sid st 0)).ingotPoison s.asProtected sid st
      (.near (s.bayPa (s.slotStack sid) b + 2 ^ 20))).bgBytes (s.slotStack sid) (s.asProtected.ingot sid st 0).length =
      s.copyLaid sid st b := rfl
  have hmarked (u : State) (bad : Bool) :
      (if bad then (u.setBay (s.slotStack sid) b { u.bay (s.slotStack sid) b with st := if bad then 3 else 2 }).raiseAs
        (s.slotDie sid) 0x0411 2 { typ := 0x07, inst := s.slotStack sid }
      else u.setBay (s.slotStack sid) b { u.bay (s.slotStack sid) b with st := if bad then 3 else 2 }) =
      u.copyMarked (s.slotDie sid) (s.slotStack sid) b bad := rfl
  unfold State.sealCopy
  dsimp only
  rw [hbad, hlaid, hmarked]

/-- Settles O41. -/
theorem checkpointCommands : Obligations.CheckpointCommands := by
  intro s sid hsid
  refine ⟨fun st b hprot hcomp hcopied hpage hbay => ?_, fun stack block hstack hblock hprot => ?_, fun p hp hbays hsafe hjob => ?_,
    fun hrest hsrc => ?_, fun hvia => ?_, fun hvia hlow hused hout => ⟨fun hspare => ?_, fun spare hspare => ⟨fun hreach => ?_,
    fun hreach hjob => ?_⟩⟩, fun hsub hpage => ?_⟩
  · intro x die v pp bad bs a t0 t1 t2 t last
    have hgo : ¬ (!s.compSlots.contains sid || s.ckp.copiedSlots.contains sid ||
        s.mem.copying.any (fun k => k / 2 ^ 15 == s.slotStack sid)) = true := by
      rw [hcomp, hcopied, hpage]; decide
    have hbad : s.copyBad sid st = bad := rfl
    have hlaid : s.copyLaid sid st b = t0 := rfl
    have hmarked : t0.copyMarked die x b bad = t2 := rfl
    have ht : s.sealCopy sid st b = t := by
      rw [State.sealCopy_eq, hbad, hlaid, hmarked]
    have heq : tier0Done sid s = if !last then t else if t.copyFailed st then t.endProtect else t.completeSet st := by
      show _ = if !(t.compSlots.all fun n => t.ckp.copiedSlots.contains n) then t
        else if t.copyFailed st then t.endProtect else t.completeSet st
      rw [← ht]
      unfold tier0Done
      rw [hprot]
      refine (if_neg hgo).trans ?_
      dsimp only
      rw [hbay]
    have hexec : exec (.tier0CopyDone sid) s = .next (tier0Done sid s) := onUnit_pos (decide_eq_true hsid) _
    refine ⟨fun hl => exec_of_eq hexec ?_, fun hl hf => exec_of_eq hexec ?_, fun hl hf => exec_of_eq hexec ?_⟩
    · rw [heq, hl]; rfl
    · rw [heq, hl, hf]; rfl
    · rw [heq, hl, hf]; rfl
  · intro k
    have hexec : exec (.guardCopy stack block) s = .next (guardCopy stack block s) := onUnit_pos (decide_eq_true ⟨hstack, hblock⟩) _
    have hsome : ¬ s.ckp.protectedStep.isNone = true := by
      rw [Option.isNone_iff_eq_none]
      rintro h
      rw [h] at hprot
      cases hprot
    refine ⟨fun h => exec_of_eq hexec (if_pos (.inr h)), fun h hc => exec_of_eq hexec ?_, fun h hc => exec_of_eq hexec ?_⟩
    · exact (if_neg (not_or.mpr ⟨hsome, h⟩)).trans (if_pos hc)
    · exact (if_neg (not_or.mpr ⟨hsome, h⟩)).trans (if_neg (fun c => Bool.false_ne_true (hc.symm.trans c)))
  · intro t u v c
    have hepoch : s.raiseEpoch.jobIn = true := hjob
    refine exec_of_eq (t := restoreWrite s) (congrArg _ (if_neg hp)) ?_
    unfold restoreWrite
    dsimp only
    rw [hbays, hjob, hepoch, if_neg Bool.false_ne_true, if_neg hsafe, if_neg (by simp), if_neg (by simp)]
    rfl
  · have hldg : ((s.placed s.ckp.pick).placementTold s.ckp.pick).ldg = (s.placed s.ckp.pick).ldg :=
      State.placementTold_ldg _ _
    have hplaced := State.slotsAt_ldg ({ s with ldg := { s.ldg with
      recs := [{ step := s.ckp.pick, gen := s.genOf s.ckp.pick, phase := .released, sent := true }], base := s.ckp.pick,
      newestReleased := s.ckp.pick, newestSealed := s.ckp.pick, newestOpened := s.ckp.pick,
      defers := s.ldg.defers.filter (fun d => decide (d.step ≤ s.ckp.pick)) } }) s.ckp.pick (s.genOf s.ckp.pick)
    have hslots : ((s.placed s.ckp.pick).placementTold s.ckp.pick).slots = (s.placed s.ckp.pick).slots :=
      State.placementTold_slots _ _
    refine ⟨_, exec_of_eq (t := placementDone s) rfl (placementDone_eq hrest hsrc), ?_, ?_, ?_, fun n hn => ?_⟩
    · exact State.placementTold_restoring _ _
    · exact (congrArg LedgerState.newestSealed hldg).trans (congrArg LedgerState.newestSealed hplaced)
    · exact (congrArg LedgerState.newestReleased hldg).trans (congrArg LedgerState.newestReleased hplaced)
    · rw [State.slot, hslots]
      exact State.slotsAt_slot _ _ _ hn
  · exact exec_of_eq (onUnit_pos (decide_eq_true hsid) _) (if_pos hvia)
  · refine exec_of_eq (onUnit_pos (decide_eq_true hsid) _) ?_
    have hgo : ¬ (!decide (sid < 48) || !s.slotUsed sid || !(s.dieOut (s.slotDie sid) ||
        ((s.slot sid).moveDue && ((s.slot sid).phase == .idle || (s.slot sid).phase == .computed)))) = true := by
      simp [hlow, hused, hout]
    refine (if_neg (fun c => Bool.false_ne_true (hvia.symm.trans c))).trans ((if_neg hgo).trans ?_)
    dsimp only
    rw [hspare]
  · refine exec_of_eq (onUnit_pos (decide_eq_true hsid) _) ?_
    have hgo : ¬ (!decide (sid < 48) || !s.slotUsed sid || !(s.dieOut (s.slotDie sid) ||
        ((s.slot sid).moveDue && ((s.slot sid).phase == .idle || (s.slot sid).phase == .computed)))) = true := by
      simp [hlow, hused, hout]
    refine (if_neg (fun c => Bool.false_ne_true (hvia.symm.trans c))).trans ((if_neg hgo).trans ?_)
    dsimp only
    rw [hspare]
    exact if_pos (by rw [hreach]; rfl)
  · intro die w t0 t1 t
    refine exec_of_eq (onUnit_pos (decide_eq_true hsid) _) ?_
    have hgo : ¬ (!decide (sid < 48) || !s.slotUsed sid || !(s.dieOut (s.slotDie sid) ||
        ((s.slot sid).moveDue && ((s.slot sid).phase == .idle || (s.slot sid).phase == .computed)))) = true := by
      simp [hlow, hused, hout]
    refine (if_neg (fun c => Bool.false_ne_true (hvia.symm.trans c))).trans ((if_neg hgo).trans ?_)
    dsimp only
    rw [hspare]
    dsimp only
    rw [hreach, hjob, if_neg (by decide), Bool.false_and, if_neg Bool.false_ne_true, if_neg Bool.false_ne_true]
  · refine exec_of_eq (onUnit_pos (decide_eq_true hsid) _) (if_pos ?_)
    rw [hsub, hpage]
    rfl

end Sys2Proof.Machine
end

section
/-!
PROOFS. Plan loads, swaps and shadow pages (R51 to R56, R59, R279, R291, R482, R488).
-/
namespace Sys2Proof.Machine

/-! ## The commands of a path other than the management port -/

theorem ctlPath_of_ne_mgmt {p : Path} (hp : p ≠ .mgmt) : ctlPath p = true := by
  simp [ctlPath, hp]

theorem State.shadowBusy_of_loading {s : State} (h : s.plan.shadow = .loading) : s.shadowBusy = false := by
  rw [State.shadowBusy, h]; rfl

theorem State.shadowBusy_of_locked_or_pending {s : State} (h : s.plan.shadow = .locked ∨ s.plan.shadow = .pending) :
    s.shadowBusy = true := by
  rcases h with h | h <;> (rw [State.shadowBusy, h]; rfl)

/-- A chunk of a slot's image reaches a set that is being loaded. -/
theorem planData_of_loading {s t : State} {p : Path} {f g : Frame} (hr : s.recv p f 0x04 = (t, some g)) (hm : p ≠ .mgmt)
    (hf : p ≠ .firmware) (haddr : g.addr / 2 ^ 24 = 0) (hobj : g.addr % 256 = 0) (hload : t.plan.shadow = .loading) :
    planData p f s =
      (t.chunkIn (t.imageSid (g.addr / 2 ^ 8 % 256) (g.addr / 2 ^ 16 % 256)) g.aux g.data).respond p g 0 0 := by
  unfold planData
  rw [hr]
  dsimp only
  rw [hobj, if_neg (not_or.mpr ⟨hm, hf⟩), if_neg (by rw [haddr]; decide), if_neg (by decide),
    if_neg (fun h => h.2.2.1 hload), if_neg (not_not_intro hload), if_neg (by decide)]

/-- The route entries of one link die, written from the bytes of an image (R279). -/
def routePut (bytes : List Byte) (d : Nat) (t : State) : State :=
  forN 65536 (fun i u =>
    let w := wordAt bytes i
    if routeLegal w then
      let r := SMap.set (fun _ => BitVec.ofNat 64 (2 ^ 64 - 1)) u.net.routes (d * 2 ^ 16 + i) w
      { u with net := { u.net with routes := r } }
    else u.reject d 0 0x108 (if bitAt w 48 then rejReserved else rejRange)) t

/-- Ends the application of a route image: the image is dropped, and ROUTES_APPLIED is sent. -/
def State.routesApplied (t : State) : State :=
  (({ t with plan := { t.plan with route := [] } }).event 0x0007 0 0 0).flushWaiting

/-- Every link die's entries, from the image that is held. -/
def State.routesPut (s : State) : State :=
  forEach [48, 49, 50, 51, 52, 53, 54, 55] (routePut (s.plan.route.map (fun e => BitVec.ofNat 8 (e.2 - 1)))) s

theorem routeApply_of_whole {s : State} (h : 2 ^ 19 ≤ s.plan.route.length) :
    routeApply s = s.routesPut.routesApplied := by
  unfold routeApply State.routesPut State.routesApplied routePut
  rw [if_neg (Nat.not_lt.mpr h)]

theorem routeApply_of_short {s : State} (h : s.plan.route.length < 2 ^ 19) : routeApply s = s := if_pos h

/-! ## Requests for a swap -/

/-- A request not yet announced is marked with the reason for its cancellation. -/
theorem State.cancelSwap_of_unannounced {s : State} {q : SwapReq} (h : s.plan.swap = some q) (ha : q.announced = false)
    (hc : q.cancel = 0) (reason : Nat) :
    s.cancelSwap reason = { s with plan := { s.plan with swap := some { q with cancel := reason } } } := by
  unfold State.cancelSwap
  split
  next hn => rw [h] at hn; cases hn
  next q' hq =>
    rw [h] at hq
    cases hq
    exact if_neg (by rw [ha, hc]; decide)

/-- An announced request is past cancellation. -/
theorem State.cancelSwap_of_announced {s : State} {q : SwapReq} (h : s.plan.swap = some q) (ha : q.announced = true)
    (reason : Nat) : s.cancelSwap reason = s := by
  unfold State.cancelSwap
  rw [h]
  exact if_pos (Or.inl ha)

/-! ## The commands of a page -/

theorem State.blkCmd_of_no_access {s : State} {p : Path} {die blk : Nat} (ht : s.pageThere die blk = true)
    (ha : blkAccess p blk = false) (c : Nat) : s.blkCmd p die blk c = s.reject die blk 0x018 rejAccess := by
  simp [State.blkCmd, ht, ha]

theorem State.blkCmd_of_access {s : State} {p : Path} {die blk : Nat} (ht : s.pageThere die blk = true)
    (ha : blkAccess p blk = true) (c : Nat) : s.blkCmd p die blk c = (s.blkCtl die blk (BitVec.ofNat 64 c)).1 := by
  simp [State.blkCmd, ht, ha]

/-- SHADOW_LOAD of a page that is neither ARMED nor PENDING copies its swapped registers. -/
theorem State.blkCtl_shadowLoad {s : State} {die blk : Nat} (h1 : s.swapState die blk ≠ 1) (h2 : s.swapState die blk ≠ 2) :
    (s.blkCtl die blk (BitVec.ofNat 64 1)).1 = s.shadowLoad die blk := by
  unfold State.blkCtl
  rw [show fld (BitVec.ofNat 64 1) 2 0 = 1 from by decide]
  dsimp only
  rw [if_pos rfl, if_neg (not_or.mpr ⟨h1, h2⟩)]

theorem State.blkCtl_shadowLoad_armed {s : State} {die blk : Nat} (h : s.swapState die blk = 1 ∨ s.swapState die blk = 2) :
    (s.blkCtl die blk (BitVec.ofNat 64 1)).1 = s.reject die blk 0x018 rejShadow := by
  unfold State.blkCtl
  rw [show fld (BitVec.ofNat 64 1) 2 0 = 1 from by decide]
  dsimp only
  rw [if_pos rfl, if_pos h]

theorem State.blkCtl_disarm (s : State) (die blk : Nat) : (s.blkCtl die blk (BitVec.ofNat 64 4)).1 = s.disarm die blk := by
  unfold State.blkCtl
  rw [show fld (BitVec.ofNat 64 4) 2 0 = 4 from by decide]
  rfl

/-- Settles O42: each load command by the state of the shadow set, a swap request by R54, and each BLK_CTL command by the
path's access and the page's SWAP_STATE. -/
theorem planSwapsAndShadowPages : Obligations.PlanSwapsAndShadowPages := by
  refine ⟨fun s p hp => ?_, fun s p die blk hd hb ht => ?_⟩
  · have hctl := ctlPath_of_ne_mgmt hp
    refine ⟨fun gen hg hb => ?_, fun hl hr => ?_, fun c hl hr => ?_, fun hb => ?_, fun hb => ?_, fun f g t hr hf ha ho hl => ?_,
      fun h => ?_, fun h => ?_, ⟨fun h => ?_, fun h => ?_⟩, fun q hq ha hc => ?_, fun q hq ha => ?_⟩
    · refine exec_of_eq rfl ((if_pos hctl).trans ?_)
      rw [Nat.mod_eq_of_lt hg]
      exact if_neg (fun h => Bool.false_ne_true (hb.symm.trans h))
    · refine exec_of_eq rfl ((if_pos hctl).trans ?_)
      unfold plnLoadCommit
      rw [if_neg (by rw [State.shadowBusy_of_loading hl]; decide), if_neg (not_not_intro hl), hr]
    · refine exec_of_eq rfl ((if_pos hctl).trans ?_)
      unfold plnLoadCommit
      rw [if_neg (by rw [State.shadowBusy_of_loading hl]; decide), if_neg (not_not_intro hl), hr]
    · exact exec_of_eq rfl ((if_pos hctl).trans (if_neg (fun h => Bool.false_ne_true (hb.symm.trans h))))
    · have hbusy := State.shadowBusy_of_locked_or_pending hb
      exact ⟨exec_of_eq rfl ((if_pos hctl).trans (if_pos hbusy)), exec_of_eq rfl ((if_pos hctl).trans (if_pos hbusy))⟩
    · exact exec_of_eq rfl (planData_of_loading hr hp hf ha ho hl)
    · exact exec_of_eq rfl (routeApply_of_short h)
    · intro bytes put t
      have hput : s.routesPut = t := rfl
      exact exec_of_eq rfl ((routeApply_of_whole h).trans (congrArg State.routesApplied hput))
    · exact exec_of_eq rfl ((if_pos hctl).trans (if_pos h))
    · exact exec_of_eq rfl ((if_pos hctl).trans (if_neg (fun hk => Bool.false_ne_true (h.symm.trans hk))))
    · exact ⟨exec_of_eq rfl ((if_pos hctl).trans (State.cancelSwap_of_unannounced hq ha hc 2)),
        exec_of_eq rfl (State.cancelSwap_of_unannounced hq ha hc 1)⟩
    · exact ⟨exec_of_eq rfl ((if_pos hctl).trans (State.cancelSwap_of_announced hq ha 2)),
        exec_of_eq rfl (State.cancelSwap_of_announced hq ha 1)⟩
  · have hunit := decide_eq_true (And.intro hd hb)
    refine ⟨fun hp h1 h2 => ?_, fun hp => ?_⟩
    · have hno : blkAccess p blk = false := by simp [blkAccess, hp, h1, h2]
      exact ⟨exec_of_eq (onUnit_pos hunit _) (State.blkCmd_of_no_access ht hno 1),
        exec_of_eq (onUnit_pos hunit _) (State.blkCmd_of_no_access ht hno 2),
        exec_of_eq (onUnit_pos hunit _) (State.blkCmd_of_no_access ht hno 4)⟩
    · have hin := State.blkCmd_of_access (p := p) ht (blkAccess_of_ne_mgmt blk hp)
      refine ⟨fun h1 h2 => ?_, fun h => ?_, fun h => ?_, fun h => ?_⟩
      · exact exec_of_eq (onUnit_pos hunit _) ((hin 1).trans (State.blkCtl_shadowLoad h1 h2))
      · exact exec_of_eq (onUnit_pos hunit _) ((hin 1).trans (State.blkCtl_shadowLoad_armed h))
      · exact exec_of_eq (onUnit_pos hunit _) ((hin 4).trans ((State.blkCtl_disarm s die blk).trans (if_neg h)))
      · exact exec_of_eq (onUnit_pos hunit _) ((hin 4).trans ((State.blkCtl_disarm s die blk).trans (if_pos h)))

end Sys2Proof.Machine
end

section
/-!
PROOFS. Register writes (R483, R485): the fields of a register's row, what a write leaves in each of them, and the answer to
a REG_WRITE of one register (R278).
-/
namespace Sys2Proof.Machine

/-! ## The rows of the register maps -/

/-- A row's fields lie in 64 bits, each field above the next, and an RW1C field is one bit. -/
def RegRow.laidOut (r : RegRow) : Bool :=
  r.fields.all (fun f => decide (f.lo ≤ f.hi) && decide (f.hi < 64) && (f.kind != .rw1c || decide (f.hi = f.lo)))
    && decide (r.fields.Pairwise (fun f g => g.hi < f.lo))

theorem commonRows_laidOut : commonRows.all RegRow.laidOut = true := by decide +kernel

theorem all_ite {α : Type} {c : Prop} [Decidable c] {l m : List α} {p : α → Bool} (hl : l.all p = true)
    (hm : m.all p = true) : (if c then l else m).all p = true := by
  split
  · exact hl
  · exact hm

theorem pageRows_laidOut (die ty : Nat) : (pageRows die ty).all RegRow.laidOut = true := by
  have hdie : dieRows.all RegRow.laidOut = true := by decide +kernel
  have hlink : linkDieRows.all RegRow.laidOut = true := by decide +kernel
  have hmgmt : mgmtDieRows.all RegRow.laidOut = true := by decide +kernel
  have hcore : coreRows.all RegRow.laidOut = true := by decide +kernel
  have harray : arrayRows.all RegRow.laidOut = true := by decide +kernel
  have hvector : vectorRows.all RegRow.laidOut = true := by decide +kernel
  have hengine : engineRows.all RegRow.laidOut = true := by decide +kernel
  have hchannel : channelRows.all RegRow.laidOut = true := by decide +kernel
  have hstack : stackRows.all RegRow.laidOut = true := by decide +kernel
  have hfabric : fabricRows.all RegRow.laidOut = true := by decide +kernel
  have hbraze : brazeRows.all RegRow.laidOut = true := by decide +kernel
  have hctl : ctlRows.all RegRow.laidOut = true := by decide +kernel
  have hcxl : cxlRows.all RegRow.laidOut = true := by decide +kernel
  have hledger : ledgerRows.all RegRow.laidOut = true := by decide +kernel
  have hfault : faultRows.all RegRow.laidOut = true := by decide +kernel
  have hpower : powerRows.all RegRow.laidOut = true := by decide +kernel
  have hsecurity : securityRows.all RegRow.laidOut = true := by decide +kernel
  have hsync : syncRows.all RegRow.laidOut = true := by decide +kernel
  exact all_ite (all_ite hmgmt (all_ite hlink hdie)) <| all_ite hcore <| all_ite harray <| all_ite hvector <|
    all_ite hengine <| all_ite hchannel <| all_ite hstack <| all_ite hfabric <| all_ite hbraze <| all_ite hctl <|
    all_ite hcxl <| all_ite hledger <| all_ite hfault <| all_ite hpower <| all_ite hsecurity <| all_ite hsync rfl

theorem laidOut_of_findRow {rows : List RegRow} (h : rows.all RegRow.laidOut = true) {off : Nat} {r : RegRow}
    (hr : findRow rows off = some r) : r.laidOut = true :=
  List.all_eq_true.mp h r (List.mem_of_find?_eq_some hr)

theorem laidOut_of_rowOf {die blk off : Nat} {r : RegRow} (h : rowOf die blk off = some r) : r.laidOut = true := by
  unfold rowOf at h
  split at h
  · cases h
  · split at h
    · cases h
    · unfold rowAt at h
      split at h
      · exact laidOut_of_findRow commonRows_laidOut h
      · exact laidOut_of_findRow (pageRows_laidOut _ _) h

/-- A field of a row that is laid out, and the bits that are left to the fields after it. -/
structure FieldFits (f : RegField) : Prop where
  le : f.lo ≤ f.hi
  lt : f.hi < 64
  bit : f.kind = .rw1c → f.hi = f.lo

theorem RegRow.laidOut_iff (r : RegRow) :
    r.laidOut = true ↔ (∀ f ∈ r.fields, FieldFits f) ∧ r.fields.Pairwise (fun f g => g.hi < f.lo) := by
  have hfit (f : RegField) :
      (decide (f.lo ≤ f.hi) && decide (f.hi < 64) && (f.kind != .rw1c || decide (f.hi = f.lo))) = true ↔ FieldFits f := by
    constructor
    · intro h
      simp only [Bool.and_eq_true, decide_eq_true_eq, Bool.or_eq_true, bne_iff_ne] at h
      exact ⟨h.1.1, h.1.2, fun hk => h.2.resolve_left (not_not_intro hk)⟩
    · intro h
      simp only [Bool.and_eq_true, decide_eq_true_eq, Bool.or_eq_true, bne_iff_ne]
      exact ⟨⟨h.le, h.lt⟩, (Decidable.em (f.kind = .rw1c)).elim (fun hk => .inr (h.bit hk)) .inl⟩
  simp [RegRow.laidOut, hfit, List.all_eq_true]

/-! ## A write, field by field -/

/-- One field of a write, as `written` treats it. -/
def writeField (v w : Word) (f : RegField) : Word :=
  match f.kind with
  | .ro => w
  | .wo => setFld w f.hi f.lo 0
  | .rw => setFld w f.hi f.lo (fld v f.hi f.lo)
  | .rw1c => if fld v f.hi f.lo = 1 then setFld w f.hi f.lo 0 else w

/-- The value of a field after a write, from the value written and the one before. -/
def fieldAfter (k : FieldKind) (new old : Nat) : Nat :=
  match k with
  | .ro => old
  | .wo => 0
  | .rw => new
  | .rw1c => if new = 1 then 0 else old

theorem written_eq_foldl (r : RegRow) (old v : Word) : written r old v = r.fields.foldl (writeField v) old := rfl

theorem fld_setFld_of_apart (w : Word) {hi lo h l : Nat} (v : Nat) (hlo : lo ≤ hi) (hhi : hi < 64) (hl : l ≤ h)
    (hd : h < lo ∨ hi < l) : fld (setFld w hi lo v) h l = fld w h l :=
  hd.elim (fun hb => fld_setFld_of_below w v hlo hhi hl hb) (fun ha => fld_setFld_of_above w v hlo hhi ha)

theorem fld_writeField_self (v w : Word) {f : RegField} (hf : FieldFits f) :
    fld (writeField v w f) f.hi f.lo = fieldAfter f.kind (fld v f.hi f.lo) (fld w f.hi f.lo) := by
  unfold writeField fieldAfter
  cases f.kind with
  | ro => rfl
  | wo => exact (fld_setFld_self _ _ hf.le hf.lt).trans (Nat.zero_mod _)
  | rw => exact (fld_setFld_self _ _ hf.le hf.lt).trans (Nat.mod_mod _ _)
  | rw1c =>
    dsimp only
    split
    · exact (fld_setFld_self _ _ hf.le hf.lt).trans (Nat.zero_mod _)
    · rfl

theorem fld_writeField_of_apart (v w : Word) {f : RegField} (hf : FieldFits f) {h l : Nat} (hl : l ≤ h)
    (hd : h < f.lo ∨ f.hi < l) : fld (writeField v w f) h l = fld w h l := by
  unfold writeField
  cases f.kind with
  | ro => rfl
  | wo => exact fld_setFld_of_apart w _ hf.le hf.lt hl hd
  | rw => exact fld_setFld_of_apart w _ hf.le hf.lt hl hd
  | rw1c =>
    dsimp only
    split
    · exact fld_setFld_of_apart w _ hf.le hf.lt hl hd
    · rfl

/-- Bits that no field covers keep their value. -/
theorem fld_foldl_writeField_of_apart (v : Word) {h l : Nat} (hl : l ≤ h) {fs : List RegField} (hfit : ∀ f ∈ fs, FieldFits f)
    (hd : ∀ f ∈ fs, h < f.lo ∨ f.hi < l) (w : Word) : fld (fs.foldl (writeField v) w) h l = fld w h l := by
  induction fs generalizing w with
  | nil => rfl
  | cons g gs ih =>
    have hrest := ih (fun f hf => hfit f (List.mem_cons_of_mem g hf)) (fun f hf => hd f (List.mem_cons_of_mem g hf))
    rw [List.foldl_cons, hrest, fld_writeField_of_apart v w (hfit g List.mem_cons_self) hl (hd g List.mem_cons_self)]

/-- Each field of a row takes the value its kind gives it. -/
theorem fld_foldl_writeField (v : Word) {fs : List RegField} (hfit : ∀ f ∈ fs, FieldFits f)
    (hord : fs.Pairwise (fun f g => g.hi < f.lo)) (w : Word) {f : RegField} (hf : f ∈ fs) :
    fld (fs.foldl (writeField v) w) f.hi f.lo = fieldAfter f.kind (fld v f.hi f.lo) (fld w f.hi f.lo) := by
  induction fs generalizing w with
  | nil => cases hf
  | cons g gs ih =>
    obtain ⟨hbelow, hgs⟩ := List.pairwise_cons.mp hord
    have hfitgs : ∀ f ∈ gs, FieldFits f := fun f hf => hfit f (List.mem_cons_of_mem g hf)
    have hg := hfit g List.mem_cons_self
    rw [List.foldl_cons]
    rcases List.mem_cons.mp hf with rfl | hmem
    · rw [fld_foldl_writeField_of_apart v hg.le hfitgs (fun k hk => Or.inr (hbelow k hk)), fld_writeField_self v w hg]
    · rw [ih hfitgs hgs _ hmem, fld_writeField_of_apart v w hg (hfitgs f hmem).le (Or.inl (hbelow f hmem))]

theorem fld_written {die blk off : Nat} {r : RegRow} (hr : rowOf die blk off = some r) (old v : Word) {f : RegField}
    (hf : f ∈ r.fields) : fld (written r old v) f.hi f.lo = fieldAfter f.kind (fld v f.hi f.lo) (fld old f.hi f.lo) := by
  obtain ⟨hfit, hord⟩ := r.laidOut_iff.mp (laidOut_of_rowOf hr)
  rw [written_eq_foldl, fld_foldl_writeField v hfit hord old hf]

theorem bitAt_written {die blk off : Nat} {r : RegRow} (hr : rowOf die blk off = some r) (old v : Word) {i : Nat}
    (hi : ∀ f ∈ r.fields, i < f.lo ∨ f.hi < i) : bitAt (written r old v) i = bitAt old i := by
  obtain ⟨hfit, -⟩ := r.laidOut_iff.mp (laidOut_of_rowOf hr)
  rw [bitAt, written_eq_foldl, fld_foldl_writeField_of_apart v (Nat.le_refl i) hfit hi, bitAt]

/-! ## Reserved bits (R485) -/

theorem bitAt_eq_testBit (w : Word) (i : Nat) : bitAt w i = w.toNat.testBit i := by
  rw [bitAt, fld, Nat.testBit_eq_decide_div_mod_eq, Nat.add_sub_cancel_left, pow_one]
  rfl

theorem testBit_maskBits (hi lo i : Nat) : (maskBits hi lo).testBit i = (decide (lo ≤ i) && decide (i < hi + 1 - lo + lo)) := by
  rw [maskBits, ← Nat.shiftLeft_eq, Nat.testBit_shiftLeft, Nat.testBit_two_pow_sub_one]
  by_cases h : lo ≤ i
  · simp [h, Nat.sub_lt_iff_lt_add h]
  · simp [h]

theorem maskBits_lt {hi lo : Nat} (hlo : lo ≤ hi) (hhi : hi < 64) : maskBits hi lo < 2 ^ 64 := by
  have hmul : maskBits hi lo < 2 ^ (hi + 1 - lo) * 2 ^ lo :=
    Nat.mul_lt_mul_of_pos_right (Nat.sub_lt (by positivity) Nat.one_pos) (by positivity)
  rw [← pow_add, Nat.sub_add_cancel (by omega)] at hmul
  exact hmul.trans_le (Nat.pow_le_pow_right (by decide) hhi)

/-- A bit that no field covers is not in the mask of the fields. -/
theorem fieldMask_of_apart {i : Nat} {fs : List RegField} (hfit : ∀ f ∈ fs, FieldFits f)
    (hi : ∀ f ∈ fs, i < f.lo ∨ f.hi < i) {a : Nat} (ha : a < 2 ^ 64) (hbit : a.testBit i = false) :
    fs.foldl (fun a f => a ||| maskBits f.hi f.lo) a < 2 ^ 64 ∧
      (fs.foldl (fun a f => a ||| maskBits f.hi f.lo) a).testBit i = false := by
  induction fs generalizing a with
  | nil => exact ⟨ha, hbit⟩
  | cons g gs ih =>
    have hg := hfit g List.mem_cons_self
    refine ih (fun f hf => hfit f (List.mem_cons_of_mem g hf)) (fun f hf => hi f (List.mem_cons_of_mem g hf))
      (Nat.or_lt_two_pow ha (maskBits_lt hg.le hg.lt)) ?_
    have hout : ¬ (g.lo ≤ i ∧ i < g.hi + 1 - g.lo + g.lo) := by
      have := hi g List.mem_cons_self
      have := hg.le
      omega
    rw [Nat.testBit_or, hbit, testBit_maskBits, ← Bool.decide_and, decide_eq_false hout]
    rfl

theorem bitAt_of_not_reservedBad {r : RegRow} (hr : r.laidOut = true) {v : Word} (h : reservedBad r v = false) {i : Nat}
    (hi64 : i < 64) (hi : ∀ f ∈ r.fields, i < f.lo ∨ f.hi < i) : bitAt v i = false := by
  obtain ⟨hfit, -⟩ := r.laidOut_iff.mp hr
  obtain ⟨hlt, hbit⟩ := fieldMask_of_apart hfit hi (a := 0) (by decide) (Nat.zero_testBit i)
  have hand : v.toNat &&& (2 ^ 64 - 1 - r.fields.foldl (fun a f => a ||| maskBits f.hi f.lo) 0) = 0 :=
    not_not.mp (of_decide_eq_false h)
  have htest := congrArg (fun n => n.testBit i) hand
  rw [Nat.sub_sub, Nat.add_comm 1, Nat.testBit_and, Nat.testBit_two_pow_sub_succ hlt, hbit, decide_eq_true hi64,
    Nat.zero_testBit] at htest
  simpa [bitAt_eq_testBit] using htest

/-! ## The check of a write -/

theorem State.reservedBad_of_checkWrite {s : State} {p : Path} {die blk off : Nat} {v : Word} {r : RegRow}
    (hr : rowOf die blk off = some r) (h : s.checkWrite p die blk off v = none) : reservedBad r v = false := by
  unfold State.checkWrite at h
  rw [hr] at h
  dsimp only at h
  split_ifs at h
  next hres => exact Bool.not_eq_true _ ▸ hres

/-- A register without a field that can be written is not writable. -/
theorem State.checkWrite_of_ro {s : State} {p : Path} {die blk off : Nat} {v : Word} {r : RegRow}
    (hr : rowOf die blk off = some r) (hro : ∀ f ∈ r.fields, f.kind = .ro) : s.checkWrite p die blk off v = some rejAccess := by
  have hw : r.writable = false := List.any_eq_false.mpr (fun f hf => by rw [hro f hf]; decide)
  unfold State.checkWrite
  rw [hr]
  exact if_pos (Or.inr (Or.inl (by rw [hw]; rfl)))

/-- No reason, or one of the seven that a rejection shows. -/
def reasonLow (o : Option Nat) : Bool := o.all (fun r => decide (r ≤ 7))

theorem reasonLow_ite {c : Prop} [Decidable c] {a b : Option Nat} (ha : reasonLow a = true) (hb : reasonLow b = true) :
    reasonLow (if c then a else b) = true := by
  split
  · exact ha
  · exact hb

theorem State.reasonLow_special (s : State) (die blk off : Nat) (shadow : Bool) (v : Word) :
    reasonLow (s.special die blk off shadow v) = true := by
  unfold State.special
  dsimp only
  repeat' apply reasonLow_ite
  all_goals rfl

theorem State.reasonLow_checkWrite (s : State) (p : Path) (die blk off : Nat) (v : Word) :
    reasonLow (s.checkWrite p die blk off v) = true := by
  unfold State.checkWrite
  split
  · rfl
  · exact reasonLow_ite rfl (reasonLow_ite rfl (reasonLow_ite rfl (reasonLow_ite rfl (reasonLow_ite rfl
      (s.reasonLow_special die blk _ _ v)))))

theorem State.checkWrite_le {s : State} {p : Path} {die blk off : Nat} {v : Word} {reason : Nat}
    (h : s.checkWrite p die blk off v = some reason) : reason ≤ 7 := by
  have hlow := s.reasonLow_checkWrite p die blk off v
  rw [h] at hlow
  exact of_decide_eq_true hlow

/-! ## A rejection as it reads -/

theorem fld_rejectWord_offset (w : Word) (off reason : Nat) : fld (rejectWord w off reason) 47 36 = off % 2 ^ 12 := by
  simp [rejectWord, fld_setFld_of_above, fld_setFld_self]

theorem fld_rejectWord_reason (w : Word) (off reason : Nat) : fld (rejectWord w off reason) 35 32 = reason % 2 ^ 4 := by
  simp [rejectWord, fld_setFld_of_above, fld_setFld_self]

theorem fld_rejectWord_count (w : Word) (off reason : Nat) :
    fld (rejectWord w off reason) 31 16 = Nat.min 0xFFFF (fld w 31 16 + 1) := by
  have hlt : Nat.min 0xFFFF (fld w 31 16 + 1) < 2 ^ 16 := (Nat.min_le_left _ _).trans_lt (by decide)
  rw [rejectWord, fld_setFld_self _ _ (by decide) (by decide)]
  exact Nat.mod_eq_of_lt hlt

theorem State.rd_reject (s : State) (die blk off reason : Nat) :
    (s.reject die blk off reason).rd die blk 0x010 = rejectWord (s.rd die blk 0x010) off reason :=
  s.rd_wr_blkStat (v := rejectWord (s.rd die blk 0x010) off reason) (hi := 48) (lo := 48) (by decide)
    (by rw [fld_rejectWord_valid]; decide)

/-- No other register of a page is at home where its BLK_STAT is. -/
theorem canonAddr_ne_blkStat (die blk : Nat) {off : Nat} (hoff : off < 2 ^ 12) (hne : off ≠ 0x010) :
    canonAddr die blk off ≠ canonAddr die blk 0x010 := by
  intro h
  have hat : addrOff (canonAddr die blk off) = 0x010 := h ▸ addrOff_canonAddr_blkStat die blk
  unfold canonAddr at hat
  split_ifs at hat
  all_goals
    rw [addrOff_regAddr] at hat
    omega

theorem State.rd_reject_of_ne (s : State) (die blk : Nat) {off : Nat} (hoff : off < 2 ^ 12) (hne : off ≠ 0x010) (at_ reason : Nat) :
    (s.reject die blk at_ reason).rd die blk off = s.rd die blk off :=
  SMap.get_set_ne _ _ (canonAddr_ne_blkStat die blk hoff hne)

/-! ## REG_WRITE of one register -/

theorem State.writeRegs_one (s : State) (p : Path) (die blk off : Nat) (v : Word) :
    s.writeRegs p die blk off [v] 0 0 false =
      (let w := s.writeReg p die blk off v
       (w.st, if w.rej then 1 else 0, w.rej && w.path)) := by
  simp [State.writeRegs]

/-- A REG_WRITE of one register does what `writeReg` says, and answers its one bit. -/
theorem regWrite_one {s t : State} {p : Path} {f g : Frame} (hr : s.recv p f 2 = (t, some g)) (hbad : addrBad g = false)
    (haux : g.aux = 1) (hlen : g.len = 8)
    (hreach : t.unreachable (addrDie g.addr) (addrBlk g.addr) (addrOff g.addr) 1 = false) {ty : Nat}
    (hty : blockType (addrDie g.addr) (addrBlk g.addr) = some ty) :
    regWrite p f s =
      (let w := t.writeReg p (addrDie g.addr) (addrBlk g.addr) (addrOff g.addr) (wordAt g.data 0)
       w.st.respond p g (if w.rej && w.path then 2 else if w.rej then 1 else 0) (if w.rej then 1 else 0)) := by
  have hgo : ¬ (addrBad g = true ∨ g.len ≠ 8 * 1) := by rw [hbad, hlen]; decide
  unfold regWrite
  rw [hr]
  dsimp only
  rw [haux, if_neg hgo, hreach, hty, if_neg Bool.false_ne_true, if_neg (by simp)]
  rw [show (List.range 1).map (fun i => wordAt g.data i) = [wordAt g.data 0] from rfl, State.writeRegs_one]
  dsimp only
  rcases Bool.eq_false_or_eq_true (t.writeReg p (addrDie g.addr) (addrBlk g.addr) (addrOff g.addr) (wordAt g.data 0)).rej
    with h | h <;> simp [h]

/-- A write that fails its check is recorded as a rejection. -/
theorem State.writeReg_of_rejected {s : State} {p : Path} {die blk off ty reason : Nat} {v : Word}
    (hty : blockType die blk = some ty) (hc : s.checkWrite p die blk off v = some reason) (hsvc : ¬ (ty = 0x05 ∧ off = 0x040)) :
    ∃ path, s.writeReg p die blk off v = { st := s.reject die blk off reason, rej := true, path := path } := by
  refine ⟨match rowOf die blk off with
    | some r => accessBad p blk r (decide (0x800 ≤ off ∧ off < 0xC00))
    | none => p == .mgmt && !(decide (blk = 0x21) || decide (blk = 0x22)), ?_⟩
  unfold State.writeReg
  rw [hc, hty]
  dsimp only [Option.getD]
  rw [if_neg hsvc] <;> rfl

/-- An accepted write of a register that only holds a value. -/
theorem State.writeReg_of_plain {s : State} {p : Path} {die blk off ty : Nat} {v : Word} {r : RegRow}
    (hty : blockType die blk = some ty) (hc : s.checkWrite p die blk off v = none) (hr : rowOf die blk off = some r)
    (h10 : off ≠ 0x010) (h18 : off ≠ 0x018) (hsec : ¬ (ty = 0x23 ∧ off = 0x040)) (hcmd : s.regCommand p die ty off v = none)
    (hsel : isSel die blk off = false) :
    s.writeReg p die blk off v =
      if r.writer == .split && decide (off < 0x800) then
        { st := s.fwXlat ((off - 0x200) / 8) (written r (s.rd die blk off) v) }
      else
        let new := written r (s.rd die blk off) v
        { st := (s.wr die blk off new).afterWrite die blk ty off (s.rd die blk off) new } := by
  unfold State.writeReg
  rw [hc, hty]
  dsimp only [Option.getD]
  rw [if_neg h10, if_neg h18, if_neg hsec, hcmd, hr]
  dsimp only
  rw [hsel, if_neg Bool.false_ne_true]

/-- A register whose write acts on nothing else. -/
theorem State.afterWrite_of_plain (s : State) {die blk ty off : Nat} (old v : Word) (hbrz : ¬ (ty = 0x10 ∧ off = 0x040))
    (hmap : ¬ (ty = 0x03 ∧ off = 0x078)) (htrain : ¬ (ty = 0x07 ∧ off = 0x058)) (hfirst : firstReg ty off = none) :
    s.afterWrite die blk ty off old v = s := by
  unfold State.afterWrite State.flagsCleared
  rw [if_neg hbrz, if_neg hmap, if_neg htrain, hfirst]

/-- Settles O44: the fields of a row one by one, and the two outcomes of a REG_WRITE of one register. -/
theorem registerWrites : Obligations.RegisterWrites := by
  refine ⟨fun s p die blk off r old v hr => ⟨fun f hf => ?_, fun i hi hout => ?_, fun hro => State.checkWrite_of_ro hr hro⟩,
    fun s t p f g hrecv => ?_⟩
  · have hfld := fld_written hr old v hf
    obtain ⟨hfit, -⟩ := r.laidOut_iff.mp (laidOut_of_rowOf hr)
    refine ⟨fun hk => ?_, fun hk => ?_, fun hk => ?_, fun hk => ⟨(hfit f hf).bit hk, ?_⟩⟩
    all_goals rw [hfld, hk]; rfl
  · exact ⟨bitAt_written hr old v hout,
      fun hc => bitAt_of_not_reservedBad (laidOut_of_rowOf hr) (State.reservedBad_of_checkWrite hr hc) hi hout⟩
  · intro die blk off v hbad haux hlen hreach ty hty
    have hone := regWrite_one hrecv hbad haux hlen hreach hty
    refine ⟨fun reason hc hsvc => ?_, fun r hc hr h10 h18 hsec hcmd hsel => ?_⟩
    · intro u
      have hoff : off < 2 ^ 12 := Nat.mod_lt _ (by decide)
      have hlow : reason < 2 ^ 4 := (State.checkWrite_le hc).trans_lt (by decide)
      have hword : u.rd die blk 0x010 = rejectWord (t.rd die blk 0x010) off reason := t.rd_reject die blk off reason
      obtain ⟨path, hw⟩ := State.writeReg_of_rejected hty hc hsvc
      refine ⟨⟨if path then 2 else 1, exec_of_eq rfl (hone.trans ?_), by cases path <;> decide⟩,
        fun hne => t.rd_reject_of_ne die blk hoff hne off reason, ?_, ?_, ?_, ?_⟩
      · rw [hw]; rfl
      · rw [hword, fld_rejectWord_valid]
      · rw [hword, fld_rejectWord_offset, Nat.mod_eq_of_lt hoff]
      · rw [hword, fld_rejectWord_reason, Nat.mod_eq_of_lt hlow]
      · rw [hword, fld_rejectWord_count]
    · intro new
      have hw := State.writeReg_of_plain hty hc hr h10 h18 hsec hcmd hsel
      refine ⟨fun hsplit hlow => ?_, fun hns => ?_⟩
      · rw [if_pos (by rw [hsplit, decide_eq_true hlow]; rfl)] at hw
        exact exec_of_eq rfl (hone.trans (by rw [hw]; rfl))
      · intro u
        rw [if_neg (by simpa using hns)] at hw
        have hrun : exec (.regWrite p f) s =
            .next ((u.afterWrite die blk ty off (t.rd die blk off) new).respond p g 0 0) :=
          exec_of_eq rfl (hone.trans (by rw [hw]; rfl))
        refine ⟨hrun, fun hbrz hmap htrain hfirst => ?_⟩
        rw [hrun, State.afterWrite_of_plain u _ _ hbrz hmap htrain hfirst]

end Sys2Proof.Machine
end

section
/-!
PROOFS. Pulls and pushes start (R281 to R284, R335, R383).
-/
namespace Sys2Proof.Machine

/-- A ready PULL takes a kept copy of a retained input, or reads the header of its entry. -/
theorem State.Ready.pull_eq {s : State} {sid op : Nat} {o : Op} (h : s.Ready sid op 0x0F 1 o) :
    pull sid op s =
      (let t := s.started sid o
       let st := (t.slot sid).step
       let q := o.p 1 + st.toNat * fld (o.pword 0) 31 0
       match (if o.retain then t.keptInput sid o else none) with
       | some r => (t.putOut sid o 0 (t.ldN r.off r.len)).finish sid o 0
       | none => t.startPull { sid := sid, op := op, win := fld (o.pword 0) 63 59, q := q, step := st }) := by
  unfold pull
  rw [h.here]
  dsimp only
  rw [h.begin_eq] <;> rfl

/-- A ready PUSH outside confidential mode writes its entry's header and data. -/
theorem State.Ready.push_eq {s : State} {sid op : Nat} {o : Op} (h : s.Ready sid op 0x0F 2 o) (hplain : s.sec.conf = false)
    (hconf : (s.started sid o).sec.conf = false) :
    push sid op s =
      (let t := s.started sid o
       let st := (t.slot sid).step
       let q := o.p 1 + st.toNat * fld (o.pword 0) 31 0
       let d := t.inBytes sid o 0
       let p : Pull := { sid := sid, op := op, win := fld (o.pword 0) 63 59, q := q, step := st, stage := .writing,
                         push := true, data := entryHeader q st (fld (o.pword 2) 63 32) d ++ d }
       ({ t with ctl := { t.ctl with pulls := t.ctl.pulls.filter (fun (x : Pull) => !x.same p) ++ [p] } }).writeEntry p) := by
  have hkey : s.noEntryKey = false := by rw [State.noEntryKey, hplain, Bool.false_and]
  have hbody (win q : Nat) : (s.started sid o).pushBody sid o win q = (s.started sid o).inBytes sid o 0 := by
    unfold State.pushBody
    rw [hconf]
    dsimp only
    split <;> simp
  unfold push
  rw [h.here]
  dsimp only
  rw [hkey, if_neg Bool.false_ne_true, h.begin_eq]
  dsimp only
  rw [if_neg (by decide), hbody]

/-- Settles O47: each of the six commands on the state that its conditions name. -/
theorem pullsAndPushesStart : Obligations.PullsAndPushesStart := by
  intro s sid op o hsid
  have hunit := decide_eq_true hsid
  refine ⟨fun h => ?_, fun h hplain => ?_, fun p win hp hwin => ?_, fun x hx => ?_, fun p win hwin => ?_⟩
  · intro t q
    refine ⟨fun hnone => exec_of_eq (onUnit_pos hunit _) (h.pull_eq.trans ?_),
      fun r hr hkept => exec_of_eq (onUnit_pos hunit _) (h.pull_eq.trans ?_)⟩
    · have hkeep : (if o.retain then t.keptInput sid o else none) = none := by
        rcases hnone with hr | hk
        · rw [hr]; rfl
        · rw [hk, ite_self]
      dsimp only
      rw [hkeep]
    · dsimp only
      rw [hr, if_pos rfl, hkept]
  · intro t st q d p hconf
    exact exec_of_eq (onUnit_pos hunit _) (h.push_eq hplain hconf)
  · intro x t
    refine exec_of_eq (t := loadInit p win s) rfl ?_
    unfold loadInit
    rw [if_neg hp, Nat.mod_eq_of_lt hwin]
  · refine exec_of_eq (onUnit_pos hunit _) ?_
    unfold pullBackoffExpiry
    rw [hx]
  · intro l
    refine ⟨fun hp => exec_of_eq (t := ctlPullFix p win s) rfl ((if_neg hp).trans (if_neg (Nat.not_le.mpr hwin))), fun x hl => ?_⟩
    intro a up q c
    refine exec_of_eq (t := fixSExpiry win s) rfl ?_
    unfold fixSExpiry
    rw [show s.ctl.pulls.filter (fun (x : Pull) => x.inputFaulted win) = [x] from hl]
    rfl

end Sys2Proof.Machine
end

section
/-!
PROOFS. The host's answers to DMA frames (R283 to R285): headers, data and acknowledged writes, and a missing answer.
-/
namespace Sys2Proof.Machine

/-! ## What the read data of a pull leads to -/

section
variable {s t : State} {p : Path} {f g : Frame} {d : Dma} {x : Pull} (hr : s.recv p f 6 = (t, some g))
  (hd : t.ctl.dma.find? (fun d => d.tag == g.tag && !d.write && d.bytes == g.data.length) = some d)
  (hx : (t.dropDma d.tag).dmaPull d = some x)
include hr hd hx

theorem dmaReadData_of_header (hs : x.stage = .header) : dmaReadData p f s = (t.dropDma d.tag).judgeHeader x g.data := by
  unfold dmaReadData
  rw [hr]
  dsimp only
  rw [hd]
  dsimp only
  rw [hx]
  dsimp only
  rw [hs]

theorem dmaReadData_of_check (hs : x.stage = .check) : dmaReadData p f s = (t.dropDma d.tag).judgeCheck x g.data := by
  unfold dmaReadData
  rw [hr]
  dsimp only
  rw [hd]
  dsimp only
  rw [hx]
  dsimp only
  rw [hs]

theorem dmaReadData_of_data (hs : x.stage = .data) : dmaReadData p f s =
    (let u := t.dropDma d.tag
     let y := { x with data := x.data ++ g.data }
     if y.data.length < u.dataBytes y.header then u.readData y else u.judgeData y) := by
  unfold dmaReadData
  rw [hr]
  dsimp only
  rw [hd]
  dsimp only
  rw [hx]
  dsimp only
  rw [hs]

end

/-- An acknowledged part of a push: the next part, or the push's end. -/
theorem dmaWriteAck_of_pull {s t : State} {p : Path} {f g : Frame} {d : Dma} {x : Pull} (hr : s.recv p f 8 = (t, some g))
    (hd : t.ctl.dma.find? (fun d => d.tag == g.tag && d.write) = some d) (hx : (t.dropDma d.tag).dmaPull d = some x) :
    dmaWriteAck p f s =
      (let u := t.dropDma d.tag
       let y := { x with reads := x.reads + d.bytes }
       if y.reads < y.data.length then u.writeEntry y
       else
         let v := (u.dropPull y).wr 54 0x1E (0x110 + 24 * y.win) (BitVec.ofNat 64 y.q)
         if u.pullLive y then v.finish y.sid (u.pullOp y) 0 else v) := by
  unfold dmaWriteAck
  rw [hr]
  dsimp only
  rw [hd]
  dsimp only
  rw [hx]

/-- A missing answer of a host that can be reached, over the same port. -/
theorem dmaTmoExpiry_of_reachable {t : State} {d : Dma} (hd : t.ctl.dma.find? (fun y => y.tag == d.tag) = some d)
    (hcut : t.hostCut = false) (hpath : t.dmaPath d.sid = d.port) :
    dmaTmoExpiry d.tag t =
      (if t.dmaRetries d ≤ d.tries then t.dmaTimeout d
       else
         let v := t.bump (pathDie d.port) 0x1E 0xC18
         let e := { d with tries := d.tries + 1 }
         ({ v with ctl := { v.ctl with dma := v.ctl.dma.map (fun (y : Dma) => if y.tag == d.tag then e else y) } }).sendDma e) := by
  unfold dmaTmoExpiry
  rw [hd]
  dsimp only
  rw [if_neg (fun h => Bool.false_ne_true (hcut.symm.trans h)), hpath, if_neg (by simp : ¬ ((d.port != d.port) = true ∧ (!d.write) = true))]

/-! ## Headers and checks -/

theorem State.entryPlain_of_not_conf {s : State} (h : s.sec.conf = false) (p : Pull) : s.entryPlain p = some p.data := by
  simp [State.entryPlain, h]

/-- A header below the expected SEQ: another try, or none left. -/
theorem State.judgeHeader_of_below {s : State} {x : Pull} {h : List Byte} (hq : hdrSeq h < x.q) :
    s.judgeHeader x h = s.notPresent x := if_pos hq

theorem State.judgeHeader_of_expected {s : State} {x : Pull} {h : List Byte} (hinit : x.init = false) (hq : hdrSeq h = x.q) :
    s.judgeHeader x h =
      (let y := { x with reads := x.reads + 1 }
       if s.headerFits y h then s.beginData { y with stage := .data, header := h, data := [] } else s.inputFault y 0x0211) := by
  unfold State.judgeHeader
  rw [if_neg (by omega)]
  dsimp only
  rw [if_pos hq, hinit, if_neg Bool.false_ne_true]

theorem State.judgeHeader_of_above {s : State} {x : Pull} {h : List Byte} (hinit : x.init = false) (hq : x.q < hdrSeq h) :
    s.judgeHeader x h = s.inputFault { x with reads := x.reads + 1 } 0x0213 := by
  unfold State.judgeHeader
  rw [if_neg (by omega)]
  dsimp only
  rw [if_neg (by omega), hinit, if_neg Bool.false_ne_true]

theorem State.judgeCheck_of_same {s : State} {x : Pull} {h : List Byte} (hinit : x.init = false) (hq : hdrSeq h = x.q)
    (hconf : s.sec.conf = false) :
    s.judgeCheck x h = if hallmarkOk x.header x.data then s.pullDone x x.data else s.inputFault x 0x0212 := by
  unfold State.judgeCheck
  rw [if_neg (not_not_intro hq), State.entryPlain_of_not_conf hconf]
  dsimp only
  rw [hinit, if_neg Bool.false_ne_true]

theorem State.judgeData_of_good {s : State} {x : Pull} (hconf : s.sec.conf = false) (hok : hallmarkOk x.header x.data = true) :
    s.judgeData x = (s.setPull { x with stage := .check }).readEntry x 0 32 := by
  unfold State.judgeData
  rw [State.entryPlain_of_not_conf hconf]
  dsimp only
  rw [hok, Bool.true_or, if_pos rfl]

/-- Settles O48: read data by the pull's stage, acknowledged writes by the bytes left, and a missing answer by the retries. -/
theorem dmaAnswers : Obligations.DmaAnswers := by
  intro s t p f g d x u hx
  refine ⟨fun hr hd hinit => ⟨fun hs => ?_, fun hs => ?_, fun hs hq hconf => ?_⟩, fun hr hd => ?_, fun hd hcut hpath => ?_⟩
  · have hrun := dmaReadData_of_header hr hd hx hs
    intro y
    refine ⟨fun hq ht => ?_, fun hq ht => ?_, fun hq hfit => ?_, fun hq hfit => ?_, fun hq => ?_⟩
    · refine exec_of_eq rfl (hrun.trans ((State.judgeHeader_of_below hq).trans ?_))
      unfold State.notPresent
      exact if_pos ht
    · refine exec_of_eq rfl (hrun.trans ((State.judgeHeader_of_below hq).trans ?_))
      unfold State.notPresent
      refine (if_neg (Nat.not_lt.mpr ht)).trans ?_
      exact if_neg (fun h => Bool.false_ne_true (hinit.symm.trans h))
    · exact exec_of_eq rfl (hrun.trans ((State.judgeHeader_of_expected hinit hq).trans (if_pos hfit)))
    · exact exec_of_eq rfl (hrun.trans ((State.judgeHeader_of_expected hinit hq).trans
        (if_neg (fun h => Bool.false_ne_true (hfit.symm.trans h)))))
    · exact exec_of_eq rfl (hrun.trans (State.judgeHeader_of_above hinit hq))
  · have hrun := dmaReadData_of_data hr hd hx hs
    intro y
    refine ⟨fun hlt => exec_of_eq rfl (hrun.trans (if_pos hlt)), fun hle hconf hok => ?_⟩
    exact exec_of_eq rfl (hrun.trans ((if_neg (Nat.not_lt.mpr hle)).trans (State.judgeData_of_good (x := y) hconf hok)))
  · have hrun := (dmaReadData_of_check hr hd hx hs).trans (State.judgeCheck_of_same hinit hq hconf)
    exact ⟨fun hok => exec_of_eq rfl (hrun.trans (if_pos hok)),
      fun hok => exec_of_eq rfl (hrun.trans (if_neg (fun h => Bool.false_ne_true (hok.symm.trans h))))⟩
  · have hrun := dmaWriteAck_of_pull hr hd hx
    intro y
    exact ⟨fun hlt => exec_of_eq rfl (hrun.trans (if_pos hlt)),
      fun hle => exec_of_eq rfl (hrun.trans (if_neg (Nat.not_lt.mpr hle)))⟩
  · refine ⟨fun hle => exec_of_eq rfl ((dmaTmoExpiry_of_reachable hd hcut hpath).trans (if_pos hle)), fun hlt => ?_⟩
    intro v e
    exact exec_of_eq rfl ((dmaTmoExpiry_of_reachable hd hcut hpath).trans (if_neg (Nat.not_le.mpr hlt)))

end Sys2Proof.Machine
end

section
/-!
PROOFS. Events and sessions (R286, R288, R289).
-/
namespace Sys2Proof.Machine

theorem reportLost_of_none {s : State} (h : s.ctl.lost = 0) : s.reportLost = s := if_pos h

/-- A KEY_EXCHANGE frame goes out in the clear and leaves the session alone. -/
theorem State.sendFrame_ctl_of_exchange (s : State) (p : Path) {f : Frame} (h : f.typ = 0x0B) : (s.sendFrame p f).ctl = s.ctl := by
  unfold State.sendFrame
  split
  · rfl
  · rfl
  · rw [h, if_neg (by simp), State.bump_ctl, State.send_ctl]

/-- A rekey keeps the entry keys, and keeps the old frame keys beside the new ones. -/
theorem State.exchangeKeys_session {s : State} {k : Session} (h : s.ctl.session = some k) (p : Path) (f : Frame) :
    ∃ n, (s.exchangeKeys p f).ctl.session = some n ∧ n.entryKeys = k.entryKeys ∧ n.old = k.keys ∧ n.oldRx = k.rx ∧
      n.rx = {} ∧ n.txc = 0 := by
  unfold State.exchangeKeys
  dsimp only
  rw [State.sendFrame_ctl_of_exchange _ p rfl, show ({ s with free := s.free + 1 } : State).ctl.session = some k from h]
  exact ⟨_, rfl, rfl, rfl, rfl, rfl, rfl⟩

theorem keyExchange_of_recv {s t : State} {p : Path} {f g : Frame} (hr : s.recv p f 0x0B = (t, some g))
    (hp : p = .cpA ∨ p = .cpB) :
    keyExchange p f s =
      if !t.sec.conf then t.sendFrame p { typ := 0x0B, tag := g.tag, status := 5 }
      else if g.data.length ≠ 72 ∨ g.aux ≠ 0 ∨ g.addr ≠ 0 then t.sendFrame p { typ := 0x0B, tag := g.tag, status := 4 }
      else if !t.firmwareUp then { t with ctl := { t.ctl with exchange := some p } }
      else t.exchangeKeys p g := by
  unfold keyExchange
  rw [hr]
  dsimp only
  rw [if_neg (by rcases hp with rfl | rfl <;> decide)]

/-- Settles O49: each command on the queue of events or the session that its conditions name. -/
theorem eventsAndSessions : Obligations.EventsAndSessions := by
  intro s t p f g
  refine ⟨fun hr hlost => ?_, rfl, fun hr hp => ⟨fun hconf => ?_, fun hconf hlen haux haddr hup => ⟨?_, fun k hk => ?_⟩⟩,
    fun q hq => ?_, fun hq => ?_, fun k hk hend => ?_⟩
  · intro u hi
    refine exec_of_eq (t := eventAck p f s) rfl ?_
    unfold eventAck
    rw [hr]
    exact reportLost_of_none hlost
  · exact exec_of_eq rfl ((keyExchange_of_recv hr hp).trans (if_pos (by rw [hconf]; rfl)))
  · refine exec_of_eq rfl ((keyExchange_of_recv hr hp).trans ?_)
    rw [hconf, hup, if_neg (by decide), if_neg (by simp [hlen, haux, haddr]), if_neg (by decide)]
  · exact State.exchangeKeys_session hk p g
  · refine exec_of_eq (t := keyExchangeTimeout s) rfl ?_
    unfold keyExchangeTimeout
    rw [hq]
  · refine exec_of_eq (t := keyExchangeTimeout s) rfl ?_
    unfold keyExchangeTimeout
    rw [hq]
  · refine exec_of_eq (t := frameCounterLimit s) rfl ?_
    unfold frameCounterLimit
    rw [hk]
    exact if_pos hend

end Sys2Proof.Machine
end

section
/-!
PROOFS. Firmware update (R443 to R445): each command by the phase of the update.
-/
namespace Sys2Proof.Machine

/-! ## The commands -/

theorem fwBegin_of_recv {s t : State} {p : Path} {f g : Frame} (h : s.fwCtl p f 1 = (t, some g)) :
    fwBegin p f s =
      if t.sec.upd ≠ .idle then t.fwResp g 8
      else if !t.hasStandby && !(t.allowReset && !t.jobIn) then t.fwResp g 9
      else
        let tgt := if t.hasStandby then 1 - t.sec.active else t.sec.active
        let t := { t with sec := { t.sec with target := tgt, upd := .receiving } }
        (t.eraseSlot tgt t.updSlot).fwResp g 0 := by
  unfold fwBegin
  rw [h]

theorem fwData_of_recv {s t : State} {p : Path} {f g : Frame} (h : s.mgmtFrame p f 0x24 = (t, some g)) :
    fwData p f s =
      if t.sec.upd ≠ .receiving then t.fwResp g 0 5
      else if 2 ^ 26 < g.addr + g.data.length then t.fwResp g 0 4
      else
        let m := t.md t.sec.target
        let fl := SMap.setRun (fun _ => 0) m.flash (t.updSlot * 2 ^ 27 + g.addr) g.data
        (t.setMd t.sec.target { m with flash := fl }).fwResp g 0 := by
  unfold fwData
  rw [h]

theorem fwStage_of_receiving {s t : State} {p : Path} {f g : Frame} (h : s.fwCtl p f 2 = (t, some g))
    (hupd : t.sec.upd = .receiving) :
    fwStage p f s =
      (let v := imgVersion (t.imageHeader t.sec.target t.updSlot)
       let u := t.fwResp g 0
       if t.stageCode = 0 then (u.setUpd .staged).event 0x0050 v 0 0
       else ((u.eraseSlot u.sec.target u.updSlot).setUpd .idle).event 0x0051 v 0 (BitVec.ofNat 64 t.stageCode)) := by
  unfold fwStage
  rw [h]
  dsimp only
  rw [if_neg (not_not_intro hupd)]

theorem fwActivate_of_staged {s t : State} {p : Path} {f g : Frame} (h : s.fwCtl p f 3 = (t, some g))
    (hupd : t.sec.upd = .staged) :
    fwActivate p f s =
      (let tgt := t.sec.target
       if t.hasStandby && tgt != t.sec.active then
         let u := (t.fwResp g 0).setMd tgt { t.md tgt with running := some t.updSlot }
         ((u.countReset (.die (60 + tgt))).setUpd .activated).changeRoles (u.md u.sec.active).pref
       else if t.allowReset && !t.jobIn then
         ((t.fwResp g 0).setMd tgt { t.md tgt with trial := some t.updSlot }).beginReset .module
       else t.fwResp g 9) := by
  unfold fwActivate
  rw [h]
  dsimp only
  rw [if_neg (not_not_intro hupd)]

/-- What COMMIT copies to a standby (R445): the running image, if it passes there. -/
def State.fwMirror (u : State) (a slot : Nat) : State :=
  let b := 1 - a
  let sb := 1 - (u.md b).pref
  let x := u.copyImage a slot b sb
  if x.slotCode b sb = 0 then (x.setMd b { x.md b with pref := sb, running := some sb }).countReset (.die (60 + b)) else x

/-- The end of COMMIT: the slot is preferred, and the anti-rollback fuses follow. -/
def State.fwCommitted (t : State) (a slot v : Nat) : State :=
  (((t.setMd a { t.md a with pref := slot }).blowArb).setUpd .idle).event 0x0052 v 0 0

theorem fwCommit_of_activated {s t : State} {p : Path} {f g : Frame} (h : s.fwCtl p f 4 = (t, some g))
    (hupd : t.sec.upd = .activated) (htgt : t.sec.target = t.sec.active) (hrun : (t.md t.sec.active).running = some t.updSlot) :
    fwCommit p f s =
      (let u := t.fwResp g 0
       let x := if t.hasStandby then u.fwMirror t.sec.active t.updSlot else u
       x.fwCommitted t.sec.active t.updSlot (imgVersion (t.imageHeader t.sec.active t.updSlot))) := by
  unfold fwCommit
  rw [h]
  dsimp only
  rw [if_neg (by simp [hupd, htgt, hrun])]
  rfl

theorem fwCommit_of_not_activated {s t : State} {p : Path} {f g : Frame} (h : s.fwCtl p f 4 = (t, some g))
    (hupd : t.sec.upd ≠ .activated) : fwCommit p f s = t.fwResp g 0 5 := by
  unfold fwCommit
  rw [h]
  exact if_pos (Or.inl hupd)

theorem fwAbort_of_recv {s t : State} {p : Path} {f g : Frame} (h : s.fwCtl p f 5 = (t, some g)) :
    (t.sec.upd = .receiving ∨ t.sec.upd = .staged → fwAbort p f s = (t.fwResp g 0).revertUpdate) ∧
      (t.sec.upd = .idle → fwAbort p f s = t.fwResp g 0 5) := by
  unfold fwAbort
  rw [h]
  refine ⟨fun hu => if_pos hu, fun hu => (if_neg ?_).trans (if_neg ?_)⟩ <;> rw [hu] <;> decide

/-- Settles O51: the six commands, each by the phase and by whether a standby runs. -/
theorem firmwareUpdate : Obligations.FirmwareUpdate := by
  intro s t p f g
  refine ⟨fun h => ?_, fun h => ?_, fun h hupd => ?_, fun h hupd => ⟨fun hsb htgt hact => ?_, fun hsb hres hjob => ?_⟩,
    fun h => ⟨fun hupd htgt hrun hsb => ?_, fun hupd htgt hrun hsb => ?_, fun hupd => ?_⟩, fun h => ?_⟩
  · intro tgt
    refine ⟨fun hupd hgo => ?_, fun hupd hsb hno => ?_, fun hupd => ?_⟩
    · have hno : ¬ (!t.hasStandby && !(t.allowReset && !t.jobIn)) = true := by
        rcases hgo with hsb | ⟨hres, hjob⟩
        · simp [hsb]
        · simp [hres, hjob]
      exact exec_of_eq rfl ((fwBegin_of_recv h).trans ((if_neg (not_not_intro hupd)).trans (if_neg hno)))
    · have hyes : (!t.hasStandby && !(t.allowReset && !t.jobIn)) = true := by
        rcases hno with hres | hjob
        · simp [hsb, hres]
        · simp [hsb, hjob]
      exact exec_of_eq rfl ((fwBegin_of_recv h).trans ((if_neg (not_not_intro hupd)).trans (if_pos hyes)))
    · exact exec_of_eq rfl ((fwBegin_of_recv h).trans (if_pos hupd))
  · refine ⟨fun hupd hle => ?_, fun hupd hlt => ?_, fun hupd => ?_⟩
    · exact exec_of_eq rfl ((fwData_of_recv h).trans ((if_neg (not_not_intro hupd)).trans (if_neg (Nat.not_lt.mpr hle))))
    · exact exec_of_eq rfl ((fwData_of_recv h).trans ((if_neg (not_not_intro hupd)).trans (if_pos hlt)))
    · exact exec_of_eq rfl ((fwData_of_recv h).trans (if_pos hupd))
  · intro v u
    exact ⟨fun hc => exec_of_eq rfl ((fwStage_of_receiving h hupd).trans (if_pos hc)),
      fun hc => exec_of_eq rfl ((fwStage_of_receiving h hupd).trans (if_neg hc))⟩
  · have hgo : (t.hasStandby && t.sec.target != t.sec.active) = true := by
      rw [hsb, htgt, Bool.true_and, bne_iff_ne]
      omega
    exact exec_of_eq rfl ((fwActivate_of_staged h hupd).trans (if_pos hgo))
  · have hno : ¬ (t.hasStandby && t.sec.target != t.sec.active) = true := by simp [hsb]
    have hyes : (t.allowReset && !t.jobIn) = true := by simp [hres, hjob]
    exact exec_of_eq rfl ((fwActivate_of_staged h hupd).trans ((if_neg hno).trans (if_pos hyes)))
  · intro u v
    refine exec_of_eq (t := fwCommit p f s) rfl ((fwCommit_of_activated h hupd htgt hrun).trans ?_)
    rw [hsb]
    rfl
  · intro a b u sb x y v
    have hy : u.fwMirror a t.updSlot = y := rfl
    refine exec_of_eq (t := fwCommit p f s) rfl ((fwCommit_of_activated h hupd htgt hrun).trans ?_)
    dsimp only
    rw [if_pos hsb]
    exact congrArg (fun z => State.fwCommitted z a t.updSlot (imgVersion (t.imageHeader a t.updSlot))) hy
  · exact exec_of_eq rfl (fwCommit_of_not_activated h hupd)
  · obtain ⟨hlive, hidle⟩ := fwAbort_of_recv h
    exact ⟨fun hu => exec_of_eq rfl (hlive hu), fun hu => exec_of_eq rfl (hidle hu)⟩

end Sys2Proof.Machine
end

section
/-!
PROOFS. Keys, installation and mode (R445, R452 to R454, R468).
-/
namespace Sys2Proof.Machine

/-! ## Revocation and installation -/

theorem revoke_of_recv {s t : State} {p : Path} {f g : Frame} (h : s.fwCtl p f 6 = (t, some g)) :
    revoke p f s =
      (let k := g.aux / 256 % 256
       if t.sec.upd ≠ .idle then t.fwResp g 8
       else if t.revokeCode k g.data ≠ 0 then t.fwResp g (t.revokeCode k g.data)
       else (t.programFuses { t with sec := { t.sec with revoked := Nat.lor t.sec.revoked (2 ^ k) } }).fwResp g 0) := by
  unfold revoke
  rw [h]

/-- A revocation that passes its checks names a key of the module that still stands, under a signature of full length. -/
theorem State.of_revokeCode_eq_zero {t : State} {k : Nat} {sig : List Byte} (h : t.revokeCode k sig = 0) :
    k < 3 ∧ sig.length = 114 ∧ t.keyRevoked k = false := by
  unfold State.revokeCode at h
  dsimp only at h
  split at h
  · cases h
  · next hkey =>
    obtain ⟨hk, hlen, -⟩ := not_or.mp hkey |>.imp_right not_or.mp
    split at h
    · cases h
    · next hrev => exact ⟨by omega, not_not.mp hlen, Bool.not_eq_true _ ▸ hrev⟩

theorem install_of_recv {s t : State} {p : Path} {f g : Frame} (h : s.mgmtFrame p f 0x27 = (t, some g)) :
    install p f s =
      if !installGood g.data then t.respond .mgmt g 1 0
      else if t.jobIn then t.respond .mgmt g 5 0
      else (t.installed (installOf g.data)).respond .mgmt g 0 0 := by
  unfold install
  rw [h]

/-! ## APPLY -/

theorem State.applyReject_eq_none {s : State} {p : Path} (hp : p ≠ .mgmt) (hjob : s.jobIn = false) (hupd : s.sec.upd = .idle)
    (hmode : (s.field 60 0x23 0x040 0 0 == 1) = !s.sec.conf) : s.applyReject p = none := by
  unfold State.applyReject
  rw [if_neg hp, hmode, hjob, hupd, if_neg]
  cases s.sec.conf <;> decide

theorem State.applyReject_eq_state {s : State} {p : Path} (hp : p ≠ .mgmt)
    (h : s.jobIn = true ∨ s.sec.upd ≠ .idle ∨ (s.field 60 0x23 0x040 0 0 == 1) = s.sec.conf) :
    s.applyReject p = some rejState := (if_neg hp).trans (if_pos h)

theorem apply_of_rejected {s : State} {p : Path} {r : Nat} (h : s.applyReject p = some r) :
    apply p s = s.reject 60 0x23 0x040 r := by
  unfold apply
  rw [h]

theorem apply_of_accepted {s : State} {p : Path} (h : s.applyReject p = none) :
    apply p s = ({ s with sec := { s.sec with conf := !s.sec.conf, scrubPending := true } }).beginReset .module := by
  unfold apply
  rw [h]

/-! ## The scrub of the stacks -/

theorem SMap.get_clear {β : Type} {d : Nat → β} (m : SMap β) (lo hi a : Nat) :
    SMap.get d (SMap.clear m lo hi) a = if lo ≤ a ∧ a < hi then d a else SMap.get d m a := by
  induction m with
  | nil => simp [SMap.clear, SMap.get]
  | cons e m ih =>
    obtain ⟨k, v⟩ := e
    unfold SMap.clear at ih ⊢
    rw [List.filter_cons]
    by_cases hk : lo ≤ k ∧ k < hi
    · rw [if_neg (by simp [hk.1, hk.2]), ih]
      by_cases ha : lo ≤ a ∧ a < hi
      · rw [if_pos ha, if_pos ha]
      · have hne : k ≠ a := fun e => ha (e ▸ hk)
        rw [if_neg ha, if_neg ha, SMap.get, if_neg hne]
    · rw [if_pos (by rw [← Bool.decide_and, decide_eq_false hk]; rfl), SMap.get, SMap.get, ih]
      by_cases hka : k = a
      · rw [if_pos hka, if_pos hka, if_neg (hka ▸ hk)]
      · rw [if_neg hka, if_neg hka]

theorem State.zeroStack_get (s : State) (st a : Nat) : SMap.get memDflt (s.zeroStack st).mem.stack a =
    if a / stackBytes = st then 0 else SMap.get memDflt s.mem.stack a := by
  have hiff : (st * stackBytes ≤ a ∧ a < (st + 1) * stackBytes) ↔ a / stackBytes = st := by
    rw [Nat.div_eq_iff (by decide), Nat.add_mul, Nat.one_mul]
    have : 0 < stackBytes := by decide
    omega
  change SMap.get memDflt (SMap.clear s.mem.stack (st * stackBytes) ((st + 1) * stackBytes)) a = _
  rw [SMap.get_clear]
  by_cases h : a / stackBytes = st
  · rw [if_pos (hiff.mpr h), if_pos h]; rfl
  · rw [if_neg (mt hiff.mp h), if_neg h]

/-- Every byte of a stack to scrub reads zero afterwards. -/
theorem forEach_zeroStack_get (l : List Nat) (s : State) {a : Nat}
    (h : l.contains (a / stackBytes) = true ∨ SMap.get memDflt s.mem.stack a = 0) :
    SMap.get memDflt (forEach l (fun st v => v.zeroStack st) s).mem.stack a = 0 := by
  induction l generalizing s with
  | nil => exact h.resolve_left (by simp)
  | cons st l ih =>
    refine ih (s.zeroStack st) ?_
    rw [State.zeroStack_get]
    rcases h with h | h
    · rw [List.contains_cons, Bool.or_eq_true, beq_iff_eq] at h
      exact h.symm.imp_right (fun e => if_pos e)
    · rw [h, ite_self]
      exact Or.inr rfl

/-- Settles O52: the six commands, each by the conditions of its check. -/
theorem keysInstallAndMode : Obligations.KeysInstallAndMode := by
  intro s t p f g
  refine ⟨fun h => ?_, fun h => ⟨fun hg hj => ?_, fun hg hj => ?_, fun hg => ?_⟩, fun hp hjob hupd hmode => ?_,
    fun hp hno => ?_, ?_, ?_, fun hscrub => ?_, fun n hn hscrub hin => ?_⟩
  · intro k
    refine ⟨fun hu => ?_, fun hu hc => ?_, fun hu hc => ?_, State.of_revokeCode_eq_zero⟩
    · exact exec_of_eq rfl ((revoke_of_recv h).trans (if_pos hu))
    · exact exec_of_eq rfl ((revoke_of_recv h).trans ((if_neg (not_not_intro hu)).trans (if_neg (not_not_intro hc))))
    · exact exec_of_eq rfl ((revoke_of_recv h).trans ((if_neg (not_not_intro hu)).trans (if_pos hc)))
  · exact exec_of_eq rfl ((install_of_recv h).trans (by rw [hg, hj]; rfl))
  · exact exec_of_eq rfl ((install_of_recv h).trans (by rw [hg, hj]; rfl))
  · exact exec_of_eq rfl ((install_of_recv h).trans (by rw [hg]; rfl))
  · exact exec_of_eq rfl (apply_of_accepted (State.applyReject_eq_none hp hjob hupd hmode))
  · exact exec_of_eq rfl (apply_of_rejected (State.applyReject_eq_state hp hno))
  · exact exec_of_eq rfl (apply_of_rejected (if_pos rfl))
  · exact rfl
  · intro u v
    refine ⟨exec_of_eq (t := scrubDone s) rfl ?_, fun a ha => forEach_zeroStack_get s.sec.toScrub s (Or.inl ha)⟩
    unfold scrubDone
    exact if_neg (by rw [hscrub]; decide)
  · refine exec_of_eq (onUnit_pos (decide_eq_true hn) _) ?_
    unfold stackScrubTimeout
    exact if_neg (by rw [hscrub, hin]; decide)

end Sys2Proof.Machine
end

section
/-!
PROOFS. Fault records and claims (R394 to R396, R412, R414).
-/
namespace Sys2Proof.Machine

theorem State.event_flt (s : State) (typ subject : Nat) (step arg : Word) (body : List Byte) :
    (s.event typ subject step arg body).flt = s.flt :=
  s.event_keeps State.send_flt State.wr_flt (fun _ _ => rfl) typ subject step arg body

/-! ## The front record of a collector -/

/-- The collector of a die without its front record. -/
def State.collectorAt (s : State) (die : Nat) (rest : List FaultRec) : State :=
  { s with flt := { s.flt with collectors := SMap.set (fun _ => []) s.flt.collectors die rest } }

theorem faultRecord_of_cons {s : State} {die : Nat} {limited : Bool} {r : FaultRec} {rest : List FaultRec}
    (h : SMap.get (fun _ => []) s.flt.collectors die = r :: rest) :
    faultRecord die limited s =
      (let t := s.collectorAt die rest
       if r.cls = 0 ∧ (limited ∨ t.corrQuiet r) then t
       else match t.mergeTarget r with
         | none => t.logRecord r
         | some o =>
           let m := o.merge r
           let u := t.setLog m
           if o.cls < 4 ∧ m.cls = 4 ∧ r.code ≠ 0x0313 then u.fatalSequence else u) := by
  unfold faultRecord
  rw [h]
  rfl

/-- A record below MODULE_FATAL is appended under the next SEQ, and is open from class DEFERRED on (R395). -/
theorem State.logRecord_flt {s : State} {r : FaultRec} (h : r.cls < 4) :
    (s.logRecord r).flt =
      { s.flt with
        log := trimLog s.flt.log ++ [{ r with seq := s.flt.nextSeq % 2 ^ 24, isOpen := decide (2 ≤ r.cls) }],
        nextSeq := s.flt.nextSeq + 1 } := by
  unfold State.logRecord
  dsimp only
  rw [if_neg (fun hc => absurd hc.1 (by omega))]
  split
  · exact State.event_flt _ _ _ _ _ _
  · rfl

/-! ## The window of a record -/

theorem windowExpiry_of_unclaimed {s : State} {seq : Nat} {r : FaultRec}
    (h : s.flt.log.find? (fun x => x.seq == seq && x.isOpen && !x.claimed) = some r) :
    windowExpiry seq s =
      if r.cls = 2 ∧ r.part ≠ 999 then (s.setLog { r with cls := 3, escalated := true }).partitionFatal r.part
      else if r.cls = 2 then (s.setLog { r with cls := 4, escalated := true }).fatalSequence
      else if r.cls = 3 then
        (s.setLog { r with escalated := true, claimed := true }).beginReset (s.partitionDomain r.part)
      else s := by
  unfold windowExpiry
  rw [h]

theorem windowExpiry_of_none {s : State} {seq : Nat}
    (h : s.flt.log.find? (fun x => x.seq == seq && x.isOpen && !x.claimed) = none) : windowExpiry seq s = s := by
  unfold windowExpiry
  rw [h]

/-- Settles O53: the front record by what it meets, the window by the record's class, and the claims by path. -/
theorem faultRecordsAndClaims : Obligations.FaultRecordsAndClaims := by
  intro s die seq limited r rest
  refine ⟨fun hd hc => ?_, fun hf => ⟨fun h2 hp => ?_, fun h2 hp => ?_, fun h3 => ?_⟩, fun hf => ?_, fun hseq => ?_,
    fun p hp => ⟨?_, ?_⟩, fun p hp => ?_, fun hh => ?_, fun hh => ?_⟩
  · have hunit := decide_eq_true hd
    have hrun := faultRecord_of_cons (limited := limited) hc
    intro t quiet
    refine ⟨fun hq => exec_of_eq (onUnit_pos hunit _) (hrun.trans (if_pos hq)), fun hq hm => ⟨?_, fun hcls => ?_⟩,
      fun o hq hm => ?_⟩
    · refine exec_of_eq (onUnit_pos hunit _) (hrun.trans ((if_neg hq).trans ?_))
      rw [show (s.collectorAt die rest).mergeTarget r = none from hm] <;> rfl
    · rw [State.logRecord_flt hcls]
      exact ⟨rfl, rfl⟩
    · intro m u
      refine ⟨exec_of_eq (onUnit_pos hunit _) (hrun.trans ((if_neg hq).trans ?_)), rfl, rfl, rfl, rfl⟩
      rw [show (s.collectorAt die rest).mergeTarget r = some o from hm] <;> rfl
  · exact exec_of_eq rfl ((windowExpiry_of_unclaimed hf).trans (if_pos ⟨h2, hp⟩))
  · exact exec_of_eq rfl ((windowExpiry_of_unclaimed hf).trans ((if_neg (fun c => c.2 hp)).trans (if_pos h2)))
  · have hne : r.cls ≠ 2 := by omega
    exact exec_of_eq rfl ((windowExpiry_of_unclaimed hf).trans
      ((if_neg (fun c => hne c.1)).trans ((if_neg hne).trans (if_pos h3))))
  · exact exec_of_eq rfl (windowExpiry_of_none hf)
  · intro claim close
    exact ⟨exec_of_eq rfl ((if_neg (not_not_intro rfl)).trans (if_neg (Nat.not_le.mpr hseq))),
      exec_of_eq rfl ((if_neg (not_not_intro rfl)).trans (if_neg (Nat.not_le.mpr hseq)))⟩
  · exact exec_of_eq rfl (if_pos hp)
  · exact exec_of_eq rfl (if_pos hp)
  · exact exec_of_eq rfl (if_pos hp)
  · exact exec_of_eq rfl ((if_neg (not_not_intro rfl)).trans (if_pos (by rw [hh]; rfl)))
  · intro t u
    refine exec_of_eq (t := fltRelease .mgmt s) rfl ((if_neg (not_not_intro rfl)).trans ((if_neg (by rw [hh]; decide)).trans ?_))
    exact ite_not _ _ _

end Sys2Proof.Machine
end

section
/-!
PROOFS. Hangs, heartbeat and handover (R294, R350, R398, R401 to R406, R443).
-/
namespace Sys2Proof.Machine

/-! ## The detectors -/

section
variable {s t : State} (hbyte : t.imgByte = s.imgByte)
include hbyte

theorem State.imgNat_congr : t.imgNat = s.imgNat := by
  funext sid sh off n
  simp only [State.imgNat, State.img, hbyte]

theorem State.iw_congr : t.iw = s.iw := by
  funext sid sh off
  rw [State.iw, State.iw, State.imgNat_congr hbyte]

theorem State.opOff_congr (sid : Nat) (sh : Bool) (k : Nat) : t.opOff sid sh k = s.opOff sid sh k := by
  induction k with
  | zero => rfl
  | succ k ih => rw [State.opOff, State.opOff, ih, State.iw_congr hbyte]

theorem State.opAt_congr (sid : Nat) (sh : Bool) (k : Nat) : t.opAt sid sh k = s.opAt sid sh k := by
  simp only [State.opAt, State.opFrom, State.opOff_congr hbyte, State.iw_congr hbyte, State.imgNat_congr hbyte]

theorem State.liveOp_congr (hslots : t.slots = s.slots) (sid op : Nat) : t.liveOp sid op = s.liveOp sid op := by
  have hslot : t.slot sid = s.slot sid := by rw [State.slot, State.slot, hslots]
  unfold State.liveOp State.hOpCount
  rw [hslot, State.imgNat_congr hbyte, State.opAt_congr hbyte]

end

theorem State.keepGraph_liveOp (s : State) (die : Nat) (l : List Edge) (sid op : Nat) :
    (s.keepGraph die l).liveOp sid op = s.liveOp sid op := by
  have hbyte : (s.keepGraph die l).imgByte = s.imgByte := rfl
  have hslots : (s.keepGraph die l).slots = s.slots := rfl
  exact State.liveOp_congr hbyte hslots sid op

theorem State.detect_of_no_suspect {s : State} (h : s.flt.suspects = []) (edges : List Edge) (mine : Nat → Bool)
    (inside : UnitId → Bool) : s.detect edges mine inside = s := by
  rw [State.detect, h]
  rfl

/-- With one suspect the detector looks at it, if it is the detector's own. -/
theorem State.detect_of_suspect {s : State} {sid op : Nat} (h : s.flt.suspects = [(sid, op)]) (edges : List Edge)
    (mine : Nat → Bool) (inside : UnitId → Bool) :
    s.detect edges mine inside = if mine (s.slotDie sid) then s.findHang edges sid op inside else s := by
  rw [State.detect, h]
  change (if s.flt.suspects.contains (sid, op) && mine (s.slotDie sid) then s.findHang edges sid op inside else s) = _
  rw [h, show [(sid, op)].contains (sid, op) = true by simp, Bool.true_and]

/-- What a record of a hang shows of its suspect (R404). -/
def State.hangSite (s : State) (sid : Nat) (o : Op) (l : List UnitId) : Site :=
  { opSite sid o with detail := BitVec.ofNat 64 (inFld 63 56 l.length + inFld 55 48 s.flt.nextSnap) }

theorem State.findHang_of_cycle {s : State} {edges : List Edge} {sid op : Nat} {o : Op} (h : s.liveOp sid op = some o)
    (hc : cycleOf edges (s.slotDie sid, o.unit) ≠ []) (inside : UnitId → Bool) :
    s.findHang edges sid op inside =
      s.confirmCycle (s.slotDie sid) (cycleOf edges (s.slotDie sid, o.unit))
        (s.hangSite sid o (cycleOf edges (s.slotDie sid, o.unit))) := by
  unfold State.findHang
  rw [h]
  exact if_pos (by rw [List.isEmpty_eq_false_iff.mpr hc]; rfl)

theorem hangDomains_of_one_die {l : List UnitId} {x : Nat} (h : (l.map (fun u => u.1)).eraseDups = [x]) :
    hangDomains l = (match (l.map (fun u => u.2)).eraseDups with
      | [u] => if x < 48 ∧ u < 4 then [.core (4 * x + u)] else [dieDomain x]
      | _ => [dieDomain x]) := by
  unfold hangDomains
  rw [h]
  generalize (l.map (fun u => u.2)).eraseDups = units
  match units with
  | [] => rfl
  | [_] => rfl
  | _ :: _ :: _ => rfl

theorem hangDomains_of_dies {l : List UnitId} (h : (l.map (fun u => u.1)).eraseDups.length ≠ 1) :
    hangDomains l = (l.map (fun u => u.1)).eraseDups.map dieDomain := by
  unfold hangDomains
  generalize (l.map (fun u => u.1)).eraseDups = dies at h ⊢
  match dies, h with
  | [], _ => rfl
  | [_], h => exact absurd rfl h
  | _ :: _ :: _, _ => rfl

/-! ## The management pair -/

theorem mgmtHandover_of_lost {s : State} (hon : s.pwr.railsOn = true)
    (h : (s.md (1 - s.sec.active)).running = none ∨ (s.md (1 - s.sec.active)).inService = false) :
    mgmtHandover s = s.raise (60 + s.sec.active) 0x0707 { typ := 0x01, inst := s.sec.active } := by
  unfold mgmtHandover
  refine (if_neg (by rw [hon]; decide)).trans (if_pos ?_)
  exact h.imp (fun e => by rw [e]; rfl) (fun e => by rw [e]; rfl)

theorem mgmtHandover_of_standby {s : State} (hon : s.pwr.railsOn = true)
    (hrun : (s.md (1 - s.sec.active)).running.isSome = true) (hsvc : (s.md (1 - s.sec.active)).inService = true) :
    mgmtHandover s =
      (let a := s.sec.active
       let b := 1 - a
       let t := s.setMd a { s.md a with running := none }
       let u := (({ t with sec := { t.sec with active := b, handover := true } }).setSvc (60 + a) 1).setSvc (60 + b) 2
       let v := if u.sec.upd = .activated ∧ u.sec.target = a then u.revertUpdate else u
       v.raise (60 + b) 0x0706 { typ := 0x01, inst := b }) := by
  unfold mgmtHandover
  refine (if_neg (by rw [hon]; decide)).trans (if_neg ?_)
  rintro (hn | hs)
  · rw [Option.isNone_iff_eq_none] at hn
    rw [hn] at hrun
    exact Bool.false_ne_true hrun
  · rw [hsvc] at hs
    exact Bool.false_ne_true hs

/-- Settles O54: the detectors by their suspects, the pair by its standby, and the replays and edges by their limits. -/
theorem hangsHeartbeatHandover : Obligations.HangsHeartbeatHandover := by
  intro s die sid op edge edges o kept
  refine ⟨fun hnone => ⟨fun hd => ?_, ?_⟩, fun hsus hlive => ?_, fun l x => hangDomains_of_one_die, fun l => hangDomains_of_dies,
    fun hon => ?_, fun hsid hused => ⟨fun hr => ?_, fun hr => ?_⟩, fun hd he => ⟨fun h0 => ?_, fun h0 => ?_⟩, rfl⟩
  · have hkept : (kept die).flt.suspects = [] := hnone
    exact exec_of_eq (onUnit_pos (decide_eq_true hd) _) (State.detect_of_no_suspect hkept _ _ _)
  · exact exec_of_eq rfl (congrArg State.inventoryTick (State.detect_of_no_suspect hnone _ _ _))
  · intro d site confirm here all
    have hkept (x : Nat) : (kept x).flt.suspects = [(sid, op)] := hsus
    refine ⟨fun hd hc => ?_, fun hc => ?_, fun hd hne => ?_⟩
    · refine exec_of_eq (onUnit_pos (decide_eq_true hd) _) ((State.detect_of_suspect (hkept d) _ _ _).trans ?_)
      refine (if_pos (beq_self_eq_true d)).trans ?_
      exact State.findHang_of_cycle ((State.keepGraph_liveOp s d _ sid op).trans hlive) hc _
    · refine exec_of_eq rfl (congrArg State.inventoryTick ((State.detect_of_suspect hsus _ _ _).trans ((if_pos rfl).trans ?_)))
      exact State.findHang_of_cycle hlive hc _
    · refine exec_of_eq (onUnit_pos (decide_eq_true hd) _) ((State.detect_of_suspect (hkept die) _ _ _).trans (if_neg ?_))
      exact fun e => hne (beq_iff_eq.mp e).symm
  · intro a b
    exact ⟨exec_of_eq rfl (if_pos hon), fun h => exec_of_eq rfl (mgmtHandover_of_lost hon h),
      fun hrun hsvc => exec_of_eq rfl (mgmtHandover_of_standby hon hrun hsvc)⟩
  · exact exec_of_eq (onUnit_pos (decide_eq_true hsid) _) (if_pos ⟨hr, hused⟩)
  · exact exec_of_eq (onUnit_pos (decide_eq_true hsid) _) (if_neg (fun c => absurd c.1 (Nat.not_lt.mpr hr)))
  · exact exec_of_eq (onUnit_pos (decide_eq_true ⟨hd, he⟩) _) (if_pos h0)
  · exact exec_of_eq (onUnit_pos (decide_eq_true ⟨hd, he⟩) _) (if_neg h0)

end Sys2Proof.Machine
end

section
/-!
PROOFS. Resets begin (R406 to R411): the tags a reset raises, each once, and what the domain's reset leaves in the list of
running resets.
-/
namespace Sys2Proof.Machine

/-! ## The registers that show the tags of a domain -/

/-- The registers that show a domain's tag, by their home. -/
def tagAddrs (x : Domain) : List Nat := (tagPages x).map (fun p => canonAddr p.1 p.2 0x030)

/-- A rank of the tag registers that follows the order of the module's domains: the module's own pages, then each die's pages,
its cores and its stack, or its ports. -/
def tagRank (a : Nat) : Nat :=
  let die := addrDie a
  let blk := addrBlk a
  if die = 60 then (if blk = 0 then 0 else 1 + blk % 0x20)
  else if blk = 0x20 then 1
  else if blk = 0x0F then 16 + die
  else 256 + 64 * die +
    (if blk = 0 then 0 else if blk = 0x0D then 1 else if blk = 0x10 then 2 else if blk = 0x1F then 3 else if blk = 0x24 then 4
     else if blk = 0x1E then 5 else if blk < 0x0D then 8 + 3 * ((blk - 1) % 4) + (blk - 1) / 4
     else if blk = 0x0E then 30 else 24 + blk)

theorem tagAddrs_module_ranked : (((tagsOf .module).flatMap tagAddrs).map tagRank).IsChain (· < ·) := by decide +kernel

/-- No register shows two of the tags that a reset raises. -/
def tagsApart (d : Domain) : Bool := decide ((tagsOf d).flatMap tagAddrs).Nodup

theorem tagsApart_module : tagsApart .module = true := by
  refine decide_eq_true (List.Nodup.of_map tagRank ?_)
  exact (List.isChain_iff_pairwise.mp tagAddrs_module_ranked).imp Nat.ne_of_lt

theorem tagsApart_cores : (List.range 192).all (fun n => tagsApart (.core n)) = true := by decide +kernel
theorem tagsApart_dies : (List.range 64).all (fun n => tagsApart (.die n)) = true := by decide +kernel
theorem tagsApart_stacks : (List.range 48).all (fun n => tagsApart (.stackPhy n)) = true := by decide +kernel
theorem tagsApart_ports : (List.range 48).all (fun n => tagsApart (.port n)) = true := by decide +kernel
theorem tagsApart_linkDies : (List.range 8).all (fun n => tagsApart (.linkDie (48 + n))) = true := by decide +kernel
theorem tagsApart_hubs : (List.range 4).all (fun n => tagsApart (.hub (56 + n))) = true := by decide +kernel

theorem tagsApart_of_domainOk {d : Domain} (h : domainOk d = true) : tagsApart d = true := by
  have hall {k n : Nat} {p : Nat → Bool} (hp : (List.range k).all p = true) (hn : n < k) : p n = true :=
    List.all_eq_true.mp hp n (List.mem_range.mpr hn)
  cases d with
  | array core a => rfl
  | core n => exact hall tagsApart_cores (of_decide_eq_true h)
  | stackPhy n => exact hall tagsApart_stacks (of_decide_eq_true h)
  | die n =>
    have hn : n < 64 := by
      simp only [domainOk, Bool.or_eq_true, Bool.and_eq_true, decide_eq_true_eq] at h
      omega
    exact hall tagsApart_dies hn
  | port n => exact hall tagsApart_ports (of_decide_eq_true h)
  | linkDie n =>
    simp only [domainOk, Bool.and_eq_true, decide_eq_true_eq] at h
    obtain ⟨k, rfl⟩ := Nat.exists_eq_add_of_le h.1
    exact hall (p := fun n => tagsApart (.linkDie (48 + n))) tagsApart_linkDies (by omega)
  | hub n =>
    simp only [domainOk, Bool.and_eq_true, decide_eq_true_eq] at h
    obtain ⟨k, rfl⟩ := Nat.exists_eq_add_of_le h.1
    exact hall (p := fun n => tagsApart (.hub (56 + n))) tagsApart_hubs (by omega)
  | module => exact tagsApart_module

/-! ## Raising tags -/

/-- Raises the tag that a page shows. -/
def State.raisePage (s : State) (p : Nat × Nat) : State := s.setField p.1 p.2 0x030 7 0 (nextTag (s.field p.1 p.2 0x030 7 0))

/-- Only the registers decide what a field reads. -/
theorem State.field_congr {s t : State} (h : t.regs = s.regs) (die blk off hi lo : Nat) :
    t.field die blk off hi lo = s.field die blk off hi lo := by
  rw [State.field, State.field, State.rd, State.rd, State.reg, State.reg, h]

theorem State.raisePage_regs_congr {s t : State} (h : t.regs = s.regs) (p : Nat × Nat) :
    (t.raisePage p).regs = (s.raisePage p).regs := by
  simp only [State.raisePage, State.setField, State.wr, State.setReg, State.field, State.rd, State.reg, h]

theorem forEach_raisePage_regs_congr (l : List (Nat × Nat)) {s t : State} (h : t.regs = s.regs) :
    (forEach l (fun p u => u.raisePage p) t).regs = (forEach l (fun p u => u.raisePage p) s).regs := by
  induction l generalizing s t with
  | nil => exact h
  | cons p l ih => exact ih (State.raisePage_regs_congr h p)

theorem State.raiseTag_regs (s : State) (x : Domain) :
    (s.raiseTag x).regs = (forEach (tagPages x) (fun p u => u.raisePage p) s).regs := by
  unfold State.raiseTag
  cases x <;> exact forEach_raisePage_regs_congr _ rfl

theorem forEach_append {α : Type} (l m : List α) (f : α → State → State) (s : State) :
    forEach (l ++ m) f s = forEach m f (forEach l f s) := by
  induction l generalizing s with
  | nil => rfl
  | cons a l ih => exact ih (f a s)

/-- The tags of a list of domains are raised page by page. -/
theorem forEach_raiseTag_regs (l : List Domain) {s t : State} (h : t.regs = s.regs) :
    (forEach l (fun x u => u.raiseTag x) t).regs = (forEach (l.flatMap tagPages) (fun p u => u.raisePage p) s).regs := by
  induction l generalizing s t with
  | nil => exact h
  | cons x l ih =>
    rw [List.flatMap_cons, forEach_append]
    exact ih ((t.raiseTag_regs x).trans (forEach_raisePage_regs_congr _ h))

theorem State.rd_raisePage_ne (s : State) {p q : Nat × Nat} (h : canonAddr q.1 q.2 0x030 ≠ canonAddr p.1 p.2 0x030) :
    (s.raisePage p).rd q.1 q.2 0x030 = s.rd q.1 q.2 0x030 := SMap.get_set_ne _ _ h

theorem nextTag_lt {t : Nat} (h : t < 256) : nextTag t < 256 := by
  unfold nextTag
  split <;> omega

theorem State.field_lt (s : State) (die blk off : Nat) : s.field die blk off 7 0 < 256 := Nat.mod_lt _ (by decide)

theorem State.field_raisePage_self {s : State} (h : Registers.wf s.regs = true) (p : Nat × Nat) :
    (s.raisePage p).field p.1 p.2 0x030 7 0 = nextTag (s.field p.1 p.2 0x030 7 0) := by
  have hrd : (s.raisePage p).rd p.1 p.2 0x030 =
      setFld (s.rd p.1 p.2 0x030) 7 0 (nextTag (s.field p.1 p.2 0x030 7 0)) := SMap.get_set_self _ _ h
  rw [State.field, hrd, fld_setFld_self _ _ (by decide) (by decide)]
  exact Nat.mod_eq_of_lt (nextTag_lt (s.field_lt _ _ _))

theorem State.raisePage_wf {s : State} (h : Registers.wf s.regs = true) (p : Nat × Nat) :
    Registers.wf (s.raisePage p).regs = true := SMap.wf_set _ _ h

theorem forEach_raisePage_rd_apart {l : List (Nat × Nat)} {q : Nat × Nat}
    (h : canonAddr q.1 q.2 0x030 ∉ l.map (fun p => canonAddr p.1 p.2 0x030)) (s : State) :
    (forEach l (fun p u => u.raisePage p) s).rd q.1 q.2 0x030 = s.rd q.1 q.2 0x030 := by
  induction l generalizing s with
  | nil => rfl
  | cons p l ih =>
    rw [List.map_cons, List.mem_cons, not_or] at h
    exact (ih h.2 (s.raisePage p)).trans (s.rd_raisePage_ne h.1)

/-- Pages whose tags lie in different registers show each tag raised once. -/
theorem forEach_raisePage_field {l : List (Nat × Nat)} (hnd : (l.map (fun p => canonAddr p.1 p.2 0x030)).Nodup) {s : State}
    (hwf : Registers.wf s.regs = true) {q : Nat × Nat} (hq : q ∈ l) :
    (forEach l (fun p u => u.raisePage p) s).field q.1 q.2 0x030 7 0 = nextTag (s.field q.1 q.2 0x030 7 0) := by
  induction l generalizing s with
  | nil => cases hq
  | cons p l ih =>
    rw [List.map_cons, List.nodup_cons] at hnd
    obtain ⟨hp, hl⟩ := hnd
    rcases List.mem_cons.mp hq with rfl | hmem
    · have hrest := forEach_raisePage_rd_apart hp (s.raisePage q)
      exact (congrArg (fun w => fld w 7 0) hrest).trans (State.field_raisePage_self hwf q)
    · have hne : canonAddr q.1 q.2 0x030 ≠ canonAddr p.1 p.2 0x030 := fun e =>
        hp (e ▸ List.mem_map_of_mem hmem)
      refine (ih hl (State.raisePage_wf hwf p) hmem).trans ?_
      rw [State.field, State.field, s.rd_raisePage_ne hne]

theorem nextTag_of_lt {t : Nat} (h : t < 256) : nextTag t = if t = 255 then 1 else t + 1 := by
  unfold nextTag
  by_cases ht : t = 255
  · rw [if_pos ht, if_pos (by omega)]
  · rw [if_neg ht, if_neg (by omega)]

/-- Every page of the domains in a part of a reset's tags shows its tag raised once. -/
theorem forEach_raiseTag_field {d : Domain} (hd : domainOk d = true) {l : List Domain} (hl : l.Sublist (tagsOf d)) {s t : State}
    (hwf : Registers.wf s.regs = true) (ht : t.regs = s.regs) {x : Domain} (hx : x ∈ l) {p : Nat × Nat} (hp : p ∈ tagPages x) :
    (forEach l (fun x u => u.raiseTag x) t).field p.1 p.2 0x030 7 0 = nextTag (s.field p.1 p.2 0x030 7 0) := by
  have hnd : ((l.flatMap tagPages).map (fun p => canonAddr p.1 p.2 0x030)).Nodup := by
    rw [List.map_flatMap]
    exact (of_decide_eq_true (tagsApart_of_domainOk hd)).sublist (hl.flatMap tagAddrs)
  rw [State.field_congr (forEach_raiseTag_regs l ht)]
  exact forEach_raisePage_field hnd hwf (List.mem_flatMap.mpr ⟨x, hx, hp⟩)

/-! ## What raising a tag leaves alone -/

theorem forEach_raisePage_resets (l : List (Nat × Nat)) (s : State) :
    (forEach l (fun p u => u.raisePage p) s).flt.resets = s.flt.resets :=
  forEach_keeps (φ := fun t => t.flt.resets) (fun p t => (rfl : (t.raisePage p).flt.resets = t.flt.resets)) l s

theorem State.raiseTag_resets (s : State) (x : Domain) : (s.raiseTag x).flt.resets = s.flt.resets := by
  unfold State.raiseTag
  cases x <;> exact forEach_raisePage_resets _ _

theorem resetCount_countReset (s : State) (d : Domain) :
    resetCount d (s.countReset d).flt.resets = resetCount d s.flt.resets + 1 := by
  have hfind : (s.flt.resets.filter (fun e => e.1 != d) ++ [(d, resetCount d s.flt.resets + 1)]).find? (fun e => e.1 == d) =
      some (d, resetCount d s.flt.resets + 1) := by
    have hnone : (s.flt.resets.filter (fun e => e.1 != d)).find? (fun e => e.1 == d) = none := by simp
    rw [List.find?_append, hnone]
    simp
  change resetCount d (s.flt.resets.filter (fun e => e.1 != d) ++ [(d, resetCount d s.flt.resets + 1)]) = _
  conv_lhs => rw [resetCount, hfind]

theorem not_mem_enclosing_self (d : Domain) : d ∉ enclosing d := by
  cases d <;> simp [enclosing]

/-! ## Where no reset begins -/

theorem State.beginReset_of_not {s : State} {d : Domain} (h : s.canReset d = false) : s.beginReset d = s :=
  if_pos (by rw [h]; rfl)

theorem State.canReset_eq_false {s : State} {d : Domain}
    (h : s.pwr.railsOn = false ∨ d ∈ s.flt.resetting ∨ (∃ e ∈ enclosing d, e ∈ s.flt.resetting) ∨ domainDie d ∈ s.flt.fenced) :
    s.canReset d = false := by
  unfold State.canReset
  rcases h with h | h | ⟨e, he, hin⟩ | h
  · simp [h]
  · simp [h]
  · have hany : (enclosing d).any s.flt.resetting.contains = true :=
      List.any_eq_true.mpr ⟨e, he, List.contains_iff_mem.mpr hin⟩
    simp [hany]
  · simp [h]

theorem State.canReset_active_management {s : State} (h : s.sec.active < 2) : s.canReset (.die (60 + s.sec.active)) = false := by
  unfold State.canReset
  dsimp only
  rw [if_neg (by omega), if_pos (by omega)]
  simp

theorem State.canReset_active_ledger {s : State} (h : s.ldg.active < 2) : s.canReset (.die (62 + s.ldg.active)) = false := by
  unfold State.canReset
  dsimp only
  rw [if_neg (by omega), if_neg (by omega)]
  simp

/-! ## Where one begins -/

/-- The snapshot of a reset that begins: a new one, one that is widened, or none (R406). -/
def State.snapFor (s : State) (d : Domain) (taken : List Domain) : State :=
  if snapped d = false then s else if taken.any snapped = true then s.widenSnap d taken else s.snapshot d

theorem State.snapFor_regs (s : State) (d : Domain) (taken : List Domain) : (s.snapFor d taken).regs = s.regs := by
  unfold State.snapFor
  split
  · rfl
  · split <;> rfl

theorem State.snapFor_resets (s : State) (d : Domain) (taken : List Domain) :
    (s.snapFor d taken).flt.resets = s.flt.resets := by
  unfold State.snapFor
  split
  · rfl
  · split <;> rfl

/-- Settles O55: the commands are `beginReset` of their domains, and each part of a reset that begins has its lemma. -/
theorem resetsBegin : Obligations.ResetsBegin := by
  intro s n a
  refine ⟨fun hn ha => onUnit_pos ?_ _, fun hn => onUnit_pos (decide_eq_true hn) _, fun hn => onUnit_pos (decide_eq_true hn) _,
    fun hn => onUnit_pos ?_ _, fun hn => onUnit_pos (decide_eq_true hn) _, fun h1 h2 => onUnit_pos ?_ _,
    fun h1 h2 => onUnit_pos ?_ _, rfl, fun d h => State.beginReset_of_not (State.canReset_eq_false h),
    fun h => State.beginReset_of_not (State.canReset_active_management h),
    fun h => State.beginReset_of_not (State.canReset_active_ledger h), fun d hinv hd hcan => ?_⟩
  · simp [domainOk, hn, ha]
  · simpa [domainOk] using hn
  · simp [domainOk, h1, h2]
  · simp [domainOk, h1, h2]
  · intro taken tags t u v
    have hresets : (forEach tags (fun x v => v.raiseTag x) t).flt.resets = s.flt.resets :=
      (forEach_keeps (φ := fun t => t.flt.resets) (fun x t => t.raiseTag_resets x) tags t).trans (s.snapFor_resets d taken)
    refine ⟨?_, ?_, List.mem_append_right _ (List.mem_singleton_self d), fun x hx => ?_, fun x hx p hp => ?_⟩
    · refine (if_neg (by rw [hcan]; decide)).trans ?_
      have hsnap : (if (!snapped d) = true then s else if taken.any snapped = true then s.widenSnap d taken else s.snapshot d) = t := by
        simp only [Bool.not_eq_true']
        rfl
      exact congrArg (fun w : State =>
        let u := (forEach tags (fun x v => v.raiseTag x) w).countReset d
        let v := { u with flt := { u.flt with resetting := u.flt.resetting.filter (fun x => !(enclosing x).contains d) ++ [d] } }
        v.resetBody d (tags.contains (.die (domainDie d)) || tags.contains d) (!taken.isEmpty)) hsnap
    · exact (resetCount_countReset _ d).trans (by rw [hresets])
    · rcases List.mem_append.mp hx with hin | hself
      · have hout := (List.mem_filter.mp hin).2
        simpa using hout
      · rw [List.mem_singleton.mp hself]
        exact not_mem_enclosing_self d
    · rw [← nextTag_of_lt (s.field_lt _ _ _)]
      exact forEach_raiseTag_field hd List.filter_sublist hinv.regs (s.snapFor_regs d taken) hx hp

end Sys2Proof.Machine
end

section
/-!
PROOFS. Grants, thermal limits and rails (R294, R419, R420, R424, R433).
-/
namespace Sys2Proof.Machine

/-! ## Thermal samples -/

theorem forEach_fixed {α : Type} {f : α → State → State} {l : List α} {s : State} (h : ∀ a ∈ l, f a s = s) :
    forEach l f s = s := by
  induction l with
  | nil => rfl
  | cons a l ih =>
    exact (congrArg (forEach l f) (h a List.mem_cons_self)).trans (ih (fun b hb => h b (List.mem_cons_of_mem a hb)))

theorem forN_fixed {f : Nat → State → State} {n : Nat} {s : State} (h : ∀ i, i < n → f i s = s) : forN n f s = s :=
  forEach_fixed (fun i hi => h i (List.mem_range.mp hi))

theorem State.thermalHigh_of_cool {s : State} {die key : Nat} {temp : Int} (h : temp ≤ (s.warnOf die : Int)) :
    s.thermalHigh die key temp = s := if_pos (Or.inl h)

theorem State.thermTrip_of_cool (s : State) (die : Nat) (stack : Bool) {temp : Int} (h : temp < 90) :
    s.thermTrip die stack temp = s := if_pos (Or.inl (by omega))

theorem State.thermPin_of_cool (s : State) {temps : List Int} (h : ∀ x ∈ temps, x < 115) : s.thermPin temps = s :=
  if_pos (Or.inr (List.all_eq_true.mpr (fun x hx => decide_eq_true (h x hx))))

/-- A reading of 115 degrees leaves THERMTRIP_N asserted (R433). -/
theorem State.thermPin_of_hot (s : State) {temps : List Int} (h : ∃ x ∈ temps, 115 ≤ x) : (s.thermPin temps).pwr.thermtrip = true := by
  obtain ⟨x, hx, hhot⟩ := h
  have hall : temps.all (fun t => decide (t < 115)) = false := by
    rw [List.all_eq_false]
    exact ⟨x, hx, by simpa using hhot⟩
  unfold State.thermPin
  by_cases hset : s.pwr.thermtrip = true
  · rw [if_pos (Or.inl hset), hset]
  · rw [if_neg (by simp [hset, hall]), State.send_pwr]

/-- The readings of a sample, as the die's registers show them. -/
def State.showTemps (s : State) (die : Nat) (top : Int × Nat) (stack : Int) : State :=
  ((s.wr die 0 0x050 (BitVec.ofNat 64 (inFld 23 16 top.2 + (BitVec.ofInt 16 top.1).toNat))).setField die 0x0E 0x048 15 8
    stack.toNat).setField die 0x0E 0x048 2 2 (if 85 < stack then 1 else 0)

/-- The readings that reach the restricted arrays of a die. -/
def State.restrictArrays (s : State) (die : Nat) (sensors : List Int) : State :=
  forN 4 (fun c u => forN 7 (fun a v =>
    match sensors[7 * c + a]? with
    | none => v
    | some x =>
      if v.aryState (4 * die + c) a = 3 then
        ({ v with free := v.free + 1 }).holdRestriction (4 * die + c) a x (Nat.min 8 (Config.activity v.free).toNat)
      else v) u) s

theorem State.restrictArrays_of_none {s : State} {die : Nat} (sensors : List Int)
    (h : ∀ c a, c < 4 → a < 7 → s.aryState (4 * die + c) a ≠ 3) : s.restrictArrays die sensors = s := by
  refine forN_fixed (fun c hc => forN_fixed (fun a ha => ?_))
  split
  · rfl
  · exact if_neg (h c a hc ha)

theorem thermalSample_of_on {s : State} (hon : s.pwr.railsOn = true) (die : Nat) (sensors : List Int) (stack : Int) :
    thermalSample die sensors stack s =
      (let top := hottest sensors
       let u := s.showTemps die top stack
       let v := (u.thermalHigh die die top.1).thermalHigh die (100 + die) stack
       let w := ((v.restrictArrays die sensors).coolDown die top.1).coolDown (100 + die) stack
       ((w.thermTrip die false top.1).thermTrip die true stack).thermPin (stack :: sensors)) :=
  if_neg (by rw [hon]; decide)

/-- A sample below every limit only shows its readings, and lets a tripped die leave its reset. -/
theorem thermalSample_of_cool {s : State} {n : Nat} {sensors : List Int} {stack : Int} (hon : s.pwr.railsOn = true)
    (htop : (hottest sensors).1 ≤ ((s.showTemps n (hottest sensors) stack).warnOf n : Int))
    (hstack : stack ≤ ((s.showTemps n (hottest sensors) stack).warnOf n : Int)) (htop90 : (hottest sensors).1 < 90)
    (hstack90 : stack < 90) (hall : ∀ x ∈ sensors, x < 115)
    (hary : ∀ c a, c < 4 → a < 7 → (s.showTemps n (hottest sensors) stack).aryState (4 * n + c) a ≠ 3) :
    thermalSample n sensors stack s =
      (let u := s.showTemps n (hottest sensors) stack
       { u with pwr := { u.pwr with tripped := NSet.del (NSet.del u.pwr.tripped n) (100 + n) } }) := by
  have hpin : ∀ x ∈ stack :: sensors, x < 115 := fun x hx =>
    (List.mem_cons.mp hx).elim (fun e => by rw [e]; omega) (hall x)
  rw [thermalSample_of_on hon]
  dsimp only
  rw [State.thermalHigh_of_cool htop, State.thermalHigh_of_cool hstack, State.restrictArrays_of_none sensors hary,
    State.thermTrip_of_cool _ _ _ htop90, State.thermTrip_of_cool _ _ _ hstack90, State.thermPin_of_cool _ hpin]
  unfold State.coolDown
  rw [if_pos htop90, if_pos hstack90]

/-! ## Rails -/

theorem railPoll_of_on {s : State} (hon : s.pwr.railsOn = true) (x : RailSample) : railPoll [x] s = s.railSample x :=
  if_pos hon

theorem State.railSample_of_good {s : State} {x : RailSample} (hbad : x.badReplies < 2) (hrail : x.rail < 48) :
    s.railSample x =
      (let u := s.wr 60 0x22 (0xC00 + 8 * x.rail) (BitVec.ofNat 64 (inFld 47 32 x.amps + inFld 15 0 x.mv))
       let sum := (quadDies (quadOf x.rail)).foldl (fun a d => a + u.field 60 0x22 (0xC00 + 8 * d) 47 32) 0
       let v := u.wr 60 0x22 (0xD80 + 8 * quadOf x.rail) (BitVec.ofNat 64 sum)
       if x.lost = true then v.railLost x.rail else v) := by
  unfold State.railSample
  rw [if_neg (Nat.not_le.mpr hbad)]
  dsimp only
  rw [if_pos hrail]

theorem State.railLost_of_on {s : State} (hon : s.pwr.railsOn = true) (rail : Nat) :
    s.railLost rail =
      if rail < 48 then
        (if s.flt.fenced.contains rail then s else (s.raiseEscalated rail 0x0702 3 { typ := 0x01 }).fenceDie rail)
      else if rail = 52 then s.unpower
      else s.raiseEscalated (60 + s.sec.active) 0x0702 4 { typ := 0x22, inst := s.sec.active, sub := rail } :=
  if_neg (by rw [hon]; decide)

/-- Settles O57: a window by what fits QSTEP_A, a sample by its limits, and a rail by its number. -/
theorem grantsThermalAndRails : Obligations.GrantsThermalAndRails := by
  intro s n sensors stack
  refine ⟨fun hn => ?_, fun hn hon => ?_, fun hn hoff => ?_, fun x hx hon => ?_, fun hn hon => ⟨fun hlow hf => ?_, fun hlow hf => ?_,
    fun h52 => ?_, fun hlow h52 => ?_⟩⟩
  · intro ask served t
    have hserved : served.length ≤ s.field 60 0x22 0x040 12 0 / 105 := List.length_take_le _ _
    refine ⟨(Nat.mul_le_mul_left 105 hserved).trans (Nat.mul_div_le _ _), exec_of_eq (onUnit_pos (decide_eq_true hn) _) ?_⟩
    refine (show grantWindow n s = if ask.length - served.length = 0 then t
      else t.bump 60 0x22 (0xDA0 + 8 * n) (ask.length - served.length) from rfl).trans ?_
    simp only [Nat.sub_eq_zero_iff_le]
  · intro top t u
    refine ⟨fun htop hstack htop90 hstack90 hall hary => ?_, fun hhot => ?_⟩
    · exact exec_of_eq (onUnit_pos (decide_eq_true hn) _) (thermalSample_of_cool hon htop hstack htop90 hstack90 hall hary)
    · refine ⟨_, exec_of_eq (onUnit_pos (decide_eq_true hn) _) (thermalSample_of_on hon n sensors stack),
        State.thermPin_of_hot _ ?_⟩
      rcases hhot with h | ⟨x, hx, h⟩
      · exact ⟨stack, List.mem_cons_self, h⟩
      · exact ⟨x, List.mem_cons_of_mem _ hx, h⟩
  · exact exec_of_eq (onUnit_pos (decide_eq_true hn) _) (if_pos (by rw [hoff]; rfl))
  · intro u sum v
    have hunit : [x].all (fun x => decide (x.rail < 73)) = true := by simp; omega
    have hrun : exec (.railTelemetryPoll [x]) s = .next (s.railSample x) :=
      exec_of_eq (onUnit_pos hunit _) (railPoll_of_on hon x)
    refine ⟨fun hbad hl => ?_, fun hbad hl => ?_, fun hbad => exec_of_eq hrun (if_pos hbad)⟩
    · exact exec_of_eq hrun ((State.railSample_of_good hbad hx).trans (if_neg (by rw [hl]; decide)))
    · exact exec_of_eq hrun ((State.railSample_of_good hbad hx).trans (if_pos hl))
  · refine exec_of_eq (onUnit_pos (decide_eq_true hn) _) ((State.railLost_of_on hon n).trans ((if_pos hlow).trans (if_neg ?_)))
    exact fun h => hf (List.contains_iff_mem.mp h)
  · refine exec_of_eq (onUnit_pos (decide_eq_true hn) _) ((State.railLost_of_on hon n).trans ((if_pos hlow).trans (if_pos ?_)))
    exact List.contains_iff_mem.mpr hf
  · exact exec_of_eq (onUnit_pos (decide_eq_true hn) _) ((State.railLost_of_on hon n).trans ((if_neg (by omega)).trans (if_pos h52)))
  · exact exec_of_eq (onUnit_pos (decide_eq_true hn) _)
      ((State.railLost_of_on hon n).trans ((if_neg (Nat.not_lt.mpr hlow)).trans (if_neg h52)))

end Sys2Proof.Machine
end

section
/-!
PROOFS. Regulator timeouts and clocks (R293, R294, R428): what the raising of a fault leaves of the power state, and the two
commands.
-/
namespace Sys2Proof.Machine

/-! ## A fault leaves the power state alone -/

theorem ite_keeps {β : Type} {φ : State → β} {c : Prop} [Decidable c] {t u : State} {b : β} (ht : φ t = b) (hu : φ u = b) :
    φ (if c then t else u) = b := by
  split
  · exact ht
  · exact hu

theorem State.collect_pwr (s : State) (r : FaultRec) : (s.collect r).pwr = s.pwr := rfl

theorem State.sendMsg_pwr (s : State) (die : Nat) (m : Msg) : (s.sendMsg die m).pwr = s.pwr := by
  have hleave (p : Nat) : (s.segmentLeaves m p).pwr = s.pwr := by
    unfold State.segmentLeaves
    split <;> rfl
  unfold State.sendMsg
  split
  · exact hleave _
  · rfl

theorem State.ledgerMsg_pwr (s : State) (dst typ : Nat) (st : Step) (body : List Byte) :
    (s.ledgerMsg dst typ st body).pwr = s.pwr := State.sendMsg_pwr _ _ _

theorem State.notice_pwr (s : State) (sid : Nat) (st : Step) (allow gran : Nat) : (s.notice sid st allow gran).pwr = s.pwr :=
  forEach_keeps (φ := State.pwr) (fun m t => t.ledgerMsg_pwr m _ _ _) _ s

theorem State.toReplaying_pwr (s : State) (sid : Nat) : (s.toReplaying sid).pwr = s.pwr := by
  unfold State.toReplaying
  dsimp only
  split
  · rfl
  · split
    · rfl
    · have hsel (t : State) : (if sid < 48 then forN 4 (fun u x => x.setField (x.slotDie sid) (0x09 + u) 0x050 13 0 0) t else t).pwr =
          t.pwr :=
        ite_keeps (φ := State.pwr) (forN_keeps (φ := State.pwr) (fun _ t => t.setField_pwr _ _ _ _ _ _) 4 t) rfl
      have hbump (t : State) (r : SlotRun) (ht : t = (s.dropAttempt sid).setSlot sid r) :
          ((if sid < 48 then forN 4 (fun u x => x.setField (x.slotDie sid) (0x09 + u) 0x050 13 0 0) t else t).bump
            62 0x20 0xC08).pwr = s.pwr := by
        rw [State.bump_pwr, hsel, ht]
        rfl
      refine (State.setRec_pwr _ _).trans (ite_keeps (φ := State.pwr) ((State.ledgerMsg_pwr _ _ _ _ _).trans ?_) ?_)
      · exact hbump _ _ rfl
      · exact hbump _ _ rfl

theorem State.goBack_pwr (s : State) (sid : Nat) (st : Step) : (s.goBack sid st).pwr = s.pwr := by
  have hback : (s.backRecs sid st).pwr = s.pwr := forEach_keeps (φ := State.pwr) (fun r t => t.ledgerMsg_pwr _ _ _ _) _ s
  unfold State.goBack
  dsimp only
  split
  · rfl
  · rw [State.toReplaying_pwr, State.setSlot_pwr, hback]

theorem State.partitionFatal_pwr (s : State) (part : Nat) : (s.partitionFatal part).pwr = s.pwr := by
  have hagain : (s.faultAgain part).pwr = s.pwr := by
    unfold State.faultAgain
    dsimp only
    split <;> rfl
  have hreplay (t : State) (allow : Nat) : (t.replaySlot part allow).pwr = t.pwr := by
    unfold State.replaySlot
    dsimp only
    split
    · rfl
    · rw [State.notice_pwr, State.toReplaying_pwr]
  have hmodule (st : Step) (allow : Nat) : (s.replayModule part st allow).pwr = s.pwr :=
    (State.notice_pwr _ _ _ _ _).trans (forEach_keeps (φ := State.pwr) (fun n t => t.goBack_pwr n st) _ s)
  unfold State.partitionFatal
  split
  · exact (hreplay _ _).trans hagain
  · split
    · refine (State.setSlot_pwr _ _ _).trans ?_
      split
      · rfl
      · exact hmodule _ _
    · rfl

theorem State.moduleFatal_pwr (s : State) : s.moduleFatal.pwr = s.pwr :=
  forEach_keeps (φ := State.pwr) (fun n t => t.setSlot_pwr n { t.slot n with stopped := true }) _ _

theorem State.raiseAs_pwr (s : State) (die code cls : Nat) (x : Site) : (s.raiseAs die code cls x).pwr = s.pwr := by
  unfold State.raiseAs
  dsimp only
  split
  · exact (State.partitionFatal_pwr _ _).trans (State.collect_pwr _ _)
  · split
    · exact (State.moduleFatal_pwr _).trans (State.collect_pwr _ _)
    · exact State.collect_pwr _ _

/-! ## A regulator that does not answer -/

theorem avsAckTimeout_of_tries {s : State} {n : Nat} (hon : s.pwr.railsOn = true)
    (h : SMap.get (fun _ => 0) s.pwr.avsTries n < 3) :
    avsAckTimeout n s =
      ({ s with pwr := { s.pwr with
        avsTries := SMap.set (fun _ => 0) s.pwr.avsTries n (SMap.get (fun _ => 0) s.pwr.avsTries n + 1) } }).send
        (.avs n (s.volts n)) :=
  (if_neg (by rw [hon]; decide)).trans (if_pos h)

/-- The fault of a regulator that has not answered in all its tries: POWER_AVS (R293). -/
def State.avsSpent (s : State) (n : Nat) : State :=
  ({ s with pwr := { s.pwr with avsTries := SMap.set (fun _ => 0) s.pwr.avsTries n 0 } }).raise (s.avsSite n).1 0x0701
    (s.avsSite n).2

/-- What that fault does to the slot of a die that waits for its voltage. -/
def State.avsFailed (t : State) (n : Nat) (slot : Option Nat) : State :=
  match slot with
  | none => t
  | some sid => if (t.slot sid).phase = .opened ∨ !t.jobIn then t else t.excludeBin n (t.dieBin n)

theorem avsAckTimeout_of_spent {s : State} {n : Nat} (hon : s.pwr.railsOn = true)
    (h : 3 ≤ SMap.get (fun _ => 0) s.pwr.avsTries n) :
    avsAckTimeout n s = (s.avsSpent n).avsFailed n (if n < 48 then (s.avsSpent n).dieSlot n else none) := by
  unfold avsAckTimeout
  exact (if_neg (by rw [hon]; decide)).trans (if_neg (Nat.not_lt.mpr h))

/-! ## A reference clock that is lost -/

theorem NSet.mem_add (l : List Nat) (k x : Nat) : x ∈ NSet.add l k ↔ x ∈ l ∨ x = k := by
  induction l with
  | nil => simp [NSet.add]
  | cons j m ih =>
    unfold NSet.add
    split
    · simp [or_comm]
    · split
      · next hj => subst hj; simp [or_comm]
      · rw [List.mem_cons, ih, List.mem_cons, or_assoc]

theorem backupOf_ne (p : Nat) : backupOf p ≠ p := by
  unfold backupOf
  split <;> omega

/-- What a lost pair does at one peripheral die. -/
def State.clockLost (pair d : Nat) (u : State) : State :=
  let p := pairOf d
  if p ≠ pair ∧ backupOf p ≠ pair then u
  else if u.pwr.lostPairs.contains p && u.pwr.lostPairs.contains (backupOf p) then
    u.raiseAs d 0x0703 (if u.partition d < 60 then 3 else 4) { typ := 0x01 }
  else if p = pair then { u with pwr := { u.pwr with onBackup := NSet.add u.pwr.onBackup d } }
  else u

/-- With one pair lost, a die on it goes to the backup pair, and another stays as it is. -/
theorem State.clockLost_of_first {u : State} {n : Nat} (h : u.pwr.lostPairs = [n]) (d : Nat) :
    u.clockLost n d = if pairOf d = n then { u with pwr := { u.pwr with onBackup := NSet.add u.pwr.onBackup d } } else u := by
  have hboth : (u.pwr.lostPairs.contains (pairOf d) && u.pwr.lostPairs.contains (backupOf (pairOf d))) = false := by
    rw [h, Bool.and_eq_false_iff]
    by_cases hp : pairOf d = n
    · have hb := backupOf_ne (pairOf d)
      rw [hp] at hb ⊢
      exact Or.inr (by simpa using hb)
    · exact Or.inl (by simpa using hp)
  unfold State.clockLost
  dsimp only
  rw [hboth, if_neg Bool.false_ne_true]
  by_cases hp : pairOf d = n
  · rw [if_neg (fun c => c.1 hp)]
  · rw [if_neg hp, ite_self]

theorem forEach_clockLost (l : List Nat) {u : State} {n : Nat} (h : u.pwr.lostPairs = [n]) :
    (forEach l (fun d v => v.clockLost n d) u).pwr.lostPairs = [n] ∧
      ∀ x, x ∈ (forEach l (fun d v => v.clockLost n d) u).pwr.onBackup ↔ x ∈ u.pwr.onBackup ∨ (x ∈ l ∧ pairOf x = n) := by
  induction l generalizing u with
  | nil => exact ⟨h, fun x => by simp [forEach]⟩
  | cons d l ih =>
    by_cases hp : pairOf d = n
    · have hstep : u.clockLost n d = { u with pwr := { u.pwr with onBackup := NSet.add u.pwr.onBackup d } } :=
        (State.clockLost_of_first h d).trans (if_pos hp)
      obtain ⟨hlost, hmem⟩ := ih (u := u.clockLost n d) (by rw [hstep]; exact h)
      refine ⟨hlost, fun x => (hmem x).trans ?_⟩
      rw [hstep, NSet.mem_add, List.mem_cons]
      constructor
      · rintro ((hx | rfl) | ⟨hx, hn⟩)
        · exact .inl hx
        · exact .inr ⟨.inl rfl, hp⟩
        · exact .inr ⟨.inr hx, hn⟩
      · rintro (hx | ⟨rfl | hx, hn⟩)
        · exact .inl (.inl hx)
        · exact .inl (.inr rfl)
        · exact .inr ⟨hx, hn⟩
    · have hstep : u.clockLost n d = u := (State.clockLost_of_first h d).trans (if_neg hp)
      obtain ⟨hlost, hmem⟩ := ih (u := u.clockLost n d) (by rw [hstep]; exact h)
      refine ⟨hlost, fun x => (hmem x).trans ?_⟩
      rw [hstep, List.mem_cons]
      constructor
      · rintro (hx | ⟨hx, hn⟩)
        · exact .inl hx
        · exact .inr ⟨.inr hx, hn⟩
      · rintro (hx | ⟨rfl | hx, hn⟩)
        · exact .inl hx
        · exact absurd hn hp
        · exact .inr ⟨hx, hn⟩

theorem refclkLoss_eq {s : State} {n : Nat} (hon : s.pwr.railsOn = true) (hn : n ∉ s.pwr.lostPairs) :
    refclkLoss n s =
      forEach ((List.range 16).map (fun i => 48 + i)) (fun d u => u.clockLost n d)
        (forEach (quadDies n) (fun d u => u.raise d 0x0703 { typ := 0x01 })
          { s with pwr := { s.pwr with lostPairs := NSet.add s.pwr.lostPairs n } }) := by
  unfold refclkLoss
  refine if_neg ?_
  rw [hon]
  simpa using hn

/-- Settles O58: a regulator by the tries that are left, and a lost pair die by die. -/
theorem regulatorsAndClocks : Obligations.RegulatorsAndClocks := by
  intro s n hon z
  refine ⟨fun hn => ⟨fun ht => ?_, fun ht => ?_⟩, fun hlow hn => ⟨fun ht => ?_, fun ht => ?_⟩, ?_, fun hn hmem => ?_,
    fun hn hnone => ?_⟩
  · exact exec_of_eq (onUnit_pos (decide_eq_true (by omega)) _) (avsAckTimeout_of_tries hon ht)
  · intro t
    have hsite : s.avsSite n = (n, { typ := 0x01 }) := if_pos hn
    have hspent : s.avsSpent n = t := by rw [State.avsSpent, hsite]
    have hrun : exec (.avsAckTimeout n) s = .next (t.avsFailed n (t.dieSlot n)) :=
      exec_of_eq (onUnit_pos (decide_eq_true (by omega)) _) ((avsAckTimeout_of_spent hon ht).trans (by rw [if_pos hn, hspent]))
    refine ⟨fun hnone => exec_of_eq hrun ?_, fun sid hslot hph hjob => exec_of_eq hrun ?_, fun sid hslot hph => exec_of_eq hrun ?_⟩
    · rw [hnone, State.avsFailed]
    · rw [hslot, State.avsFailed, if_neg (by simp [hph, hjob])]
    · rw [hslot, State.avsFailed, if_pos (Or.inl hph)]
  · exact exec_of_eq (onUnit_pos (decide_eq_true hn) _) (avsAckTimeout_of_tries hon ht)
  · have hhigh : ¬ n < 48 := Nat.not_lt.mpr hlow
    have hsite : s.avsSite n = (60 + s.sec.active, { typ := 0x22, inst := s.sec.active, sub := n }) := if_neg hhigh
    refine exec_of_eq (onUnit_pos (decide_eq_true hn) _) ((avsAckTimeout_of_spent hon ht).trans ?_)
    rw [if_neg hhigh, State.avsFailed, State.avsSpent, hsite]
  · exact exec_of_eq rfl (if_pos hon)
  · exact exec_of_eq (onUnit_pos (decide_eq_true hn) _) (if_pos (Or.inr (List.contains_iff_mem.mpr hmem)))
  · have hlost : (forEach (quadDies n) (fun d u => u.raise d 0x0703 { typ := 0x01 })
        { s with pwr := { s.pwr with lostPairs := NSet.add s.pwr.lostPairs n } }).pwr =
        { s.pwr with lostPairs := NSet.add s.pwr.lostPairs n } :=
      forEach_keeps (φ := State.pwr) (fun d t => t.raiseAs_pwr d _ _ _) _ _
    obtain ⟨hpairs, hback⟩ := forEach_clockLost ((List.range 16).map (fun i => 48 + i)) (n := n)
      (congrArg PowerState.lostPairs hlost |>.trans (by rw [hnone]; rfl))
    refine ⟨_, exec_of_eq (onUnit_pos (decide_eq_true hn) _) (refclkLoss_eq hon (by rw [hnone]; exact List.not_mem_nil)), hpairs,
      fun d h48 h64 hp => (hback d).mpr (.inr ⟨?_, hp⟩), fun d hd hp hin => ?_⟩
    · exact List.mem_map.mpr ⟨d - 48, List.mem_range.mpr (by omega), by omega⟩
    · rcases (hback d).mp hin with h | ⟨-, h⟩
      · rw [hlost] at h
        exact hd h
      · exact hp h

end Sys2Proof.Machine
end

section
/-!
PROOFS. Test access and loopbacks (R454, R469 to R473).
-/
namespace Sys2Proof.Machine

/-! ## The instruction that a TAP takes -/

/-- The TAP of a die holds an instruction, and the die's test domain shows whether it is one of test. -/
def State.tapPut (s : State) (die x on : Nat) : State :=
  ({ s with stu := { s.stu with tap := SMap.set (fun _ => tapBypass) s.stu.tap die x } }).setField die 0 0x048
    (testDomain die) (testDomain die) on

theorem tapInstruction_of_on {s : State} (hon : s.pwr.railsOn = true) {die ir dr x : Nat} (hx : s.tapAllowed ir dr = x) :
    tapInstruction die ir dr s =
      (let t := s.tapPut die x (if x = tapIdcode ∨ x = tapBypass then 0 else 1)
       if x = tapIdcode then t.send (.pin .tdo (idcode die))
       else if x = tapBypass then t.send (.pin .tdo (dr * 2))
       else t.tapRun die x dr) := by
  unfold tapInstruction
  rw [hx]
  dsimp only
  rw [if_pos hon]
  split
  · rfl
  · split
    · rfl
    · exact if_neg (by rw [hon]; decide)

/-- What the debug lock and a job leave of an instruction (R454, R473). -/
theorem State.tapAllowed_of_bypass {s : State} {ir dr : Nat}
    (h : (s.sec.debugLocked = true ∧ ¬ (ir = 0 ∨ ir = 1)) ∨
      (s.jobIn = true ∧ ¬ (ir = 0 ∨ ir = 1) ∧ ¬ (ir = 2 ∧ monitor dr = true)) ∨ ir = 255) :
    s.tapAllowed ir dr = tapBypass := by
  unfold State.tapAllowed tapIdcode tapSample tapReadOnly tapBypass
  dsimp only
  by_cases h255 : ir = 255
  · simp [h255]
  · rcases h with ⟨hlock, hb⟩ | ⟨hjob, hb, hm⟩ | h
    · rw [not_or] at hb
      simp [hlock, hb.1, hb.2, h255]
    · rw [not_or] at hb
      have hread : (ir == 2 && monitor dr) = false := by simpa using hm
      simp [hjob, hb.1, hb.2, h255, hread]
    · exact absurd h h255

theorem State.tapAllowed_of_not_bypass {s : State} {ir dr : Nat}
    (h : ¬ ((s.sec.debugLocked = true ∧ ¬ (ir = 0 ∨ ir = 1)) ∨
      (s.jobIn = true ∧ ¬ (ir = 0 ∨ ir = 1) ∧ ¬ (ir = 2 ∧ monitor dr = true)) ∨ ir = 255)) :
    s.tapAllowed ir dr = ir ∧ ir ≠ 255 := by
  obtain ⟨hlock, hjob, h255⟩ := not_or.mp h |>.imp_right not_or.mp
  refine ⟨?_, h255⟩
  unfold State.tapAllowed tapIdcode tapSample tapReadOnly tapBypass
  dsimp only
  have h1 : ¬ (s.sec.debugLocked && !decide (ir = 0 ∨ ir = 1 ∨ ir = 255)) = true := by
    simp only [Bool.and_eq_true, Bool.not_eq_true', decide_eq_false_iff_not]
    exact fun c => hlock ⟨c.1, fun hb => c.2 (hb.imp_right Or.inl)⟩
  have h2 : ¬ (s.jobIn && !decide (ir = 0 ∨ ir = 1 ∨ ir = 255) && !(ir == 2 && monitor dr)) = true := by
    simp only [Bool.and_eq_true, Bool.not_eq_true', decide_eq_false_iff_not, Bool.and_eq_false_iff, beq_eq_false_iff_ne]
    rintro ⟨⟨hj, hb⟩, hm⟩
    refine hjob ⟨hj, fun hb' => hb (hb'.imp_right Or.inl), fun ⟨h2, hmon⟩ => ?_⟩
    rcases hm with hne | hmon'
    · exact hne h2
    · exact Bool.false_ne_true (hmon'.symm.trans hmon)
  rw [if_neg h1, if_neg h2]

/-- An instruction other than IDCODE and BYPASS that is let through runs. -/
theorem tapInstruction_of_run {s : State} (hon : s.pwr.railsOn = true) {die ir dr : Nat} (hx : s.tapAllowed ir dr = ir)
    (h0 : ir ≠ 0) (h255 : ir ≠ 255) : tapInstruction die ir dr s = (s.tapPut die ir 1).tapRun die ir dr := by
  rw [tapInstruction_of_on hon hx]
  dsimp only
  have hid : ir ≠ tapIdcode := h0
  have hby : ir ≠ tapBypass := h255
  rw [if_neg (not_or.mpr ⟨hid, hby⟩), if_neg hid, if_neg hby]

/-! ## Loopbacks -/

theorem State.loopReject_of_start {s : State} {p : Path} {v : Word} (hc : s.checkWrite p 60 0 0x390 v = none)
    (hstart : bitAt v 63 = true) :
    s.loopReject p v =
      (let i := fld v 11 8
       let n := fld v 23 16
       let ms := fld v 47 32
       if ms = 0 ∨ 60000 < ms then some rejRange
       else if !loopExists i n (fld v 1 0) then some rejRelation
       else if s.jobIn ∨ s.stu.loops.any (fun l => l.1 == i && l.2.1 == n) ∨ loopPath p = some (i, n) then some rejState
       else none) := by
  unfold State.loopReject
  rw [hc]
  exact if_pos hstart

theorem stuLoopStart_of_rejected {s : State} {p : Path} {v : Word} {r : Nat} (h : s.loopReject p v = some r) :
    stuLoopStart p v s = s.reject 60 0 0x390 r := by
  unfold stuLoopStart
  rw [h]

theorem stuLoopStart_of_start {s : State} {p : Path} {v : Word} (h : s.loopReject p v = none) (hstart : bitAt v 63 = true) :
    stuLoopStart p v s =
      (let i := fld v 11 8
       let n := fld v 23 16
       let t := { s with stu := { s.stu with loops := s.stu.loops ++ [(i, n, fld v 1 0)] } }
       let w := setFld (setFld (setFld v 62 62 (s.field 60 0 0x390 62 62)) 63 63 1) 62 62 0
       (((t.wr 60 0 0x390 w).wr 60 0 0xC80 0).wr 60 0 0xC88 0).loopOn i n) := by
  unfold stuLoopStart
  rw [h]
  dsimp only
  rw [hstart, Bool.true_or, if_pos rfl, if_pos rfl]

/-- Settles O60: an instruction by what lets it through, and a loopback's start by the first condition that fails. -/
theorem testAccessAndLoopbacks : Obligations.TestAccessAndLoopbacks := by
  intro s die ir dr p v
  refine ⟨fun hd hon => ?_, fun hc hstart => ?_, fun hnone => ?_, fun i n d rest hl => ?_⟩
  · have hunit := decide_eq_true hd
    intro basic bypass put q r used
    have hrun (hb : ¬ bypass) (h0 : ir ≠ 0) : exec (.tapInstruction die ir dr) s = .next (q.tapRun die ir dr) := by
      obtain ⟨hx, h255⟩ := State.tapAllowed_of_not_bypass hb
      exact exec_of_eq (onUnit_pos hunit _) (tapInstruction_of_run hon hx h0 h255)
    refine ⟨fun h0 => ?_, fun hb => ?_, fun hb h1 => ?_, fun hb h2 hm => ?_, fun hb h => ?_, fun hb h3 h5 => ?_, fun hb h6 => ?_⟩
    · have hx : s.tapAllowed ir dr = 0 := by simp [State.tapAllowed, tapIdcode, h0]
      exact exec_of_eq (onUnit_pos hunit _) (tapInstruction_of_on hon hx)
    · exact exec_of_eq (onUnit_pos hunit _) (tapInstruction_of_on hon (State.tapAllowed_of_bypass hb))
    · subst h1
      exact exec_of_eq (hrun hb (by decide)) rfl
    · subst h2
      exact exec_of_eq (hrun hb (by decide)) (if_pos hm)
    · rcases h with ⟨h2, hm⟩ | h6
      · subst h2
        exact exec_of_eq (hrun hb (by decide)) (if_neg (by rw [hm]; decide))
      · subst h6
        exact exec_of_eq (hrun hb (by decide)) rfl
    · intro lands
      refine exec_of_eq (hrun hb (by omega)) ?_
      obtain rfl | rfl | rfl : ir = 3 ∨ ir = 4 ∨ ir = 5 := by omega
      · rfl
      · rfl
      · rfl
    · refine exec_of_eq (hrun hb (by omega)) ?_
      unfold State.tapRun tapSample tapReadOnly tapExtest tapPulse tapTrain tapInstrument
      dsimp only
      rw [if_neg (by omega), if_neg (by omega), if_neg (by omega), if_neg (by omega), if_neg (by omega)]
      rfl
  · intro i n ms free
    have hrej := State.loopReject_of_start hc hstart
    have hbusy : ¬ (s.jobIn = true ∨ s.stu.loops.any (fun l => l.1 == i && l.2.1 == n) = true ∨ loopPath p = some (i, n)) ↔ free := by
      simp only [not_or, Bool.not_eq_true, List.any_eq_false, Bool.and_eq_true, beq_iff_eq]
      rfl
    refine ⟨fun h1 h2 hex hfree => ?_, fun hms => ?_, fun h1 h2 hex => ?_, fun h1 h2 hex hfree => ?_⟩
    · have hms : ¬ (ms = 0 ∨ 60000 < ms) := by omega
      refine exec_of_eq rfl (stuLoopStart_of_start (hrej.trans ((if_neg hms).trans ((if_neg ?_).trans (if_neg ?_)))) hstart)
      · rw [hex]; decide
      · exact hbusy.mpr hfree
    · exact exec_of_eq rfl (stuLoopStart_of_rejected (hrej.trans (if_pos hms)))
    · have hms : ¬ (ms = 0 ∨ 60000 < ms) := by omega
      exact exec_of_eq rfl (stuLoopStart_of_rejected (hrej.trans ((if_neg hms).trans (if_pos (by rw [hex]; rfl)))))
    · have hms : ¬ (ms = 0 ∨ 60000 < ms) := by omega
      refine exec_of_eq rfl (stuLoopStart_of_rejected (hrej.trans ((if_neg hms).trans ((if_neg ?_).trans (if_pos ?_)))))
      · rw [hex]; decide
      · exact not_not.mp (mt hbusy.mp hfree)
  · refine exec_of_eq (t := loopbackEnd s) rfl ?_
    rw [loopbackEnd, hnone]
  · intro t u
    refine exec_of_eq (t := loopbackEnd s) rfl ?_
    rw [loopbackEnd, hl]
    simp only [List.isEmpty_iff]
    rfl

end Sys2Proof.Machine
end

section
/-!
PROOFS. The step and the reset state.
-/
namespace Sys2Proof.Machine

/-- Settles O1: by the definition of `step`. -/
theorem stepRunsFront : Obligations.StepRunsFront := fun _ _ _ => rfl

/-- Settles O2: the queue has no front command. -/
theorem emptyQueueIdles : Obligations.EmptyQueueIdles := by
  intro s h
  rw [step, h]

/-- The reset state lists no register, so each reads as its reset value. -/
theorem State.reset_reg (a : Nat) : State.reset.reg a = resetReg a := rfl

/-- Settles O3: every part of the reset state is empty. -/
theorem resetState : Obligations.ResetState :=
  ⟨rfl, State.reset_reg, rfl, fun _ => rfl, by decide +kernel, rfl, rfl, rfl, rfl⟩

/-- Settles O4: the empty map stands in canonical form. -/
theorem resetSound : Obligations.ResetSound := ⟨rfl, rfl, rfl, rfl⟩

end Sys2Proof.Machine
end

section
/-!
PROOFS. Ports come up and go down (R234 to R240).
-/
namespace Sys2Proof.Machine

theorem portOk_of_lt {p : Nat} (h : p < 48) : portOk p = true := decide_eq_true (by omega)

/-! ## Enabling a port -/

section
variable {s : State} {p : Nat} (hp : p < 48) (h0 : s.portPhase p = 0) (hhold : s.flt.hold = false) (hawake : s.portAwake p = true)
include hp h0 hhold hawake

/-- An idle port of a module that is not held takes ENABLE, and its loopback says what it waits for (R234, R240). -/
theorem brzEnable_of_idle : brzEnable p s =
    (let t := s.setField (brzDie p) (brzBlk p) 0x040 16 16 1
     let l := t.loopSel p
     if l = 1 ∨ l = 2 then t.setPhase p 2
     else if l = 3 then (t.requestLight p).setPhase p 1
     else if p < 48 ∧ t.field (brzDie p) (brzBlk p) 0x048 23 8 = 0xFFFF then t
     else (t.requestLight p).setPhase p 1) := by
  unfold brzEnable
  rw [if_neg (by simp [h0, hhold, hawake]), if_pos hp]

theorem brzEnable_of_peer (hl : (s.setField (brzDie p) (brzBlk p) 0x040 16 16 1).loopSel p = 0)
    (hpeer : (s.setField (brzDie p) (brzBlk p) 0x040 16 16 1).field (brzDie p) (brzBlk p) 0x048 23 8 ≠ 0xFFFF) :
    brzEnable p s = ((s.setField (brzDie p) (brzBlk p) 0x040 16 16 1).requestLight p).setPhase p 1 := by
  rw [brzEnable_of_idle hp h0 hhold hawake]
  dsimp only
  rw [hl, if_neg (by decide), if_neg (by decide), if_neg (fun c => hpeer c.2)]

end

/-! ## IDENT and echo flits -/

/-- The IDENT flit of a peer is shown, and the peer is the expected one or another (R235, R236). -/
theorem identFlit_of_good {s : State} {p : Nat} {f : Flit} (hp : p < 48) (h4 : s.portPhase p = 4) (hok : portError p f = false)
    (htyp : f.typ = 2) :
    identFlit p f s =
      (let m := natAt f.payload 0 2
       let q := natAt f.payload 2 1
       let t := ((s.countFec p f).setField (brzDie p) (brzBlk p) 0x070 23 8 m).setField (brzDie p) (brzBlk p) 0x070 5 0 q
       let ep := (Nat.max (t.epoch p) (natAt f.payload 3 1) + 1) % 64
       if t.loopSel p = 4 then (t.setField (brzDie p) (brzBlk p) 0x060 37 32 ep).setPhase p 8
       else if m = t.field (brzDie p) (brzBlk p) 0x048 23 8 ∧ q = t.field (brzDie p) (brzBlk p) 0x048 5 0 then
         ((t.setField (brzDie p) (brzBlk p) 0x060 37 32 ep).setField (brzDie p) (brzBlk p) 0x060 7 0 0).goUp p
       else (t.setPhase p 9).event 0x0031 p 0 0) := by
  unfold identFlit
  rw [if_neg (not_not_intro h4), if_neg (by simp [hok, htyp])]
  dsimp only
  rw [if_neg (Nat.not_le.mpr hp)]

/-- An echo flit of a port with ECHO_OK goes back unchanged (R239). -/
theorem echoFlit_of_allowed {s : State} {p : Nat} {f : Flit} (hp : p < 48) (htyp : f.typ = 3) (h8 : s.portPhase p ≠ 8)
    (hecho : s.field (brzDie p) (brzBlk p) 0x040 15 15 = 1) (hok : flitError f = false) (hep : f.epoch = s.epoch p) :
    echoFlit p f s = (receive p f s).send (.flit p f) := by
  unfold echoFlit
  rw [if_neg (not_not_intro htyp), if_neg h8]
  exact if_pos ⟨hp, hecho, by rw [hok]; decide, hep⟩

/-- Settles O34: each command on a port of the phase that it speaks of. -/
theorem portBringUp : Obligations.PortBringUp := by
  intro s p hp die blk
  have hok := portOk_of_lt hp
  refine ⟨fun h0 hhold hawake => ?_, ?_, fun h1 => ?_, fun tx rx h2 => ?_, fun h3 hl1 hl3 => ?_, fun h3 hl => ?_,
    fun h8 hl => ?_, fun f h4 hgood htyp => ?_, fun f htyp h8 hecho hgood hep => ?_, fun he => ?_, fun h1 => ?_, fun h => ?_,
    fun h => ?_, fun h => ?_⟩
  · intro t
    refine ⟨fun hl => ?_, fun hl hpeer => ?_⟩
    · exact exec_of_eq (onUnit_pos hok _) ((brzEnable_of_idle hp h0 hhold hawake).trans (if_pos hl))
    · have hrun := brzEnable_of_peer hp h0 hhold hawake hl hpeer
      exact ⟨exec_of_eq (onUnit_pos hok _) hrun, fun hen => exec_of_eq (onUnit_pos hok _) ((if_pos ⟨h0, hen⟩).trans hrun)⟩
  · refine exec_of_eq (onUnit_pos hok _) ?_
    unfold brzDisable
    rw [if_pos hp]
  · exact exec_of_eq (onUnit_pos hok _) (if_pos h1)
  · intro h htx hrx t
    refine exec_of_eq (onUnit_pos hok _) ?_
    rw [if_pos hp]
    exact (if_pos ⟨h2, htx, hrx⟩).trans (if_neg Bool.false_ne_true)
  · exact exec_of_eq (onUnit_pos hok _) ((if_pos h3).trans (if_pos ⟨hl1, hl3⟩))
  · exact exec_of_eq (onUnit_pos hok _) ((if_pos h3).trans (if_neg (by rw [hl]; decide)))
  · exact exec_of_eq (onUnit_pos hok _) (if_pos ⟨h8, hl⟩)
  · intro m q t hl
    have hrun := identFlit_of_good hp h4 hgood htyp
    refine ⟨fun hm hq => ?_, fun hm => ?_⟩
    · exact exec_of_eq (onUnit_pos hok _) (hrun.trans ((if_neg hl).trans (if_pos ⟨hm, hq⟩)))
    · exact exec_of_eq (onUnit_pos hok _) (hrun.trans ((if_neg hl).trans (if_neg (fun c => hm c.1))))
  · exact exec_of_eq (onUnit_pos hok _) (echoFlit_of_allowed hp htyp h8 hecho hgood hep)
  · exact exec_of_eq (onUnit_pos hok _) (if_pos he)
  · refine exec_of_eq (onUnit_pos hok _) ((if_pos (Or.inl h1)).trans ?_)
    rw [h1]
    rfl
  · refine exec_of_eq (onUnit_pos hok _) ((if_pos (by omega)).trans ?_)
    rcases h with h | h | h <;> (rw [h]; rfl)
  · refine exec_of_eq (onUnit_pos hok _) ((if_pos (by omega)).trans ?_)
    rcases h with h | h <;> (rw [h]; rfl)
  · exact exec_of_eq (onUnit_pos hok _) (if_pos h)

end Sys2Proof.Machine
end

section
/-!
PROOFS. Widths and retraining (R227, R232 to R234, R238, R241, R20, R21).
-/
namespace Sys2Proof.Machine

/-! ## The health of a port's lanes -/

theorem State.healthChanged_of_narrow {t : State} {p : Nat} (h : t.portPhase p = 5 ∨ t.portPhase p = 6 ∨ t.portPhase p = 7)
    (hn : t.tooNarrow p = true) : t.healthChanged p = t.portDown p 6 := by
  unfold State.healthChanged
  exact (if_neg (by omega)).trans (if_pos hn)

theorem State.healthChanged_of_retrain {t : State} {p : Nat} (h : t.portPhase p = 6) (hn : t.tooNarrow p = false) :
    t.healthChanged p = t := by
  unfold State.healthChanged
  exact (if_neg (by omega)).trans ((if_neg (by rw [hn]; decide)).trans (if_pos h))

/-- A port that is UP keeps its lanes or changes its width. -/
theorem State.healthChanged_of_up {t : State} {p : Nat} (h : t.portPhase p = 5) (hn : t.tooNarrow p = false) :
    t.healthChanged p =
      (let curT := t.laneMask p 0
       let curR := t.laneMask p 1
       let newT := nextLanes p curT (t.txHealthy p)
       let newR := nextLanes p curR (t.laneMask p 3)
       let u := t.setPort p { t.port p with
         rewiden := couldWiden p newT (t.txHealthy p) || couldWiden p newR (t.laneMask p 3) }
       if newT = curT ∧ newR = curR then u
       else (u.setPort p { u.port p with newTx := newT, newRx := newR }).setPhase p 7) := by
  have h7 : ¬ t.portPhase p = 7 := by omega
  unfold State.healthChanged
  refine (if_neg (by omega)).trans ((if_neg (by rw [hn]; decide)).trans ((if_neg (by omega)).trans ?_))
  unfold State.reLane
  dsimp only
  rw [if_neg h7, if_neg h7]

/-! ## Laser inputs -/

/-- A reading of a laser input that repeats the last one changes nothing (R20). -/
theorem laser_of_same {s : State} {die engine input dbm : Nat}
    (h : s.link.dark.contains (4 * (2 * (die - 48) + engine) + input) = decide (dbm < 160)) :
    laser die engine input dbm s = s := if_pos h.symm

theorem laser_of_dark {s : State} {die engine input dbm : Nat}
    (h : s.link.dark.contains (4 * (2 * (die - 48) + engine) + input) = false) (hlow : dbm < 160) :
    laser die engine input dbm s =
      (let e := 2 * (die - 48) + engine
       let t := { s with link := { s.link with dark := NSet.add s.link.dark (4 * e + input) } }
       forEach (enginePorts e) (fun q u => laneHealth q (u.port q).txFound (u.laneMask q 3) u) (t.laserFault e input)) := by
  unfold laser
  dsimp only
  rw [h, decide_eq_true hlow, if_neg (by decide), if_pos rfl, if_pos rfl]

/-- Settles O35: each command on a port of the phase that it speaks of, and the laser inputs by their last reading. -/
theorem widthsAndRetraining : Obligations.WidthsAndRetraining := by
  intro s p hp site
  have hok := portOk_of_lt hp
  refine ⟨fun tx rx => ?_, fun h7 => ?_, fun h => ⟨?_, fun hlim => ?_⟩, fun h6 => ⟨fun hn => ?_, fun hn => ?_⟩,
    fun die engine input dbm h48 h56 he hi => ⟨fun h => ?_, fun h hlow => ?_⟩⟩
  · intro t curT curR newT newR u
    refine ⟨fun h hn => ?_, fun h hn => ?_, fun h hn => ⟨fun hT hR => ?_, fun hne => ?_⟩⟩
    · exact exec_of_eq (onUnit_pos hok _) (State.healthChanged_of_narrow (t := t) h hn)
    · exact exec_of_eq (onUnit_pos hok _) (State.healthChanged_of_retrain (t := t) h hn)
    · exact exec_of_eq (onUnit_pos hok _) ((State.healthChanged_of_up (t := t) h hn).trans (if_pos ⟨hT, hR⟩))
    · exact exec_of_eq (onUnit_pos hok _) ((State.healthChanged_of_up (t := t) h hn).trans
        (if_neg (fun c => hne.elim (fun hT => hT c.1) (fun hR => hR c.2))))
  · intro t
    have hsite : brzSite p = site := by simp only [brzSite, if_pos hp]; rfl
    refine exec_of_eq (onUnit_pos hok _) ?_
    unfold widthDone
    rw [if_neg (not_not_intro h7), hsite]
  · exact exec_of_eq (onUnit_pos hok _) (if_pos h)
  · refine exec_of_eq (onUnit_pos hok _) (if_pos ⟨h, ?_⟩)
    rw [if_pos hp]
    exact hlim
  · exact exec_of_eq (onUnit_pos hok _) ((if_pos h6).trans (if_pos hn))
  · exact exec_of_eq (onUnit_pos hok _) ((if_pos h6).trans (if_neg (by rw [hn]; decide)))
  · exact exec_of_eq (onUnit_pos (decide_eq_true ⟨h48, h56, he, hi⟩) _) (laser_of_same h)
  · exact exec_of_eq (onUnit_pos (decide_eq_true ⟨h48, h56, he, hi⟩) _) (laser_of_dark h hlow)

end Sys2Proof.Machine
end

section
/-!
PROOFS. Register reads (R277, R278, R291, R479), and identity and reports (R446 to R449).
-/
namespace Sys2Proof.Machine

theorem regRead_of_recv {s t : State} {p : Path} {f g : Frame} (h : s.recv p f 1 = (t, some g)) :
    regRead p f s =
      (let die := addrDie g.addr
       let blk := addrBlk g.addr
       let off := addrOff g.addr
       if addrBad g ∨ g.len ≠ 0 then t.respond p g 4 0
       else if t.unreachable die blk off g.aux then t.respond p g 3 0
       else if t.readDenied p blk then t.respond p g 2 0 (zeros (8 * g.aux))
       else if (blockType die blk).isNone then t.respond p g 1 0 (zeros (8 * g.aux))
       else
         let d := (List.range g.aux).flatMap (fun i => leBytes 8 (t.readReg p die blk (off + 8 * i)).toNat)
         ({ t with free := t.free + 1 }).respond p g 0 0 d) := by
  unfold regRead
  rw [h]

/-- Settles O45: the answer is that of the first check that the request fails. -/
theorem regReadAnswers : Obligations.RegReadAnswers := by
  intro s t p f g h die blk off good
  have hrun := regRead_of_recv h
  have hgood (hg : good) : ¬ (addrBad g = true ∨ g.len ≠ 0) := by simp [hg.1, hg.2]
  have hfalse {b : Bool} (hb : b = false) : ¬ b = true := fun c => Bool.false_ne_true (hb.symm.trans c)
  refine ⟨fun hbad => ?_, fun hg hu => ?_, fun hg hu hd => ?_, fun hg hu hd hn => ?_, fun hg hu hd hn => ?_⟩
  · refine exec_of_eq rfl (hrun.trans (if_pos ?_))
    by_contra hc
    obtain ⟨ha, hl⟩ := not_or.mp hc
    exact hbad ⟨Bool.not_eq_true _ ▸ ha, not_not.mp hl⟩
  · exact exec_of_eq rfl (hrun.trans ((if_neg (hgood hg)).trans (if_pos hu)))
  · exact exec_of_eq rfl (hrun.trans ((if_neg (hgood hg)).trans ((if_neg (hfalse hu)).trans (if_pos hd))))
  · exact exec_of_eq rfl (hrun.trans ((if_neg (hgood hg)).trans ((if_neg (hfalse hu)).trans ((if_neg (hfalse hd)).trans
      (if_pos (Option.isNone_iff_eq_none.mpr hn))))))
  · exact exec_of_eq rfl (hrun.trans ((if_neg (hgood hg)).trans ((if_neg (hfalse hu)).trans ((if_neg (hfalse hd)).trans
      (if_neg (fun c => hn (Option.isNone_iff_eq_none.mp c)))))))

/-! ## Frames of the management port's types on a control port -/

section
variable {s : State} {p : Path} {f : Frame} (hp : p = .cpA ∨ p = .cpB) (hup : s.cpStatus p = 1)
include hp hup

/-- Such a frame is counted as received and as bad, and goes no further (R277). -/
theorem State.mgmtFrame_of_control {typ : Nat} (htyp : f.typ = typ) :
    s.mgmtFrame p f typ = ((s.bump (pathDie p) 0x1E 0xC00).countBad p, none) := by
  unfold State.mgmtFrame
  rcases hp with rfl | rfl <;> exact if_pos ⟨htyp, hup⟩

theorem State.fwCtl_of_control {op : Nat} (htyp : f.typ = 0x25) (hop : f.aux % 256 = op) :
    s.fwCtl p f op = ((s.bump (pathDie p) 0x1E 0xC00).countBad p, none) :=
  (if_neg (not_not_intro hop)).trans (State.mgmtFrame_of_control hp hup htyp)

end

theorem certReq_of_frame {s t : State} {p : Path} {f g : Frame} (h : s.mgmtFrame p f 0x22 = (t, some g)) :
    certReq p f s =
      if certBad then t.sendFrame .mgmt { typ := 0x23, tag := g.tag, status := 1 }
      else t.sendFrame .mgmt
        { typ := 0x23, tag := g.tag, aux := 3, len := Config.certChain.length, data := Config.certChain } := by
  unfold certReq
  rw [h]

theorem attestReq_of_frame {s t : State} {p : Path} {f g : Frame} (h : s.mgmtFrame p f 0x20 = (t, some g)) :
    attestReq p f s =
      if g.data.length ≠ 32 then t.mgmtBad g 0x20
      else t.sendFrame .mgmt { typ := 0x21, tag := g.tag, len := (t.report g.data).length, data := t.report g.data } := by
  unfold attestReq
  rw [h]

/-- Settles O50: the two requests on the management port, and the refused types on a control port. -/
theorem identityAndReports : Obligations.IdentityAndReports := by
  intro s t p f g
  refine ⟨fun h => ⟨fun hb => ?_, fun hb => ?_⟩, fun h => ⟨fun hl => ?_, fun hl => ?_⟩, fun hp hup => ?_⟩
  · exact exec_of_eq rfl ((certReq_of_frame h).trans (if_pos hb))
  · exact exec_of_eq rfl ((certReq_of_frame h).trans (if_neg (by rw [hb]; decide)))
  · exact exec_of_eq rfl ((attestReq_of_frame h).trans (if_neg (not_not_intro hl)))
  · exact exec_of_eq rfl ((attestReq_of_frame h).trans (if_pos hl))
  · intro u
    have hframe {typ : Nat} (htyp : f.typ = typ) : s.mgmtFrame p f typ = (u, none) := State.mgmtFrame_of_control hp hup htyp
    have hctl {op : Nat} (htyp : f.typ = 0x25) (hop : f.aux % 256 = op) : s.fwCtl p f op = (u, none) :=
      State.fwCtl_of_control hp hup htyp hop
    have hsent : u.sent = s.sent := by
      rcases hp with rfl | rfl <;> exact (State.bump_sent _ _ _ _ _).trans (State.bump_sent _ _ _ _ _)
    refine ⟨hsent, fun h => exec_of_eq (t := certReq p f s) rfl ?_, fun h => exec_of_eq (t := attestReq p f s) rfl ?_,
      fun h => exec_of_eq (t := fwData p f s) rfl ?_, fun h => exec_of_eq (t := install p f s) rfl ?_, fun h =>
      ⟨fun ho => exec_of_eq (t := fwBegin p f s) rfl ?_, fun ho => exec_of_eq (t := fwStage p f s) rfl ?_,
        fun ho => exec_of_eq (t := fwActivate p f s) rfl ?_, fun ho => exec_of_eq (t := fwCommit p f s) rfl ?_,
        fun ho => exec_of_eq (t := fwAbort p f s) rfl ?_, fun ho => exec_of_eq (t := revoke p f s) rfl ?_⟩⟩
    · rw [certReq, hframe h]
    · rw [attestReq, hframe h]
    · rw [fwData, hframe h]
    · rw [install, hframe h]
    · rw [fwBegin, hctl h ho]
    · rw [fwStage, hctl h ho]
    · rw [fwActivate, hctl h ho]
    · rw [fwCommit, hctl h ho]
    · rw [fwAbort, hctl h ho]
    · rw [revoke, hctl h ho]

end Sys2Proof.Machine
end

section
/-!
PROOFS. Resets end or run out (R407, R408, R411, R412, R433).
-/
namespace Sys2Proof.Machine

/-! ## A watchdog that runs out -/

/-- The reset of a domain is no longer among those that run. -/
def State.resetGone (t : State) (d : Domain) : State :=
  { t with flt := { t.flt with resetting := t.flt.resetting.filter (fun x => x != d) } }

/-- The partition whose reset has run out: none for the module. -/
def State.timeoutPart (s : State) (d : Domain) : Nat := if d = .module then 999 else s.partition (domainSite d).1

/-- RESET_TIMEOUT of a domain (R408). -/
def State.timeoutRaised (s : State) (d : Domain) : State :=
  s.raiseAs (domainSite d).1 0x0310 (s.timeoutClass (s.timeoutPart d))
    { (domainSite d).2 with detail := BitVec.ofNat 64 (domainNumber d) }

/-- What a watchdog does to the enclosing domain. -/
def State.afterTimeout (t : State) : Domain → State
  | .array core _ => t.beginReset (.core core)
  | .core core => t.beginReset (.die (core / 4))
  | .stackPhy x => t.beginReset (.die x)
  | .die x => if x < 48 then (t.resetGone (.die x)).fenceDie x else (t.resetGone (.die x)).pairOut x
  | .port p => t.beginReset (.linkDie (brzDie p))
  | .linkDie _ => t.beginReset .module
  | .hub x => ((t.resetGone (.hub x)).raise x 0x0312 { typ := 0x01 }).leaveService (.hub x)
  | .module => (t.outOfService .module).showPair .fault

/-- Only a running reset of a module in service can run out. -/
theorem resetWatchdog_of_idle {s : State} {d : Domain} (h : d ∉ s.flt.resetting) : resetWatchdog d s = s :=
  if_pos (by simp [h])

theorem resetWatchdog_of_running {s : State} {d : Domain} (h : d ∈ s.flt.resetting)
    (hsvc : Domain.module ∉ s.flt.outOfService) : resetWatchdog d s = (s.timeoutRaised d).afterTimeout d := by
  unfold resetWatchdog
  refine (if_neg (by simp [h, hsvc])).trans ?_
  cases d <;> rfl

/-! ## A reset that completes, and the limits -/

theorem completeReset_of_idle {s : State} {d : Domain} (h : d ∉ s.flt.resetting) : completeReset d s = s :=
  if_pos (by simp [h])

theorem completeReset_of_held {s : State} {d : Domain} (h : s.tripHolds d = true) : completeReset d s = s :=
  if_pos (by simp [h])

theorem completeReset_of_free {s : State} {d : Domain} (h : d ∈ s.flt.resetting)
    (hsvc : Domain.module ∉ s.flt.outOfService) (htrip : s.tripHolds d = false) :
    completeReset d s = (s.resetGone d).completeBody d :=
  if_neg (by simp [h, hsvc, htrip])

/-- Settles O56: each command by the list of running resets and the counts of its domain. -/
theorem resetsEndOrRunOut : Obligations.ResetsEndOrRunOut := by
  intro s r hok d gone
  refine ⟨fun h => ⟨?_, ?_⟩, fun h hsvc => ⟨fun ht => ?_, fun ht => ?_, ?_⟩, fun hm hsvc hlim => ?_, fun hlim => ?_,
    fun h => ?_, fun hhold hlim => ?_⟩
  · exact exec_of_eq (onUnit_pos hok _) (completeReset_of_idle h)
  · exact exec_of_eq (onUnit_pos hok _) (resetWatchdog_of_idle h)
  · exact exec_of_eq (onUnit_pos hok _) (completeReset_of_held ht)
  · exact exec_of_eq (onUnit_pos hok _) (completeReset_of_free h hsvc ht)
  · intro part t
    have ht : s.timeoutRaised d = t := by rw [State.timeoutRaised, State.timeoutPart]
    have hrun : exec (.resetWatchdog r) s = .next (State.afterTimeout t d) := by
      rw [← ht, ← resetWatchdog_of_running h hsvc]
      exact onUnit_pos hok _
    clear_value t
    have hcase {e : DomainRef} (he : r = e) : exec (.resetWatchdog r) s = .next (t.afterTimeout (ofRef e)) :=
      exec_of_eq hrun (congrArg (fun x => t.afterTimeout (ofRef x)) he)
    have hgone {e : DomainRef} (he : r = e) : t.resetGone (ofRef e) = gone t := congrArg (fun x => t.resetGone (ofRef x)) he.symm
    refine ⟨fun core a he => hcase he, fun core he => hcase he, fun n he => hcase he, fun n he => ?_, fun n he => hcase he,
      fun n he => hcase he, fun n he => ?_, fun he => hcase he⟩
    · rw [← hgone he, hcase he]
      simp only [ofRef, State.afterTimeout]
    · rw [← hgone he, hcase he]
      simp only [ofRef, State.afterTimeout]
  · refine exec_of_eq (onUnit_pos hok _) (if_neg ?_)
    rw [List.contains_iff_mem]
    rintro (h | h | h)
    · exact hm h
    · exact hsvc h
    · exact absurd hlim (Nat.not_le.mpr h)
  · exact exec_of_eq (onUnit_pos hok _) (if_pos (Or.inr (Or.inr hlim)))
  · exact exec_of_eq (t := modLimitReached s) rfl (if_pos h)
  · intro t u
    refine exec_of_eq (t := modLimitReached s) rfl (if_neg ?_)
    rintro (h | h)
    · exact Bool.false_ne_true (hhold.symm.trans h)
    · exact absurd hlim (Nat.not_le.mpr h)

end Sys2Proof.Machine
end

section
/-!
PROOFS. Power and sleep (R22, R27, R29, R434, R436, R458, R477).
-/
namespace Sys2Proof.Machine

/-! ## The rails -/

theorem State.unpower_off (s : State) : s.unpower.pwr.railsOn = false ∧ s.unpower.pwr.thermtrip = false := ⟨rfl, rfl⟩

theorem powerGoodTimeout_of_first {s : State} {n : Nat} (hon : s.pwr.railsOn = true) (hn : n ∉ s.stu.missedRails) :
    powerGoodTimeout n s =
      ({ s with stu := { s.stu with missedRails := NSet.add s.stu.missedRails n } }).send (.pin (.rail n) 1) :=
  (if_neg (by rw [hon]; decide)).trans (if_pos (by simp [hn]))

theorem powerGoodTimeout_of_second {s : State} {n : Nat} (hon : s.pwr.railsOn = true) (hn : n ∈ s.stu.missedRails) :
    powerGoodTimeout n s =
      (s.powerDown.collect (s.powerDown.mkRec 60 0x0702 2 { typ := 0x22, sub := n })).showPair .fault :=
  (if_neg (by rw [hon]; decide)).trans (if_neg (by simp [hn]))

theorem powerGoodTimeout_of_off {s : State} (hoff : s.pwr.railsOn = false) (n : Nat) : powerGoodTimeout n s = s :=
  if_pos (by rw [hoff]; rfl)

theorem porRelease_of_off {s : State} (hoff : s.pwr.railsOn = false) (r : StartReport) :
    porRelease r s =
      (let t := s.loseSections r.absent
       let u := { t with stu := { t.stu with b2Only := true, strap := strapOf r.strap } }
       u.railsUp.boot { r with cold := true } false) :=
  if_neg (by rw [hoff]; decide)

/-! ## Sleep -/

/-- Every slot stands at a boundary, and no step replays (R436). -/
def State.quiet (s : State) : Prop :=
  (∀ sid ∈ s.usedSlots, (s.slot sid).phase = .idle ∨ (s.slot sid).phase = .computed) ∧
    ∀ x ∈ s.ldg.recs, x.phase ≠ .replaying

theorem State.quiet_iff (s : State) :
    (s.usedSlots.all (fun n => (s.slot n).phase == .idle || (s.slot n).phase == .computed)
      && s.ldg.recs.all (fun r => r.phase != .replaying)) = true ↔ s.quiet := by
  simp [State.quiet]

theorem sleepEntry_of_quiet {s : State} (hq : s.quiet) (hs : s.pwrStat = 1 ∨ s.pwrStat = 3) :
    sleepEntry s = if s.pwrStat = 3 then s.fallAsleep.wakeUp else s.fallAsleep :=
  if_pos ⟨hs, s.quiet_iff.mpr hq⟩

theorem sleepEntry_of_busy {s : State} (h : ¬ s.quiet ∨ (s.pwrStat ≠ 1 ∧ s.pwrStat ≠ 3)) : sleepEntry s = s := by
  refine if_neg (fun c => ?_)
  obtain ⟨hs, hq⟩ := c
  rcases h with h | ⟨h1, h3⟩
  · exact h (s.quiet_iff.mp hq)
  · exact hs.elim h1 h3

/-- Settles O59: each command by whether the rails are on, and sleep by PWR_STAT. -/
theorem powerAndSleep : Obligations.PowerAndSleep := by
  intro s n p r hn
  have hunit := decide_eq_true hn
  refine ⟨fun hon => ?_, fun hoff => ?_, ?_⟩
  · intro down
    obtain ⟨hrails, htrip⟩ := s.unpower_off
    exact ⟨exec_of_eq (t := porRelease r s) rfl (if_pos hon), exec_of_eq (t := porAssert s) rfl (if_pos hon),
      exec_of_eq (t := railsOkDeassert s) rfl (if_pos hon), hrails, htrip,
      fun h => exec_of_eq (onUnit_pos hunit _) (powerGoodTimeout_of_first hon h),
      fun h => exec_of_eq (onUnit_pos hunit _) (powerGoodTimeout_of_second hon h)⟩
  · intro t u
    have hoff' : ¬ s.pwr.railsOn = true := fun c => Bool.false_ne_true (hoff.symm.trans c)
    exact ⟨exec_of_eq (t := porRelease r s) rfl (porRelease_of_off hoff r),
      exec_of_eq (onUnit_pos hunit _) (powerGoodTimeout_of_off hoff n), exec_of_eq (t := railsOkDeassert s) rfl (if_neg hoff'),
      exec_of_eq (t := porAssert s) rfl (if_neg hoff')⟩
  · intro quiet
    refine ⟨rfl, rfl, fun hq h1 => ?_, fun hq h3 => ?_, fun h => exec_of_eq (t := sleepEntry s) rfl (sleepEntry_of_busy h)⟩
    · exact exec_of_eq (t := sleepEntry s) rfl ((sleepEntry_of_quiet hq (Or.inl h1)).trans (if_neg (by omega)))
    · exact exec_of_eq (t := sleepEntry s) rfl ((sleepEntry_of_quiet hq (Or.inr h3)).trans (if_pos h3))

end Sys2Proof.Machine
end
